-- ==== Sys2Proof/Word.lean ====
section
/-!
DEFINITION. The words of the register interface and their plainest arithmetic (spec/00_scope.md R6, R10, R19).
-/
namespace Sys2Proof

/-- One byte. -/
abbrev Byte := BitVec 8
/-- A register of BAR0: 32 bits (R6). -/
abbrev Word := BitVec 32
/-- A value of the 48-bit raw counter (R18). -/
abbrev Raw := BitVec 48

/-- The masters of the register interface: the host and each steward core (R11, R418). -/
inductive Master where
  | host | sc0 | sc1 | sc2 | sc3
  deriving DecidableEq, Repr

/-- The number of a master, the key under which its latches and stages are held. -/
def Master.index : Master → Nat
  | .host => 0 | .sc0 => 1 | .sc1 => 2 | .sc2 => 3 | .sc3 => 4

/-- An event counter counts up by one and stops at its all-ones value (R10). -/
def satInc {w : Nat} (v : BitVec w) : BitVec w :=
  if v = BitVec.allOnes w then v else v + 1

/-- The signed difference of two device-time values at their width (R19). -/
def sdiff {w : Nat} (a b : BitVec w) : Int := (a - b).toInt

end Sys2Proof
end

