-- ==== Sys2Proof/Syntax.lean ====
section
/-!
DEFINITION. The commands and events of spec/opcode_table.json, one constructor per row, with their operands.
The table gives its rows no bits. An operand is what the row's event brings from outside the block: the unit it names,
the value written, the bytes received, the outcome of an analogue or cryptographic process, the content of a section
whose encoding the manual does not give.
-/
namespace Sys2Proof

/-- A plane of samples in row order. -/
structure Plane where
  w : Nat
  h : Nat
  px : List Nat
  deriving DecidableEq, Repr, Inhabited

/-- A picture of three planes; the chroma planes have the size their format gives them. -/
structure Picture where
  y : Plane
  cb : Plane
  cr : Plane
  deriving DecidableEq, Repr, Inhabited

/-- The parts of an access unit (R145). -/
inductive Part where
  | aud | vps | sps | pps | temporalDelimiter | sequenceHeader | aps | pictureHeader | bufferingPeriod | pictureTiming | mastering
  | lightLevel | captions | slice | frame | filler
  deriving DecidableEq, Repr

/-- The addresses of a stream's datagrams as the image fixes them (R269): MAC addresses of six bytes, a VLAN tag, IP addresses of 4 or 16
bytes, the type of service, the IPv6 flow label and the time to live, UDP ports, the SSRC and the payload type. -/
structure NetPlan where
  dstMac : List Byte
  srcMac : List Byte
  vlan : Option Nat
  tos : Nat
  flow : Nat
  ttl : Nat
  srcIp : List Byte
  dstIp : List Byte
  srcPort : Nat
  dstPort : Nat
  ssrc : Word
  payloadType : Nat
  deriving DecidableEq, Repr, Inhabited

/-- The transport stream of a rendition as the image fixes it (R268, R273): identifiers, the initial version of its PMT, the PIDs of the
PMT, the video, SCTE-35 and the audio programmes in programme order, and AV1's video descriptor. -/
structure TsPlan where
  tsId : Nat
  program : Nat
  version : Nat
  pmtPid : Nat
  videoPid : Nat
  sctePid : Nat
  audioPids : List Nat
  av1Desc : List Byte
  deriving DecidableEq, Repr

/-- One rendition of a ladder as the CHANNEL section defines it (R102, R132, R134, R165, R167, R268, R269, R273, R276, R287): `sets` are its
parameter sets or sequence header as the image codes them, with every value that the manual does not set, `config` the decoder configuration
of its sample entry. -/
structure RendPlan where
  id : Nat
  codec : Nat
  res : Nat
  w : Nat
  h : Nat
  bits10 : Bool
  c422 : Bool
  mode : Nat
  rate : Nat
  cpb : Nat
  initDelay : Nat
  hdrMax : Nat
  lrMax : Nat
  form : Nat
  port : Nat
  ipv6 : Bool
  share : Nat
  seq0 : BitVec 16
  cc0 : BitVec 4
  filmGrain : Bool
  dest : Nat
  sets : List (Part × List Byte)
  net : NetPlan
  ts : TsPlan
  config : List Byte
  deriving DecidableEq, Repr

/-- One output of a scaler as the SCALER section defines it (R124, R222, R228). -/
structure OutPlan where
  scl : Nat
  out : Nat
  srcRes : Nat
  dst : Nat
  srcW : Nat
  srcH : Nat
  dstW : Nat
  dstH : Nat
  ofmt : Nat
  vtaps : Nat
  hbank : Nat
  vbank : Nat
  deriving DecidableEq, Repr

/-- A contribution slot as the CHANNEL section assigns it (R186, R187, R190, R191, R193, R194): `tfNum / tfDen` is its stream's
period in ns, `pid` the elementary stream's PID for carriage 1, `windows` the base and size of the bounds window of each buffer: the
bitstream ring, the substitute store, the channel's input-frame ring, the record area, then each decoded-picture buffer entry. -/
structure SlotPlan where
  du : Nat
  slot : Nat
  codec : Nat
  carriage : Nat
  w : Nat
  h : Nat
  tfNum : Nat
  tfDen : Nat
  sameFormat : Bool
  ctOfs : Nat
  tsAdj : Int
  auMax : Nat
  pid : Nat
  windows : List (Nat × Nat)
  deriving DecidableEq, Repr

/-- A serial audio port as the AUDIO section assigns it (R245, R246). -/
structure ApPlan where
  ap : Nat
  mode : Nat
  rate96 : Bool
  delay1 : Bool
  nslot : Nat
  width : Nat
  align : Nat
  deriving DecidableEq, Repr

/-- A network audio flow as the AUDIO section assigns it (R245, R250). -/
structure NfPlan where
  nf : Nat
  port : Nat
  kind31 : Bool
  rate96 : Bool
  l24 : Bool
  chans : Nat
  pt125 : Bool
  align : Nat
  deriving DecidableEq, Repr

/-- An audio programme (R256, R267): each source is (kind, index, channel); `mux` names the renditions whose transport streams
carry it (R268); `lang` is its ISO 639 language (R273), `config` the decoder configuration of its sample entry (R276). -/
structure PrgPlan where
  prg : Nat
  codec : Nat
  chans : Nat
  rate96 : Bool
  bitrate : Nat
  src : List (Nat × Nat × Nat)
  mux : List Nat
  form : Nat
  port : Nat
  share : Nat
  seq0 : BitVec 16
  ipv6 : Bool
  lang : List Byte
  net : NetPlan
  config : List Byte
  deriving DecidableEq, Repr

/-- What a frame of a flow path matches (R329): the IPv4 or IPv6 destination address, the UDP destination port, an optional source address
and an optional VLAN ID. -/
structure PathPlan where
  dst : List Byte
  port : Nat
  src : Option (List Byte)
  vlan : Option Nat
  deriving DecidableEq, Repr

/-- A receive flow, as the DEVICE section or a CHANNEL section defines it (R329, R331). -/
structure FlowPlan where
  rxf : Nat
  kind : Nat
  portA : Nat
  portB : Nat
  dual : Bool
  channel : Nat
  mergeWait : Nat
  pathA : PathPlan
  pathB : PathPlan
  payloadType : Nat
  deriving DecidableEq, Repr

/-- What the device reads in the CHANNEL, SCALER and AUDIO sections of one channel (R51). The manual gives the
contents of these sections and not their encoding, so the reading is an operand. `colour` is the colour description: 0 SDR BT.709, 1 SDR
BT.2020, 2 PQ, 3 HLG (R143); `mdcv` and `cll` the HDR metadata (R144). -/
structure ChannelPlan where
  channel : Nat
  clusters : List Nat
  slot : Option SlotPlan
  width : Nat
  height : Nat
  tfNum : Nat
  tfDen : Nat
  delay : Nat
  hold : Nat
  tl : Nat
  c420 : Bool
  colour : Nat
  mdcv : Option (List Nat)
  cll : Option (Nat × Nat)
  capsFlow : Bool
  layers : List (Nat × Nat × Nat)
  resolutions : List (Nat × Nat × Bool × Nat × Nat)
  rwf : List (Nat × Word)
  rends : List RendPlan
  outs : List OutPlan
  coefs : List (Nat × Nat × Int)
  aps : List ApPlan
  nfs : List NfPlan
  prgs : List PrgPlan
  flows : List FlowPlan
  hbmSets : List Nat
  longestAu : Nat
  metaShare : Nat
  deriving DecidableEq, Repr

/-- A queue as the DEVICE section defines it (R366). -/
structure QueuePlan where
  qid : Nat
  kind : Nat
  devmem : Bool
  steward : Bool
  bind : Nat
  port : Nat
  base : Nat
  log2 : Nat
  deriving DecidableEq, Repr

/-- A tile of the monitor mosaic (R229). -/
structure TilePlan where
  tile : Nat
  channel : Nat
  x : Nat
  y : Nat
  w : Nat
  h : Nat
  border : Nat
  scl : Nat
  out : Nat
  deriving DecidableEq, Repr

/-- What the device reads in the DEVICE section (R51, R316, R366, R395, R409, R432, R229). -/
structure DevicePlan where
  octets : List Nat
  anEn : List Bool
  fec : List Bool
  latTx : List Nat
  latRx : List Nat
  queues : List QueuePlan
  irq : List (Nat × Nat × Nat)
  classes : List (Nat × Nat × Nat)
  ringMiB : Nat
  systemMiB : Nat
  canvas : Nat
  tiles : List TilePlan
  flows : List FlowPlan
  paired : Bool
  deriving DecidableEq, Repr

/-- The request of an OTP_UPDATE section (R54). -/
structure OtpUpdate where
  enrolSlot : Nat
  digest : List Byte
  revoke : Nat
  floor : Nat
  readBackOk : Bool
  deriving DecidableEq, Repr

/-- What the device reads in the sections of a staged image. `readable` is false when a CHANNEL section is too short
for its assignment or names a unit outside its encoding (R58). -/
structure ImageReading where
  device : Option DevicePlan
  channels : List ChannelPlan
  otp : Option OtpUpdate
  readable : Bool
  deriving DecidableEq, Repr

/-- How a copy into the staging region ended (R60). -/
inductive StageResult where
  | ok (bytes : List Byte)
  | tooLong (header : List Byte)
  | error (got : List Byte)
  deriving DecidableEq, Repr

/-- One run of samples of an ST 2110-20 packet: a sample row data header with its samples (R82). -/
structure Srd where
  row : Nat
  offset : Nat
  y : List Nat
  cb : List Nat
  cr : List Nat
  deriving DecidableEq, Repr

/-- A received ST 2110-20 packet: its RTP timestamp and its sample runs. -/
structure VideoPacket where
  ts : BitVec 32
  srds : List Srd
  deriving DecidableEq, Repr

/-- An ANC packet of an ST 2110-40 payload: its DID and SDID, and its user data words without their parity bits (R286). -/
structure AncPacket where
  did : Byte
  sdid : Byte
  data : List Byte
  deriving DecidableEq, Repr

/-- A received contribution packet after the merge (R190): the sequence number, timestamp and marker bit of its RTP header, and its
payload. -/
structure ContribPacket where
  seq : BitVec 16
  ts : BitVec 32
  marker : Bool
  payload : List Byte
  deriving DecidableEq, Repr

/-- A received ST 2110-30 or -31 packet: RTP timestamp, sample times (each a list of channels), and for -31, sample time by sample
time, the channels whose channel-status block says non-audio (none listed: none; R251, R253). -/
structure AudioPacket where
  ts : BitVec 32
  samples : List (List (BitVec 24))
  nonAudio : List (BitVec 16)
  deriving DecidableEq, Repr

/-- A technology of Clause 73 that a port may advertise (R319); any other. -/
inductive Technology where
  | cr4200 | cr2100 | cr50 | cr25 | kr10 | other
  deriving DecidableEq, Repr

/-- What a lane reads where it expects an alignment marker (R321, R322): the marker, its bitwise complement, or neither. -/
inductive Marker where
  | found | complement | missing
  deriving DecidableEq, Repr

/-- What a lane has received, oldest first (R321, R322): the sync headers at the bit offset it tests, what it read at the positions of its
alignment markers, and the block types of the first 64 blocks after lock that carry header 0b10. -/
structure LaneRx where
  headers : List (BitVec 2)
  markers : List Marker
  types : List Byte
  deriving DecidableEq, Repr

/-- A received frame (R329): its bytes without the frame check sequence, and that sequence. -/
structure RxFrame where
  bytes : List Byte
  fcs : Word
  deriving DecidableEq, Repr

/-- A PTP message as the port matches it (R306): carriage 0 L2, 1 IPv4, 2 IPv6; its bytes from the PTP header. -/
structure PtpMsg where
  carriage : Nat
  bytes : List Byte
  deriving DecidableEq, Repr

/-- The result of a sector read at the memory (R357). -/
inductive SectorRead where
  | clean | corrected | uncorrectable
  deriving DecidableEq, Repr

/-- What the SPD of a DIMM shows of the properties R338 names: a registered RDIMM that is no multiplexed-rank DIMM, no 3DS device, devices
of x4, their density in Gbit, the ranks; and what identifies its part. -/
structure Dimm where
  registered : Bool
  planar : Bool
  x4 : Bool
  gbit : Nat
  ranks : Nat
  part : Nat
  deriving DecidableEq, Repr

/-- The outcome of a training step: the passing points of its sweep, in order from the lowest setting (R348). -/
structure SweepResult where
  first : Nat
  points : List Bool
  deriving DecidableEq, Repr

/-- The rendition entry of a STATE or FULL message (R446). -/
structure RenState where
  id : Nat
  qi : Nat
  lrRow : Nat
  cpb : Nat
  alphaI : Nat
  alphaP : Nat
  vbrE : Int
  unitCrc : Word
  unitSeq : Nat
  retFirst : Nat
  deriving DecidableEq, Repr

/-- The programme entry of a STATE message (R446). -/
structure PrgState where
  id : Nat
  auCnt : Nat
  encCrc : Word
  auCrc : Word
  deriving DecidableEq, Repr

/-- The serial-port entry of a STATE message (R446). -/
structure ApState where
  id : Nat
  state : Nat
  fill : Nat
  slipDrop : Nat
  slipRep : Nat
  relock : Nat
  deriving DecidableEq, Repr

/-- The frame of a received Mule message, as far as its receiver reads it (R438). -/
structure MuleHdr where
  lseq : Word
  rxSeq : Word
  epoch : Word
  alive : Byte
  deriving DecidableEq, Repr

/-- The body of a TOKEN (R441). -/
structure TokenBody where
  frame : Nat
  rwfGen : Nat
  setCrc : Word
  cmdFirst : Word
  cmdCount : Nat
  cmdCrc : Word
  gopPos : Nat
  idr : Bool
  forced : Bool
  effort : List Nat
  deriving DecidableEq, Repr

/-- The body of a STATE message (R446). -/
structure StateBody where
  frame : Nat
  inputCrc : Word
  gsig : Word
  flowAudCrc : Word
  capCrc : Word
  govS : Nat
  rens : List RenState
  prgs : List PrgState
  aps : List ApState
  deriving DecidableEq, Repr

/-- A stream entry of a FULL message (R460). -/
structure StrState where
  stream : Nat
  seqNext : BitVec 16
  cc : List Nat
  unitNext : Nat
  deriving DecidableEq, Repr

/-- The body of a FULL message (R460). -/
structure FullBody where
  frame : Nat
  govS : Nat
  cmdNext : Word
  gopPos : Nat
  rens : List RenState
  strs : List StrState
  efforts : List Nat
  prgs : List (Nat × Nat × List Byte)
  deriving DecidableEq, Repr

/-- The body of a HEALTH message (R458). -/
structure HealthBody where
  words : List Word
  deriving DecidableEq, Repr

/-- The body of a JOIN message (R459). -/
structure JoinBody where
  mask : BitVec 16
  imageId : List Byte
  chMeas : List (List Byte)
  deriving DecidableEq, Repr

/-- The pin classes of GLB.PIN_STAT[14:8], which the pin comparison of R496 watches. -/
inductive PinClass where
  | bwHold
  | thermtrip
  | avsBus
  | xspi
  | ddrRst
  | audioClocks
  | jtagTdo
  deriving DecidableEq, Repr

/-- The bit of GLB.PIN_STAT that shows a short of the class. -/
def PinClass.bit : PinClass → Nat
  | .bwHold => 8
  | .thermtrip => 9
  | .avsBus => 10
  | .xspi => 11
  | .ddrRst => 12
  | .audioClocks => 13
  | .jtagTdo => 14

/-- The widths to which the PCI Express port may train (R364). -/
inductive LinkWidth where
  | x1
  | x2
  | x4
  | x8
  | x16
  deriving DecidableEq, Repr

/-- The lanes of a link width. -/
def LinkWidth.lanes : LinkWidth → Nat
  | .x1 => 1
  | .x2 => 2
  | .x4 => 4
  | .x8 => 8
  | .x16 => 16

/-- An entry of the MSI-X table (R364): where a message goes, what it writes, the mask of its vector control. -/
structure MsixEntry where
  addr : Nat
  data : Word
  masked : Bool
  deriving DecidableEq, Repr

/-- The resets of the PCIe function (R387). -/
inductive ResetKind where
  | flr
  | hotReset
  | linkDown
  deriving DecidableEq, Repr

/-- The block's commands: one constructor per row of spec/opcode_table.json, in the table's order. -/
inductive Instr where
  | registerWrite (m : Master) (a : Nat) (v hw : Word)
  | badSizeAccess (isRead : Bool)
  | rcCounterRead (m : Master) (a : Nat) (inc : Bool)
  | lowWordRead (m : Master) (a : Nat)
  | lowWordWrite (m : Master) (a : Nat) (v : Word)
  | rwfWrite (m : Master) (a : Nat) (v : Word)
  | powerOnResetRelease (bootSel pairSide : Bool) (dimms : Vector (List Dimm) 8)
  | porstAssert (vddioLost : Bool)
  | brownout (rails : BitVec 8)
  | load (m : Master) (force : Bool) (tag : Byte)
  | replan (m : Master) (force : Bool) (tag : Byte)
  | loadCmdInvalidOp (op : BitVec 4)
  | flashBootStart (dir : Option (List Byte))
  | imageStaged (r : StageResult)
  | verifyComplete (r : ImageReading)
  | forcedLoadTakesEffect
  | quote (tag : Byte) (writeOk : Bool)
  | quoteComplete (dmaOk : Bool)
  | treeBuilt (writeOk : Bool)
  | videoPacketRx (n : Nat) (p : VideoPacket)
  | rwfLatch (n : Nat)
  | frameBoundary (n : Nat)
  | inputCutoff (n : Nat) (written : List (Nat × Nat × Nat × Nat))
  | fieldComplete (n : Nat)
  | governorDecision (n : Nat)
  | frameStart (n : Nat)
  | rateDecision (n r : Nat)
  | tileTake (e : Nat)
  | rowCoded (e : Nat)
  | rescueCheck (n : Nat)
  | tileVerified (e : Nat) (flips : List (Nat × Byte))
  | edgePassDone (e : Nat) (parity : Bool)
  | engineParityError (e : Nat) (element : BitVec 4) (kind : BitVec 3)
  | checkEnd (e : Nat)
  | cacheParityError (c line : Nat)
  | clusterUp (c : Nat) (selfTestOk : Bool)
  | pictureSized (n r : Nat)
  | unitPackaged (stream : Nat)
  | metadataWrite (n : Nat)
  | datagramLaunch (p : Nat)
  | hostEgressLaunch (p : Nat)
  | contribPacketRx (u s : Nat) (p : ContribPacket)
  | pictureDecoded (u s : Nat)
  | roiUpdate (q : Nat)
  | filmGrain (q : Nat)
  | planeLoad (q : Nat)
  | planeLoadDone (n l b : Nat) (px : Option (List (BitVec 64)))
  | splice (q : Nat)
  | caption (q : Nat)
  | ancPacketRx (n : Nat) (ts : BitVec 32) (seq : BitVec 16) (packets : List AncPacket)
  | retentionFetch (q : Nat)
  | resend (q : Nat)
  | sqLoad (q : Nat)
  | unknownOpcode (q : Nat)
  | coefDataWrite (j : Nat) (v : BitVec 10)
  | coefDataRead (m : Master) (j : Nat)
  | tileBufferDone (t : Nat)
  | displayFrame
  | hpdAssert
  | hpdLoss
  | irqHpd (linkLost : Bool)
  | dpTrainingDone (rate : Fin 4)
  | dpoCtlWrite (v : Word)
  | apLock (p : Nat)
  | apUnlock (p : Nat)
  | audioBlock (rate96 : Bool)
  | ratePeriodEnd (p : Nat)
  | audioPacketRx (f : Nat) (p : AudioPacket)
  | audioAuEncoded (g : Nat)
  | adjSet (m : Master) (tag : Byte)
  | adjStep (m : Master) (tag : Byte)
  | adjRate (m : Master) (tag : Byte)
  | adjOpZero (m : Master) (tag : Byte)
  | rebase
  | snapRead (m : Master)
  | cmpFire (i : Nat)
  | ptpRx (p : Nat) (msg : PtpMsg)
  | txtsRead (m : Master) (p : Nat)
  | refStop
  | refGlitch
  | refWindowEnd (count : Nat) (glitch : Bool) (highPct : Nat)
  | portAttemptStart (p : Nat)
  | anComplete (p : Nat) (common : Technology)
  | anTimeout (p : Nat)
  | trainComplete (p : Nat) (inverted : List Nat)
  | trainTimeout (p : Nat)
  | alignComplete (p : Nat) (lanes : List LaneRx) (pcs : List (BitVec 2))
  | alignTimeout (p : Nat)
  | retryWaitEnd (p : Nat)
  | losAssert (l : Nat)
  | losClear (l : Nat)
  | lolAssert (l : Nat)
  | lolClear (l : Nat)
  | blockLockLoss (p : Nat) (pcs : List (BitVec 2))
  | markerLockLoss (p : Nat) (markers : List Marker)
  | retrain (p : Nat)
  | adminDown (p : Nat) (v : Bool)
  | faultOrderedSetRx (p : Nat)
  | frameRx (p : Nat) (f : RxFrame)
  | fecCorrected (p : Nat)
  | fecUncorrectable (p : Nat)
  | mergeWaitExpiry (f : Nat)
  | pathInactive (f : Nat) (pathB : Bool)
  | memoryRequest (i : Nat) (addr : Nat) (wr : Option (List Byte))
  | readComplete (i : Nat) (r again other : SectorRead)
  | refreshDue (i t : Nat)
  | refreshRatePoll (i t : Nat) (divisor : Nat)
  | retrainPassStart (i : Nat)
  | trainingWindow (i : Nat)
  | trainingStepDone (i t : Nat) (sweeps : List (List Bool))
  | fullTrainingDone (i t : Nat)
  | freqCmd (i : Nat) (rate : BitVec 2) (tag : Byte)
  | parityAlert (i d rank : Nat)
  | alertRelease (i d : Nat)
  | patrolRead (i : Nat) (r again other : SectorRead)
  | doorbell (q : Nat) (isRead sizeOk : Bool) (v : Word)
  | descriptorFetch (q : Nat) (desc : Option (List Byte)) (payload : Option (List Byte))
  | queueEnable (q : Nat) (v : Word)
  | queueDisable (q : Nat) (v : Word)
  | completionWrite (q : Nat)
  | moderationHoldoff (g : Nat)
  | l1EntryRequest (aspm : Bool) (idleUs : Nat)
  | d3hotEntry (d3hot : Bool) (bme : Bool) (pmeEn : Bool)
  | d0Return (msix funcMask : Bool) (table : List (Nat × MsixEntry))
  | pmeRepeat
  | functionReset (kind : ResetKind)
  | perstRelease
  | mbxPost (c : Nat)
  | mbxDone (c : Nat)
  | mbxReply (c : Nat)
  | irqEvaluation
  | claim (m : Master) (t : Nat)
  | eoi (t : Nat) (s : BitVec 9)
  | swiSet (w : Nat) (v : Word)
  | swiClr (w : Nat) (v : Word)
  | coreWait (c : Nat)
  | faultEvent (cls inst : Nat) (stamp : Raw) (data : Word)
  | ledgerRelease
  | ckStart (i : Nat) (v : Word)
  | ckFinish (i : Nat) (v : Word)
  | ckAliveReset (i : Nat) (v : Word)
  | dataB (i : Nat) (v : Word)
  | dataH (i : Nat) (v : Word)
  | dataW (i : Nat) (v : Word)
  | claimCmd (v : Word)
  | giveUpCmd (v : Word)
  | joinCmd (v : Word)
  | resetLink (v : Word)
  | takeover
  | holdKeeperExpiry
  | muleLinkUp (lanes : List LaneRx) (h : Option MuleHdr)
  | muleLinkTimeout
  | muleMessageCorrupt (type : Byte)
  | idle (h : MuleHdr)
  | idleSend
  | nak (h : MuleHdr) (expected : Word)
  | test (h : MuleHdr) (pattern : List Byte)
  | token (h : MuleHdr) (n : Nat) (b : TokenBody)
  | tokenTimeout (n : Nat)
  | rescue (h : MuleHdr) (n : Nat) (frame : Nat) (rows : List Nat)
  | rescueNoticeTimeout (n : Nat)
  | state (h : MuleHdr) (n : Nat) (b : StateBody)
  | stateTimeout (n : Nat)
  | full (h : MuleHdr) (n : Nat) (b : FullBody)
  | replanMsg (h : MuleHdr) (n : Nat) (meas : List Byte) (boundary : Nat)
  | ack (h : MuleHdr) (entries : List (Nat × Nat × Nat))
  | ackSend
  | audio (h : MuleHdr) (ap : Nat) (mask : BitVec 16) (b : Nat) (samples : List (List (BitVec 24)))
  | audioBlockTimeout (p b : Nat)
  | health (h : MuleHdr) (b : HealthBody)
  | healthSend
  | healthMiss
  | join (h : MuleHdr) (b : JoinBody)
  | autoJoin
  | giveUp (h : MuleHdr) (reason : Word) (chFault : BitVec 16)
  | taken (h : MuleHdr) (oldEpoch : Word)
  | selfTestStart (isScout : Bool) (u : Nat)
  | selfTestDone (isScout : Bool) (u : Nat) (crcs : Word × Word)
  | eyeMeasure (margins : List (Nat × Nat × Nat))
  | trimInterpolation
  | calibrationResult (trim : Nat) (a b c d : BitVec 10) (storeOk : Bool)
  | calCmd (v : Word)
  | calPeriodic
  | sensorConversion (ts : Vector Int 20) (vs : Vector Nat 8)
  | thermalShutdown
  | avsDecision (spd : Vector (BitVec 16) 16)
  | avsReadback (mv : Option Nat)
  | pinShort (cls : PinClass) (ox : Nat)
  | holdStuckHigh
  | diodeSense (reversed isOpen : Bool)
  | mbxInTaken (c : Nat)
  | serialAudioFrameRx (p : Nat) (valid : Bool) (zPreamble : Bool) (slots : List (BitVec 32)) (nonAudio : Bool)
  | composedPictureComplete (n : Nat)
  | scalerOutputComplete (j o : Nat)
  | faultRxClear (p : Nat)
  | shortCleared (cls : PinClass)
  | fieldDumpDone (n : Nat) (dmaErr : Bool)
  | retentionFetchDone (q : Nat) (copied : Nat) (dmaErr : Bool)
  | pcieLinkUp (speed : Fin 5) (width : LinkWidth)
  | muleBringupRestart
  deriving DecidableEq, Repr

end Sys2Proof
end

