-- ==== Sys2Proof/Decode.lean ====
section
/-!
DEFINITION. The words that spell commands. spec/opcode_table.json gives none of its rows any bits, so no word spells a
command.
-/
namespace Sys2Proof

/-- The command a word of `nbits` bits spells by the table's bits: none, because no row of the table has bits. -/
def decodeTableWord (_nbits _w : Nat) : Option Instr := none

end Sys2Proof
end

