-- ==== Sys2Proof/Codes.lean ====
section
/-!
DEFINITION. The coded form of a picture as far as the manual describes it (spec/05_coding_engines.md R87, R114, R133 to R151): the tools,
splits and choices of the engines, the rows they code, and the parts of an access unit with the values the manual gives them.
-/
namespace Sys2Proof

/-- The coding tools that R135, R136 and R137 name. -/
inductive Tool where
  | amp | transformSkip4 | signHiding | temporalMv | weightedPred | deblocking | sao | acrossTiles
  | scalingLists | pcm | transquantBypass | constrainedIntra | longTermRefs | crossComponent | implicitRdpcm | explicitRdpcm
  | extendedPrecision | persistentRice | cabacAlign | interlaced
  | directionalIntra | smooth | paeth | filterIntra | chromaFromLuma | palette | intraBlockCopy | singleRef | compound
  | overlapped | localWarp | globalMotion | interIntra | wedge | differenceWeighted | switchableFilter | dualFilter | fullTransforms
  | cdef | loopRestoration | deltaQ | segmentation | deltaLf | superres | frameSizeChange | referenceScaling | errorResilient
  | switchFrames | largeScaleTile | filmGrain
  | dualTree | intra67 | multiReferenceLine | matrixIntra | crossComponentLinear | intraSubPartitions | multipleTransforms | lfnst
  | jointChroma | dependentQuant | subblockTransform | historyMerge | mergeDifference | affine | affineOpticalFlow | subblockTemporal
  | combinedInterIntra | geometric | cuWeights | adaptiveResolution | decoderRefinement | bidirOpticalFlow | adaptiveLoopFilter
  | crossComponentAlf | lumaMapping | adaptiveColour | bdpcm | transformSkipResidual | referenceResampling | subpictures | gradualRefresh
  | mixedNalTypes
  deriving DecidableEq, Repr

/-- The ways a block splits (R138): in four, in two, in three, and AV1's six further partition types. -/
inductive Split where
  | quad | horz | vert | ternHorz | ternVert | horzA | horzB | vertA | vertB | horz4 | vert4
  deriving DecidableEq, Repr

/-- HEVC's prediction partitions (R138). -/
inductive PuShape where
  | square | horz | vert | horzUp | horzDown | vertLeft | vertRight | quarters
  deriving DecidableEq, Repr

/-- A block's luma rectangle in its rendition. -/
structure BlockRect where
  x : Nat
  y : Nat
  w : Nat
  h : Nat
  deriving DecidableEq, Repr, Inhabited

/-! ### What an engine chooses -/

/-- A motion vector as the search ends with it: its list and reference, the candidate it starts from, the integer position, the moves of
the refinement steps, or the candidate as it is. -/
structure MotionChoice where
  list : Nat
  ref : Nat
  cand : Nat
  asIs : Bool
  px : Int
  py : Int
  moves : List (Int × Int)
  deriving DecidableEq, Repr, Inhabited

/-- What is chosen for a block: its tree where luma and chroma have their own, HEVC's partition and transform depth, the modes tried, each
intra or not and whether it is the zero vector's, the intra mode where intra wins, the motion where inter wins, the tools, the coded
levels. -/
structure BlockChoice where
  shape : Nat
  tuDepth : Nat
  tried : List (Bool × Bool)
  intra : Option Nat
  motion : List MotionChoice
  tools : List Tool
  levels : List Int
  deriving DecidableEq, Repr, Inhabited

/-- The in-loop filter choices of a coding-tree unit: SAO 0 off, 1 band, 2 to 5 edge class 0 to 3, 6 merge; ALF 0 off, 1 fixed filter set,
2 and up a signalled set; cross-component ALF; the CDEF strength's index; loop restoration 0 none, 1 Wiener, 2 self-guided. -/
structure FilterChoice where
  sao : Nat
  alf : Nat
  ccAlf : Bool
  cdef : Nat
  restore : Nat
  deriving DecidableEq, Repr, Inhabited

/-- What is chosen for a coding-tree unit: its splits in coding order (none: the block stays whole), its blocks, its filters. -/
structure UnitChoice where
  splits : List (Option Split)
  blocks : List BlockChoice
  filter : FilterChoice
  deriving DecidableEq, Repr, Inhabited

/-- What is chosen for a coding-tree row of a tile: its units, the bits its entropy coding takes, the coder's state after it, the tile's
bytes where it is the last row; the lines of the reference cache it reads, in order. -/
structure RowChoice where
  units : List UnitChoice
  bits : Nat
  entropy : List Byte
  bytes : List Byte
  lines : List Nat
  deriving DecidableEq, Repr, Inhabited

/-! ### What is coded -/

/-- A motion vector in sixteenth samples, with its list and reference. -/
structure MotionCode where
  list : Nat
  ref : Nat
  v : Int × Int
  deriving DecidableEq, Repr, Inhabited

/-- A coded block; `tree` is 0 for luma and chroma together, 1 luma, 2 chroma; `q` is the codec's quantiser, none in a last-resort block;
`syn` holds the syntax elements that the manual gives a value. -/
structure BlockCode where
  rect : BlockRect
  tree : Nat
  shape : PuShape
  tuDepth : Nat
  tried : List (Bool × Bool)
  intra : Option Nat
  motion : List MotionCode
  tools : List Tool
  levels : List Int
  q : Option Int
  syn : List (String × Int)
  deriving DecidableEq, Repr

/-- A coded coding-tree unit. -/
structure UnitCode where
  blocks : List BlockCode
  filter : FilterChoice
  syn : List (String × Int)
  deriving DecidableEq, Repr

/-- A coded row of a tile. -/
structure RowCode where
  units : List UnitCode
  bits : Nat
  entropy : List Byte
  deriving DecidableEq, Repr

/-- The predictors that the codecs define (R140): of HEVC's merge list the spatial, temporal, combined bi-predictive and zero candidates;
both AMVP predictors; AV1's stack of reference motion vectors; of VVC the regular merge list, its history, the inherited and the
constructed affine candidates. -/
inductive PredKind where
  | mergeSpatial | mergeTemporal | mergeCombined | mergeZero | amvp | mvStack | mergeRegular | mergeHistory | affineInherited | affineConstructed
  deriving DecidableEq, Repr

/-- All that a codec's predictors are formed from: the rows of the tile coded so far, the blocks coded so far in the row, the coded tiles of
the nearest reference, the block. -/
structure MotionCtx where
  codec : Nat
  above : List RowCode
  before : List BlockCode
  colocated : List (List RowCode)
  rect : BlockRect
  deriving DecidableEq, Repr

/-- A candidate of a merge list: its direction, 0 PRED_L0, 1 PRED_L1, 2 PRED_BI; the reference and vector of its first list. -/
structure MergeCand where
  dir : Nat
  ref : Nat
  v : Int × Int
  deriving DecidableEq, Repr

/-- A motion candidate of a reference: analysis candidates A and B of a 16 × 16 block, in quarter samples (R113, R114). -/
structure RefCands where
  dist : Nat
  cands : List (Int × Int)
  deriving DecidableEq, Repr

/-- All that the coding of a row reads (R28, R127, R154): the codec, whether the picture is an IDR, the effort level, whether the row is
coded in last-resort mode, the tile's samples at the depth of the rendition and no others, its place, the references, the coded tiles of the
nearest one, the candidates of the blocks of the row, the quantisers, the luma weight on a fade, the rows of the tile coded so far and the entropy coder's state. -/
structure RowIn where
  codec : Nat
  idr : Bool
  effort : Nat
  lastResort : Bool
  source : Picture
  x0 : Nat
  row : Nat
  refs : List Picture
  colocated : List (List RowCode)
  cands : List RefCands
  quants : List Int
  weight : Option Int
  above : List RowCode
  entropy : List Byte
  deriving DecidableEq, Repr

/-! ### What an access unit of a contribution stream says (R188 to R197) -/

/-- What the active SPS of an HEVC picture, or the header of a JPEG XS codestream, says (R188, R189): `sps` the id of the SPS; `constraints`
the nine flags from general_max_12bit_constraint_flag to general_lower_bit_rate_constraint_flag. JPEG XS profiles: 1 Light422.10,
2 Main422.10; `fpsNum / fpsDen` are frames a second; `reorder` is sps_max_num_reorder_pics; `sliceH` the lines of a JPEG XS slice. -/
structure StreamIn where
  sps : Nat
  profile : Nat
  constraints : List Bool
  level : Nat
  chroma : Nat
  depthY : Nat
  depthC : Nat
  w : Nat
  h : Nat
  fpsNum : Nat
  fpsDen : Nat
  bitrate : Nat
  fieldSeq : Bool
  ctbLog2 : Nat
  minCbLog2 : Nat
  reorder : Nat
  sliceH : Nat
  deriving DecidableEq, Repr, Inhabited

/-- A CTU that a slice segment decodes, or a precinct of a JPEG XS slice: its number, the bins or the packet bytes it takes, whether its
syntax elements are in range, the writes it makes and the reference reads, each as (buffer, address, length) (R193 to R195). -/
structure StepIn where
  num : Nat
  cost : Nat
  inRange : Bool
  writes : List (Nat × Nat × Nat)
  reads : List (Nat × Nat × Nat)
  deriving DecidableEq, Repr, Inhabited

/-- A slice segment (HEVC) or slice (JPEG XS) of an access unit: the unit of the ring that carries it, or the ring elements from `off` on
for JPEG XS; its first CTU, or its number; the parameter sets it refers to as (type, id); what it decodes, in order; whether it ends where
its bytes end (R195). -/
structure SliceIn where
  unit : Nat
  off : Nat
  len : Nat
  addr : Nat
  ps : List (Nat × Nat)
  steps : List StepIn
  fits : Bool
  deriving DecidableEq, Repr, Inhabited

/-- All that a decoder reads of an access unit: the codec, the units of its ring with whether a gap marker breaks each, or the elements of a
JPEG XS ring; the parameter sets validly received as (type, id, bytes); what the parser holds from the units before; the format of the slot. -/
structure UnitIn where
  xs : Bool
  units : List (List Byte × Bool)
  elements : List (Option Byte)
  sets : List (Nat × Nat × List Byte)
  state : List Byte
  w : Nat
  h : Nat
  deriving DecidableEq, Repr

/-- What the bits of an access unit say to its decoder: the stream's parameters, the parameter sets it carries as (unit, type, id), its
slices, its PicOrderCntVal, the counts its reference picture set names for itself and keeps for later pictures, whether an end of sequence
came before it, what the parser holds after it. -/
structure DecodedPicture where
  stream : StreamIn
  params : List (Nat × Nat × Nat)
  slices : List SliceIn
  poc : Int
  refs : List Int
  keeps : List Int
  afterEos : Bool
  state : List Byte
  deriving DecidableEq, Repr, Inhabited

/-- All that the samples of a picture depend on: what its unit says, the regions concealed, across and inside which no in-loop filter runs
(R196), its references by output order, and the reads that fall outside a window and take the substitute (R194). -/
structure SampleIn where
  unit : UnitIn
  regions : List (Nat × Nat × Nat × Nat)
  refs : List (Int × Picture)
  outside : List (Nat × Nat × Nat)
  substitute : Picture
  deriving DecidableEq, Repr

/-! ### The parts of an access unit (R145) -/

/-- A part of an access unit with the values that the manual gives its syntax elements, the payload where the manual gives it whole, the
picture's temporal layer and whether it is a reference. -/
structure PartSpec where
  part : Part
  tid : Nat
  values : List (String × Int)
  payload : List Byte
  deriving DecidableEq, Repr

end Sys2Proof
end

