-- ==== Sys2Proof/Config.lean ====
section
/-!
DEFINITION. The free values: what the manual leaves open and the model does not fix. Each is an opaque constant applied
to the number of the draw (`State.free`, which the command advances) and a place within it, so nothing can be proved of its
value.
-/
namespace Sys2Proof

/-- The device seed of its fuses, 32 bytes; no master reads it (R53; log entry 61). -/
opaque Config.deviceSeed : List Byte
/-- The LMS identifier of its fuses, 16 bytes (R53; log entry 61). -/
opaque Config.deviceIdent : List Byte
/-- The digest of Uabanik's firmware key, burnt in slot 0 at manufacture (R53; log entry 61). -/
opaque Config.firmwareDigest : List Byte
/-- Uabanik's endorsement of the device key, written into the ferroelectric store at manufacture (R69, R70; log entry 61). -/
opaque Config.endorsement : List Byte
/-- 32 bytes that the IMG hash unit derives from the seed and the identifier for a tree (2^20 is the top one), a leaf of it and a place:
0 to 33 the private values of the leaf, 34 its randomiser, 35 the tree's own identifier. The manual names the inputs and not the function
(R71; log entry 61). -/
opaque Config.derive : List Byte → List Byte → Nat → Nat → Nat → List Byte
/-- A free byte (log entry 6). -/
opaque Config.freeByte : Nat → Nat → Byte
/-- A free word (log entry 6). -/
opaque Config.freeWord : Nat → Nat → Word
/-- A free number (log entry 6). -/
opaque Config.freeNat : Nat → Nat → Nat
/-- Whether an opcode is allowed in a STEWARD-bound queue: the manual names the status and not the opcodes (R377; log
entry 9). -/
opaque Config.stewardAllows : Nat → Bool
/-- The bytes of a picture's samples in the order its CRC is taken: the manual does not state the order (R97; log entry 6). -/
opaque Config.sampleBytes : Picture → List Byte
/-- The bytes of a run of audio samples in the order their CRC is taken: the manual does not state the layout (R446; log
entry 6). -/
opaque Config.audioBytes : List (List (BitVec 24)) → List Byte

/-- What an engine makes of a row: a function of what the row reads and of nothing else (R28, R127). The manual fixes what it may choose
and not how (log entry 65). -/
opaque Config.codeRow : RowIn → RowChoice
/-- The predictors of a kind that a codec defines for a list and a reference, in sixteenth samples: the standards' own derivation, which the
manual names and does not restate (R140; log entry 65). -/
opaque Config.predictors : PredKind → MotionCtx → Nat → Nat → List (Int × Int)
/-- The merge list of a block of HEVC or VVC, in index order: the standards' own (R149, R151; log entry 65). -/
opaque Config.mergeList : MotionCtx → List MergeCand
/-- The distortion that an edge class of SAO leaves in a coding-tree unit of a row (R138; log entry 65). -/
opaque Config.saoDistortion : RowIn → RowChoice → Nat → Nat → Nat
/-- The longest coding in bits that a codec's syntax allows a part of an access unit under the values that an image fixes for a rendition:
the one fixed computation that Wilino and the Kylas share, which the manual does not restate (R167; log entry 28). -/
opaque Config.longestSyntax : ChannelPlan → RendPlan → Part → Nat
/-- The reconstruction of a picture after its in-loop filters, from its coded tiles in column order and its references nearest first: the
codecs' own process, which the manual does not restate (R154; log entry 65). -/
opaque Config.reconstruct : Nat → List (List RowCode) → List Picture → Picture
/-- What the bits of a contribution stream's access unit say, by its codec's standard, which the manual names and does not restate: a function
of the bytes received, the gap markers and the units before (R202; log entry 15). -/
opaque Config.parseUnit : UnitIn → DecodedPicture
/-- The samples a contribution stream's picture decodes to, by its codec's standard (R196, R202; log entry 15). -/
opaque Config.decodeSamples : SampleIn → Picture
/-- The lines that the 24 MiB of a reference cache hold; the manual gives no line size (R4; log entry 6). -/
opaque Config.cacheLines : Nat
/-- The frame-wide filter values that an AV1 picture searches: the loop filter levels and the CDEF strengths (R138; log entry 65). -/
opaque Config.frameFilters : List (List RowCode) → List Nat
/-- The bytes that code a part of an access unit with its values, for a codec: its own syntax, which the manual does not restate (R145; log
entry 66). -/
opaque Config.spell : Nat → PartSpec → List Byte

/-- A port's own address of 4 or 16 bytes, where a re-send goes to a family of which its stream has none (R289; log entry 64). -/
opaque Config.portAddress : Nat → Bool → List Byte
/-- The header values of a re-send of a stream that is only retained, by port: the image fixes none for it (R269, R289; log entry 64). -/
opaque Config.retainedNet : Nat → NetPlan
/-- random_access_indicator of a picture's first TS packet, by whether it is an IDR (R274; log entry 64). -/
opaque Config.randomAccess : Bool → Bool
/-- What an ISO box holds beside what the manual and its standard fix: minor version and compatible brands of ftyp (0) and styp (1), the
names of the video and the audio handler (2, 3), the fields of the sample entry before its configuration (4, 5) (R275; log entry 64). -/
opaque Config.boxRest : Nat → List Byte
/-- timescale, presentation time, duration and id of an emsg box (0) and its value (1), by its section and the decode time of its chunk
(R275; log entry 64). -/
opaque Config.emsgRest : Nat → List Byte → Nat → List Byte
/-- What an encoder makes of an access unit, its bytes and its state after it: a function of the programme's definition, the state before and
the unit's samples and of nothing else (R256; log entry 67). -/
opaque Config.encodeAudio : PrgPlan → List Byte → List (List (BitVec 24)) → List Byte × List Byte

/-- The signatures of the reserved test vectors that the FIRMWARE section carries (R456): of a scout or an engine, by vector, of its two
results. The manual gives neither their values nor their layout. -/
opaque Config.testSignature : Bool → Nat → Nat → BitVec 32

/-- The refreshes the memory standard lets a controller postpone, by memory kind and mode (R347; log entry 6). -/
opaque Config.refreshLimit : Nat → Nat → Nat
/-- The ticks between the refreshes that the memory standard requires, by memory kind and mode (R346; log entry 6). -/
opaque Config.refreshInterval : Nat → Nat → Nat
/-- Whether tRRD_S, tRRD_L and tFAW of the memory standard let a target activate a bank at a raw count (R344; log entry 6). -/
opaque Config.activateReady : BitVec 48 → Nat → Nat → Bool
/-- The agreement that training steps without a trim group require (R349, R471; log entry 6). -/
opaque Config.stepTolerance : Nat → Nat

end Sys2Proof
end

