-- ==== Sys2Proof/Machine/State.lean ====
section
/-!
DEFINITION. The state of the Kylas as plain data: the registers of BAR0, the values in force, the latches and stages of
the masters, the stores, and the working state the manual gives the units behind the registers.
-/
namespace Sys2Proof.Machine

/-- A sparse map from a Nat key to a word: keys strictly rising. -/
abbrev WordMap := List (Nat × Word)

/-- A sample time of a source: one sample a channel. -/
abbrev AudioFrame := List (BitVec 24)

/-- A block of a source: its number, and its 48 sample times with the channels muted in each (R243, R252). -/
abbrev AudioBlock := Nat × List (AudioFrame × BitVec 16)

/-- Whether the device is held in reset, runs, or is shut down by the thermal trip (R477, R485, R491). -/
inductive Power where
  | held | running | tripped
  deriving DecidableEq, Repr

/-- The levels at the pins that the block reads or drives and that no register holds (R433, R488, R492). -/
structure Pins where
  bootSel : Bool
  pairSide : Bool
  perstReleased : Bool
  ddrRst : Bool
  thermTrip : Bool
  holdLowSince : Option Raw
  holdShortEnd : Option Raw
  lastDiode : Option Raw
  deriving DecidableEq, Repr

/-- The one-time-programmable fuses (R53): the device's seed of 32 bytes and its LMS identifier of 16, which no master reads; the
key digests by slot, the enrolled and revoked fuses, the count of floor fuses burnt. -/
structure Fuses where
  seed : List Byte
  ident : List Byte
  digests : List (List Byte)
  enrolled : BitVec 4
  revoked : BitVec 4
  floor : Nat
  deriving DecidableEq, Repr

/-- The cause latch powered by VDDIO (R505). -/
structure CauseLatch where
  power : Bool
  porst : Bool
  brownout : Bool
  rails : BitVec 8
  deriving DecidableEq, Repr

/-- The source of a load command (R66). -/
inductive LoadSource where
  | flash0 | flash1 | host | queue (q cid : Nat)
  deriving DecidableEq, Repr

/-- The command the IMG block has accepted and not finished (R57). -/
structure LoadCmd where
  replan : Bool
  force : Bool
  tag : Byte
  src : LoadSource
  addr : Nat
  len : Nat
  staged : Option StageResult
  deriving DecidableEq, Repr

/-- A verified image waiting or in force: its header's identity with what was read in its sections. -/
structure ImageInfo where
  imageId : List Byte
  build : Word
  svn : Nat
  meas : List Byte
  source : LoadSource
  degrade : Bool
  restart : Bool
  reading : ImageReading
  occupancy : List (Nat × Nat)
  deriving DecidableEq, Repr

/-- A leaf-state record of the ferroelectric store (R70). -/
structure LeafRec where
  valid : Bool
  gen : BitVec 32
  next : Nat
  deriving DecidableEq, Repr

/-- A quote in progress (R71): its message, its index, and whether it waits for a tree. -/
structure QuoteJob where
  tag : Byte
  buf : Nat
  msg : List Byte
  index : Nat
  waitTree : Bool
  deriving DecidableEq, Repr

/-- The working state of the IMG block behind its registers. -/
structure ImgState where
  cmd : Option LoadCmd
  inForce : Option ImageInfo
  forced : Option ImageInfo
  logEntries : List (List Byte)
  chMeas : List (List Byte)
  quote : Option QuoteJob
  deriving DecidableEq, Repr

/-- The payload of a host command that binds to a frame (R121, R147, R284, R286). -/
inductive CmdKind where
  | roi (rects : List (Nat × Nat × Nat × Nat × Nat))
  | grain (clear : Bool) (seed : Nat) (params : List Byte)
  | splice (section_ : List Byte) (immediate : Bool)
  | caption (triplets : List (BitVec 24))
  deriving DecidableEq, Repr

/-- A host command accepted by a channel pipe and not yet bound; `late` where it came at or after a latch instant that RWF_LATCH has
still to carry out (R13, R121). -/
structure PendCmd where
  late : Bool
  q : Nat
  slot : Nat
  target : Int
  kind : CmdKind
  payload : List Byte
  deriving DecidableEq, Repr

/-- A block record of the analysis field (R110). A vector is (x, y); none is the invalid vector. -/
structure BlockRec where
  mv1 : List (Option (Int × Int))
  mv2 : List (Option (Int × Int))
  mv4 : List (Option (Int × Int))
  complex : Nat
  roi : Nat
  static : Bool
  intra : Bool
  edge : Bool
  mean : Nat
  deriving DecidableEq, Repr

/-- An analysis field (R109). -/
structure Field where
  bw : Nat
  bh : Nat
  bands : Nat
  frame : Nat
  sceneCut : Bool
  fade : Bool
  fadeDown : Bool
  slots : List Bool
  mean : Nat
  gain : Nat
  nIntra : Nat
  sumCx : Nat
  nStatic : Nat
  roiSeq : Word
  blocks : List BlockRec
  deriving DecidableEq, Repr

/-- Where a tile stands between its place in the work list and verification (R127, R155, R175). -/
inductive TilePhase where
  | waiting | coding | parked | tailWaiting | tail | coded | verified
  deriving DecidableEq, Repr

/-- A column tile of a picture: its caps (R173), the rows coded, the checkpoint before each row: the bits used and the state of the entropy
coder; the quantisers of the row in hand (R174), the stop row e_t, the rows started in any run (R92), the entropy coder's state, the rows as
coded, the tile's bytes once its last row is coded (R155). -/
structure TileSt where
  col : Nat
  phase : TilePhase
  avoid : Option Nat
  cap : Nat
  soft : Nat
  row : Nat
  running : Bool
  started : Nat
  ckpts : List (Nat × List Byte)
  used : Nat
  lrUsed : Nat
  qi : Nat
  quants : List Nat
  stop : Option Nat
  reissued : Bool
  entropy : List Byte
  codes : List RowCode
  bytes : List Byte
  deriving DecidableEq, Repr

/-- A picture of one rendition from the frame start to its launch (R170 to R177): B, A, T and QI of the decision, its tiles,
the edges passed, the rescue row and the budget start row, its bits, its access unit, its unit, the model after it (B_{k+1}, alpha, E). -/
structure RendPic where
  id : Nat
  effort : Nat
  decided : Bool
  b : Nat
  a : Nat
  target : Nat
  qi : Nat
  tiles : List TileSt
  edges : List Nat
  rescueFixed : Bool
  rescue : Option Nat
  stopFixed : Bool
  stop : Option Nat
  sized : Bool
  bits : Nat
  filler : Nat
  parts : List (Part × List Byte)
  packaged : Bool
  launched : Bool
  late : Bool
  unitCrc : Word
  unitSeq : Nat
  cpbNext : Nat
  alphaI : Nat
  alphaP : Nat
  vbrE : Int
  deriving DecidableEq, Repr

/-- The grid of a channel (R77): its first capture time, the place that frame has among the frames the channel has ever
accepted, and its period. -/
structure Grid where
  g0 : Int
  j0 : Nat
  num : Nat
  den : Nat
  deriving DecidableEq, Repr

/-- What the latch instant of the next boundary has taken (R79, R376): the pending set, the commands bound. -/
structure Bound where
  set : WordMap
  counts : Bool
  cmdFirst : Word
  cmdCount : Nat
  cmdBytes : List Byte
  sections : List (List Byte)
  triplets : List (BitVec 24)
  deriving DecidableEq, Repr

/-- A frame of a channel from its boundary to its metadata record (R26, R85): `j` is its place on the grid, `k` its number
in its slice; `coefs` are the coefficients of its scalers at its boundary (R225); `refs` are the frames its pictures refer to, nearest
first, `avSlots` the AV1 slots of the window before it, `refresh` its refresh flags (R142). -/
structure FrameSt where
  j : Nat
  k : Nat
  grid : Grid
  plan : ChannelPlan
  sliceSeq : Nat
  set : WordMap
  rwfGen : Word
  closed : Bool
  substituted : Bool
  partialIn : Bool
  input : Option Picture
  inputCrc : Word
  composed : Option Picture
  gsig : Word
  scaled : List (Nat × Picture)
  tilesDone : List Nat
  field : Option Field
  preparedLate : Bool
  ready : List (Nat × Bool)
  cmdFirst : Word
  cmdCount : Nat
  cmdCrc : Word
  roiSeq : Word
  rects : List (Nat × Nat × Nat × Nat × Nat)
  sections : List (List Byte)
  triplets : List (BitVec 24)
  grain : Option (Nat × List Byte)
  decided : Bool
  splice : Bool
  started : Bool
  idr : Bool
  joinIdr : Bool
  layer : Nat
  nonRef : Bool
  refs : List Nat
  avSlots : List (Nat × Nat)
  refresh : Nat
  sUse : Nat
  govS : Nat
  gopPos : Nat
  efforts : List (Nat × Nat)
  rends : List RendPic
  busy : Nat
  rescued : Bool
  rescueDone : Bool
  rescueHeld : Bool
  measuredIn : Bool
  ledgerSeq : Option Word
  flowAud : List (Nat × AudioBlock)
  portAud : List (Nat × AudioBlock)
  coefs : List (Nat × Int)
  prgSeen : List (Nat × Word × Word × Word)
  stateSeen : Bool
  deriving DecidableEq, Repr

/-- The rate model a rendition carries from picture to picture of a slice (R168, R171, R172, R180); `from_` is the slice whose B it
carries on and has not taken yet, `b0` its B_0, `sinceBp` the frames since the last picture that carried a buffering period (R177). -/
structure RcModel where
  id : Nat
  codec : Nat
  dest : Nat
  slice : Nat
  from_ : Option Nat
  b : Nat
  b0 : Nat
  sinceBp : Option Nat
  e : Int
  alphaI : Nat
  alphaP : Nat
  deriving DecidableEq, Repr

/-- A reconstructed picture of a rendition whose tiles are verified and whose edge passes are run: a reference (R142, R155). -/
structure RefFrame where
  rid : Nat
  slice : Nat
  k : Nat
  pic : Picture
  codes : List (List RowCode)
  deriving DecidableEq, Repr

/-- The latest fully coded frame the governor has measured (R89): its slice, number, busy(j), work(j), any rescue. -/
structure Measured where
  slice : Nat
  k : Nat
  busy : Nat
  work : Nat
  rescued : Bool
  deriving DecidableEq, Repr

/-- What the audio chunks of a frame's time need of a frame that has gone (R275, R284): its capture time and the next one's, its presentation
offset, whether it is an IDR and a splice frame, its sections. -/
structure FrameMark where
  g : Int
  next : Int
  offset : Int
  decided : Bool
  idr : Bool
  splice : Bool
  sections : List (List Byte)
  deriving DecidableEq, Repr

/-- A source frame a channel has seen and no frame has taken (R78): its capture time and the runs received, or a decoded picture, with
whether its decoding completed after the cut-off of its frame (R192). -/
structure SourceFrame where
  capture : Int
  srds : List Srd
  full : Option Picture
  late : Bool
  deriving DecidableEq, Repr

/-- An item of a channel's work list (R127): the frame, rendition and column; its class, 0 a re-issued tile, 1 a tail pass
or verification, 2 a tile not started; its place by priority. -/
structure WorkItem where
  j : Nat
  rid : Nat
  col : Nat
  cls : Nat
  ord : Nat
  deriving DecidableEq, Repr

/-- The pending re-plan of a channel (R62, R63); `late` where it passed verification at or after a latch instant that RWF_LATCH has
still to carry out. -/
structure PendReplan where
  late : Bool
  info : ImageInfo
  plan : ChannelPlan
  latched : Bool
  boundary : Option Nat
  deriving DecidableEq, Repr

/-- A channel pipe with everything it keeps behind its registers: `spare` is a slice in force that defines no renditions, whose
units it still holds (R62); `late` are the registers written at or after a latch instant that RWF_LATCH has still to carry out, each
with the value that latch takes, none where it takes none (R13, R84); `heldFrom` is the first grid point not accepted while the
channel is stopped or paused (R59, R65, R81); `releasing` are the clusters of an earlier slice that still code its frames (R64); `fields` are the fields kept, with the deadline of
each (R111). -/
structure Chan where
  plan : Option ChannelPlan
  spare : Option ChannelPlan
  sliceSeq : Nat
  dirty : List Nat
  late : List (Nat × Option Word)
  heldFrom : Nat
  pend : Option PendReplan
  gap : Option Int
  stopped : Bool
  dead : Bool
  releasing : List Nat
  grid : Option Grid
  j : Nat
  k : Nat
  begun : List Int
  sources : List SourceFrame
  bound : Option Bound
  lastInput : Option Picture
  lumas : List (Nat × Plane × Nat)
  frames : List FrameSt
  past : List FrameMark
  s : Nat
  measured : Option Measured
  prevE : List (Nat × Nat)
  pos : Nat
  prevSeq : Option (BitVec 8)
  window : List (Nat × Nat)
  avSlots : List (Nat × Nat)
  models : List RcModel
  recons : List RefFrame
  work : List WorkItem
  cmds : List PendCmd
  cmdNext : Word
  rects : List (Nat × Nat × Nat × Nat × Nat)
  roiSeq : Word
  grain : Option (Nat × List Byte)
  splices : List Nat
  cdps : List (Int × BitVec 16 × List (BitVec 24))
  planes : List (Nat × Nat × List (BitVec 64))
  planeTimes : List (Nat × Nat × Int)
  loading : List (Nat × Nat × Nat × Nat × Nat × Nat)
  dumpFrame : Option (Nat × Nat)
  fields : List (Nat × Int × Field)
  joinIdr : Bool
  joinFrame : Option Nat
  joinWait : Bool
  tokens : List TokenBody
  notices : List (Nat × List Nat)
  states : List (Nat × StateBody)
  matched : List Nat
  named : List (List Byte × Nat)
  metaRing : List (List Byte)
  lastJoin : Option Raw
  deriving DecidableEq, Repr

/-- What an engine holds besides its registers: the tile in hand, the edge passes to run, when it entered CODING or CHECK,
its self-test (R153, R154, R456). -/
structure EngState where
  item : Option WorkItem
  edges : List WorkItem
  since : Raw
  stVector : Nat
  stFails : Nat
  scoutVector : Nat
  scoutFails : Nat
  lastTest : Option Raw
  scoutOn : Bool
  scoutLast : Option Raw
  deriving DecidableEq, Repr

/-- A unit held in a stream's share, with its index entry and launch state (R278, R287): its frame where it is a picture's,
the time W or 1 ms over which its datagrams are spread, the first RTP number, the RTP time-stamp where the unit fixes it, the
bytes of an initialisation segment sent ahead of it, how many have left and how many the peer has confirmed, its form and
port, whether it is the first of a new rendition, whether it launches nothing more because its stream was LOST when its definition ended. -/
structure RetUnit where
  seq : Nat
  frame : Option (Nat × Nat)
  ptime : Int
  launch : Int
  span : Nat
  bytes : List Byte
  flags : BitVec 16
  seq0 : BitVec 16
  rtpTs : Option Word
  init : List Byte
  net : NetPlan
  nDgrams : Nat
  sent : Nat
  acked : Nat
  crc : Word
  form : Nat
  port : Nat
  fresh : Bool
  dead : Bool
  deriving DecidableEq, Repr

/-- A definition of a stream. The one that a re-plan replaced or removed stays for the units of earlier frames (R64, R287): form, port,
next RTP number, continuity counters, the capture time of the last picture that carried PSI (R274). -/
structure OldStream where
  form : Nat
  port : Nat
  seqNext : BitVec 16
  cc : List Nat
  psiG : Option Int
  deriving DecidableEq, Repr

/-- What a slice gives a stream besides its numbers: the version and the content of its PMT (R274), its initialisation segment (R275). -/
structure StreamHead where
  slice : Nat
  version : Nat
  pmt : List Byte
  init : List Byte
  deriving DecidableEq, Repr

/-- An access unit or PCM packet that waits for packaging (R258, R259): the time of its first sample, its launch time, its bytes, the grid
count of its first sample, its programme and that programme's place among its channel's, the slice it was queued under and that slice's number. -/
structure AudioUnit where
  t : Int
  launch : Int
  bytes : List Byte
  pos : Nat
  idx : Nat
  prg : PrgPlan
  plan : ChannelPlan
  slice : Nat
  deriving DecidableEq, Repr

/-- A stream's share (R268, R287): its size in bytes, the units held oldest first, the audio units that wait for packaging, its continuity
counters, when it last carried PSI, what the slice in force and those of units still to come give it, newest first, the unit at which it was LOST, the number of the next datagram to leave, whether the next unit is the first of a new
rendition, the slice from which its present definition holds, the definition before it with the audio units still queued
under that one (R64, R287), the last datagram the Bellwether has acknowledged to a standby (R451). -/
structure StreamSt where
  id : Nat
  share : Nat
  cc : List Nat
  seqNext : BitVec 16
  psiG : Option Int
  heads : List StreamHead
  audio : List AudioUnit
  held : List RetUnit
  lostAt : Option Nat
  outSeq : BitVec 16
  freshNext : Bool
  slice : Nat
  old : Option OldStream
  oldAudio : Nat
  lastAck : Option (Nat × Nat)
  deriving DecidableEq, Repr

/-- A running re-send (R289). -/
structure ResendJob where
  q : Nat
  slot : Nat
  stream : Nat
  port : Nat
  next : Nat
  left : Nat
  dgram : Nat
  seq : BitVec 16
  ssrc : Word
  dest : List Byte
  udp : Nat
  rate : Nat
  due : Raw
  sent : Nat
  deriving DecidableEq, Repr

/-- A host egress packet that waits at its port (R380). -/
structure HostPkt where
  q : Nat
  slot : Nat
  ts : Bool
  now : Bool
  id : BitVec 16
  bytes : List Byte
  launch : BitVec 40
  past : Bool
  deriving DecidableEq, Repr

/-- A fetched descriptor whose completion is not written (R370, R379). -/
structure Outst where
  slot : Nat
  opcode : Nat
  cid : Nat
  desc : List Byte
  payload : Option (List Byte)
  handed : Bool
  done : Option (Byte × List Byte)
  headAfter : Nat
  held : Bool
  dead : Bool
  deriving DecidableEq, Repr

/-- A queue: its outstanding descriptors in fetch order, its phase, its held completions (R366 to R386). -/
structure QueueSt where
  qid : Nat
  outst : List Outst
  phase : Bool
  nextSlot : Nat
  eseq : Word
  deriving DecidableEq, Repr

/-- A queue group's moderation state (R383). -/
structure GroupSt where
  g : Nat
  e : Nat
  start : Raw
  deriving DecidableEq, Repr

/-- An access unit in a slot's bitstream ring (R190, R191, R193): the corrected time its first byte arrived and whether TIME_SET then
held, its timestamp, the pieces written, each with whether a gap marker follows it, the bytes received, whether it was cut at AU_MAX,
whether it has ended. -/
structure AuSt where
  arrived : Int
  timed : Bool
  ts : Nat
  pieces : List (List Byte × Bool)
  size : Nat
  cut : Bool
  ended : Bool
  deriving DecidableEq, Repr

/-- An entry of a decoded-picture buffer (R197, R198): its place in output order, its samples, whether it is concealed, substituted or
tainted. -/
structure RefPic where
  order : Int
  pic : Picture
  bad : Bool
  deriving DecidableEq, Repr

/-- A decoded picture that waits for its place in output order (R198, R204): its order, capture time, record flags, units concealed,
whether it is a random-access point, whether its channel's grid may begin with it (R192, R489). -/
structure OutPic where
  order : Int
  capture : Int
  flags : Nat
  units : Nat
  rap : Bool
  timed : Bool
  deriving DecidableEq, Repr

/-- A decode slot behind its registers (R190 to R200): its bitstream ring, the bytes written to it, whether a gap marker stands before the
next unit, the last RTP sequence number and continuity counter, whether a random-access point has come, and whether one that came with
TIME_SET has been decoded; the substitute with its place in output order; whether no random-access point has been output clean since a
picture that was not; the capture times decoded; the pictures decoded, the coded video sequences, whether the RASL pictures that follow are
discarded; what the parser holds; the parameter sets validly received as (type, id, bytes); the decoded-picture buffer; the pictures waiting
for output; the bounds windows. -/
structure SlotSt where
  ring : List AuSt
  written : Nat
  gapNext : Bool
  seqLast : Option (BitVec 16)
  cc : Option (BitVec 4)
  gotRap : Bool
  timedRap : Bool
  substitute : Option (Picture × Int)
  dirty : Bool
  seen : List Int
  order : Nat
  cvs : Nat
  noRasl : Bool
  parser : List Byte
  sets : List (Nat × Nat × List Byte)
  dpb : List RefPic
  outs : List OutPic
  windows : List (Nat × Nat)
  deriving DecidableEq, Repr

/-- A serial audio port behind its registers (R247 to R255, R260): the FIFO and the sample times last read from it, each with
its non-audio flag; the lock counts; the rate period; the masks not yet in force; the mutes by channel pair with the samples
since the last pattern; the blocks in use, the shadow blocks, the blocks received before their shadow; the place of the read position in
what the FIFO took, the moves made of it, for each shadow block where it was read and the moves made until then. -/
structure ApSt where
  fifo : List (AudioFrame × Bool)
  past : List (AudioFrame × Bool)
  good : Nat
  bad : Nat
  sawZ : Bool
  silent : Bool
  period : Nat
  received : Nat
  lockedAll : Bool
  masks : List (Int × BitVec 16)
  mute : List (Nat × Nat)
  nonAudio : Bool
  blocks : List AudioBlock
  shadows : List AudioBlock
  shadowRun : Nat
  early : List AudioBlock
  readAt : Int
  moved : Int
  starts : List (Nat × Int × Int)
  deriving DecidableEq, Repr

/-- A network audio flow behind its registers (R251 to R253): samples by grid position with the non-audio channels, the last
block closed, the mutes, the last sample time of that block, the blocks closed. -/
structure NfSt where
  got : List (Nat × AudioFrame × BitVec 16)
  closed : Option Nat
  mute : List (Nat × Nat)
  nonAudio : BitVec 16
  prev : Option AudioFrame
  blocks : List AudioBlock
  deriving DecidableEq, Repr

/-- An audio programme behind its registers (R256 to R259): its channel and plan, the time its first access unit may begin,
the next access unit or packet, the encoder's state and the last access unit. -/
structure PrgSt where
  plan : Option (Nat × PrgPlan)
  since : Option Int
  nextAu : Option Nat
  encState : List Byte
  auCrc : Word
  deriving DecidableEq, Repr

/-- The timers of a port: the attempt that waits, the fault sets received (R320, R324). -/
structure PortSt where
  waitEnd : Option Raw
  losAtEnd : Bool
  since : Raw
  faultAt : Option Raw
  hostQ : List HostPkt
  txts : List (List Word)
  txtsGap : Bool
  deriving DecidableEq, Repr

/-- The merge of a receive flow (R330, R331): the highest value, the values received with their paths, RTP timestamp and payload, the
next value to count, the values held for release, and when each path last delivered; and, as the image sets them, what its
paths match and its payload type (R329). -/
structure FlowSt where
  high : Option (BitVec 32)
  got : List (BitVec 32 × Bool × Bool × BitVec 32 × List Byte)
  counted : Option (BitVec 32)
  nextRel : Option (BitVec 32)
  held : List (BitVec 32 × Raw)
  lastA : Option Raw
  lastB : Option Raw
  pathA : PathPlan
  pathB : PathPlan
  payloadType : Nat
  deriving DecidableEq, Repr

/-- Whose a sector request is: a unit's; the controller's own, for a check of what it has read or the repair of it (R342, R358, R359); or
the patrol's write-back of a corrected sector (R359). -/
inductive ReqFrom where
  | unit
  | check
  | back
  deriving DecidableEq, Repr

/-- A sector request (R343, R344): its acceptance, address, place in the memory, the data a write carries, the data a read
returns, and whose it is. -/
structure MemReq where
  since : Raw
  addr : Nat
  target : Nat
  bank : Nat
  row : Nat
  wr : Option (List Byte)
  data : List Byte
  origin : ReqFrom
  deriving DecidableEq, Repr

/-- A bank: its last row, its 2-bit counter, the row that is open (R345). -/
structure BankSt where
  target : Nat
  bank : Nat
  row : Option Nat
  hist : BitVec 2
  opened : Option Nat
  deriving DecidableEq, Repr

/-- A command to a memory: a column command with or without auto-precharge; a refresh with its mode and its place in the order of the
target's refreshes (R344 to R346). -/
inductive OxCmd where
  | precharge
  | activate
  | column (auto : Bool)
  | refresh (mode ptr : Nat)
  deriving DecidableEq, Repr

/-- An entry of a retry buffer (R354): when the command was issued, where, and the data of a write. -/
structure IssuedCmd where
  at_ : Raw
  cmd : OxCmd
  target : Nat
  bank : Nat
  row : Nat
  addr : Nat
  wr : Option (List Byte)
  deriving DecidableEq, Repr

/-- An alert that has not been replayed (R355, R356): its domain, the number of alerts since the replay began, the instant of the last, the
targets they affect. -/
structure AlertSt where
  domain : Nat
  num : Nat
  at_ : Raw
  affected : List Nat
  deriving DecidableEq, Repr

/-- An Ox controller behind its registers: the requests accepted and not issued, the reads issued and not returned; the banks
used, the counter value of the others, the bank last activated in each target; by target, the modes of the refreshes postponed and of
those that wait for the end of a window or a replay, the number issued, the mode in force, when the last fell due, the rate indication
and when it was read last (R346, R347); the periodic pass: its target, step and the values of the runs of that step (R349); the targets in
full training, their step and its runs, those with a step that found no working setting, those whose step has ended since a
rate was requested (R348, R351, R352); the settings in force that are no trims, by eight times the target and the step, and by trim the
results of training that wait to be judged (R471); the rate requested and the rate in training (R351); the alerts, those released, the
retry buffers (R354 to R356); the patrol's next sector and when it read last; the trims that the open window took, before and after
(R480); the failed targets. -/
structure OxSt where
  reqs : List MemReq
  reads : List MemReq
  banks : List BankSt
  initHist : BitVec 2
  lastAct : List (Nat × Nat)
  postponed : List (Nat × List Nat)
  refDue : List (Nat × List Nat)
  refNext : List (Nat × Nat)
  refMode : List (Nat × Nat)
  refLast : List (Nat × Raw)
  refDiv : List (Nat × Nat)
  polled : List (Nat × Raw)
  passOn : Bool
  target : Nat
  step_ : Nat
  results : List (List Nat)
  windowOpen : Bool
  lastWindow : Option Raw
  lastPass : Option Raw
  fullFor : List Nat
  fullStep : List (Nat × Nat)
  fullRuns : List (Nat × List (List Nat))
  fullBad : List Nat
  settled : List Nat
  settings : List (Nat × Nat)
  offers : List (Nat × List Nat)
  freq : Option (Nat × Byte)
  freqOn : Option Nat
  alerts : List AlertSt
  released : List Nat
  issued : List IssuedCmd
  patrol : Nat
  lastPatrol : Option Raw
  trimsBefore : List (Nat × BitVec 10 × BitVec 10)
  failed : List Nat
  deriving DecidableEq, Repr

/-- A counted instance of a fault class (R409, R411): the window its count belongs to (windows before the last wrap of the
counter have negative numbers), the counts of that window and of the one before, whether each reached N. -/
structure InstSt where
  cls : Nat
  inst : Nat
  win : Int
  cur : Nat
  prev : Nat
  reached : Bool
  reachedPrev : Bool
  lasting : Nat
  deriving DecidableEq, Repr

/-- A ledger entry before or after release (R413, R414). -/
structure LedgerEntry where
  kind : Nat
  unit : Nat
  channel : Nat
  lasting : Bool
  time : Raw
  data : Word
  deriving DecidableEq, Repr

/-- A check-value unit behind its registers (R423): whether a message is open, and CK_CTL as the last START took it. -/
structure CkSt where
  isOpen : Bool
  ctl : Word
  deriving DecidableEq, Repr

/-- A Mule message in the retransmission store (R439). -/
structure MuleMsg where
  type : Byte
  channel : Byte
  lseq : Word
  body : List Byte
  deriving DecidableEq, Repr

/-- Pairing behind its registers (R432 to R463): the link's sequences, alive counter and retransmission store, the times of
the last messages, the deferred causes to give up, what the next ACK says and the ACKs not confirmed, when bring-up may start
again; whether the lanes are locked and deskewed, and the first message sent since; the Mule lanes whose LOS is asserted; the channels whose
last JOIN the Bellwether refused; whether the peer drives BW_HOLD, the eye margins measured. -/
structure PairSt where
  txSeq : Word
  rxSeq : Word
  txAlive : Byte
  store : List MuleMsg
  skipping : Bool
  lastTx : Option Raw
  lastRx : Option Raw
  deferred : List Nat
  lastHealthTx : Option Raw
  lastHealthRx : Option Raw
  ackDue : List (Nat × Nat × Nat)
  ackSent : List (Word × Nat × Nat × Nat)
  restartAt : Option Raw
  aligned : Bool
  firstTx : Option Word
  los : List Nat
  refused : List Nat
  peerDriving : Bool
  lastAck : Option Raw
  eyeLeast : Nat × Nat
  muleEyes : List (Nat × Nat × Nat)
  lastEye : Option Raw
  deriving DecidableEq, Repr

/-- A trim (R470 to R473). -/
structure TrimSt where
  cur : BitVec 10
  pend : Option (BitVec 10)
  heldAt : Option Int
  deriving DecidableEq, Repr

/-- Calibration and the sensors behind their registers: the requests remembered and the trim in hand of each running group
(R474), Tj at each group's last acceptance, when the periodic run, the interpolation, the conversion, the voltage decision
and the read-back last came; the AVSBus transactions failed in a row, since when the voltage differs from the request, when
a condition of a fault last held (R479). -/
structure CalSt where
  trims : List TrimSt
  again : BitVec 7
  turn : List (Nat × Nat)
  lastTemp : List (Nat × Int)
  lastRun : Option Raw
  lastInterp : Option Raw
  lastConv : Option Raw
  lastAvs : Option Raw
  lastRead : Option Raw
  vread : Nat
  avsFails : Nat
  badSince : Option Raw
  lastBad : Option Raw
  deriving DecidableEq, Repr

/-- A tile of the monitor behind its registers: the newest complete buffer with its frame, whether a display frame has selected
it, the buffer displayed (R230, R231). -/
structure TileBuf where
  newest : Option (Nat × Picture)
  selected : Bool
  shown : Option (Nat × Picture)
  deriving DecidableEq, Repr

/-- The attributes of a posted write: its traffic class, Relaxed Ordering, ID-Based Ordering (R365). -/
structure Posted where
  tc : Nat
  relaxed : Bool
  idOrdered : Bool
  deriving DecidableEq, Repr

/-- How completion entries, event-queue slots and MSI-X messages are written (R365). -/
def posted : Posted := { tc := 0, relaxed := false, idOrdered := false }

/-- What leaves the block, newest first in `State.out`. -/
inductive Output where
  | read (m : Master) (v : Word)
  | completion (cq : Nat) (slot : Nat) (tlp : Option Posted) (bytes : List Byte)
  | record (q : Nat) (slot : Nat) (tlp : Option Posted) (bytes : List Byte)
  | msix (vector addr : Nat) (tlp : Posted) (data : Word)
  | hostWrite (addr : Nat) (bytes : List Byte)
  | datagram (port stream unit index : Nat) (sched : Int) (num : Option (BitVec 16)) (rtpTs : Option Word) (wire : List Byte)
  | resent (port stream unit index : Nat) (seq : BitVec 16) (wire : List Byte)
  | hostPacket (port q : Nat) (id : BitVec 16) (wire : List Byte)
  | mule (m : MuleMsg) (alive : Byte) (frame : List Byte)
  | avsTarget (mv : Nat)
  | pme
  | l1Request
  | lineFetch (cluster line : Nat)
  | sector (ox addr : Nat) (bytes : List Byte)
  | wake (core : Nat)
  | training (what : Nat)
  | dpVideo (rate : Nat) (bpc8 : Bool)
  | display (tiles : List (Nat × (Int × Int × Int) × List (Int × Int × Int))) (canvas : List (Int × Int × Int))
  deriving DecidableEq, Repr

/-- Reasons a command stops the run. -/
inductive Fault where
  /-- Raised by MEMORY_REQUEST at an address at which the controller has no memory: R339 says no unit issues one. Safe. -/
  | noSuchAddress
  deriving DecidableEq, Repr

/-- Reasons a command is refused. -/
inductive Refusal where
  /-- Raised by a dispatch arm whose command has no meaning yet; safe. -/
  | notModelled (mnemonic : String)
  /-- Raised by a meaning whose operand names a unit the device does not have (R5): no such command exists. Safe. -/
  | noSuchUnit
  deriving DecidableEq, Repr

/-- The whole state; `treeNow` is the bottom-level tree that the store's current region holds, `treeReady` the store's mark that its
next region is complete, `treeNext` the tree there (R72); `rings` are the 32-byte halves of sectors that queue entries have written over
the system region, by their offset in it, in both copies (R342, R366); `caches` are the lines each cluster's reference cache holds, newest
first (R159, R162); `mbx` are the messages that the firmware of each steward core has taken and not answered, oldest first (R388);
`reports` are the fault events that units have detected and the Goose has still to count: class, instance, stamp, data (R410);
`displayNext` is the tick of the next display frame with the thirds of a tick beyond it (R231, R301); `refMark` is whether the reference
window that runs held a glitch or a stop (R309). -/
structure State where
  pending : List Instr
  power : Power
  pins : Pins
  latch : CauseLatch
  fuses : Fuses
  nv : List Host.Cell
  treeNow : Option Nat
  treeReady : Bool
  treeNext : Nat
  dev : List Host.Cell
  rings : List (Nat × List Byte)
  regs : WordMap
  force : WordMap
  latches : WordMap
  stages : WordMap
  raw : Raw
  img : ImgState
  chans : List Chan
  engs : List EngState
  caches : List (List Nat)
  streams : List StreamSt
  resends : List ResendJob
  queues : List QueueSt
  groups : List GroupSt
  slots : List SlotSt
  aps : List ApSt
  nfs : List NfSt
  prgs : List PrgSt
  lastBlock48 : Option Nat
  lastBlock96 : Option Nat
  ports : List PortSt
  flows : List FlowSt
  ox : List OxSt
  systemPair : List Nat
  insts : List InstSt
  classSince : List (Nat × Raw)
  fatal : Bool
  reports : List (Nat × Nat × Raw × Word)
  waiting : List LedgerEntry
  ledger : List (Nat × LedgerEntry)
  ledgerNext : Nat
  active : List (Nat × Nat × Nat)
  waitCores : BitVec 4
  downCores : BitVec 4
  mbx : List (List (List Word))
  msixEn : Bool
  funcMask : Bool
  msixTable : List (Nat × MsixEntry)
  pba : List Nat
  writable : List (Nat × Nat)
  pmeEn : Bool
  pmeAt : Option Raw
  cks : List CkSt
  pair : PairSt
  cal : CalSt
  coefs : List (Nat × Int)
  tiles : List TileBuf
  displayNext : Option (Raw × Nat)
  refMark : Bool
  free : Nat
  out : List Output
  deriving DecidableEq, Repr

/-! ### The working state after reset -/

/-- The pins after reset. -/
def Pins.reset : Pins :=
  { bootSel := false, pairSide := false, perstReleased := false, ddrRst := false, thermTrip := false,
    holdLowSince := none, holdShortEnd := none, lastDiode := none }

/-- The fuses as the device was manufactured (R53): the identity and the digest of slot 0 are the device's own, and slot 0 is
enrolled (R55). -/
def Fuses.reset : Fuses :=
  { seed := Config.deviceSeed, ident := Config.deviceIdent, digests := [Config.firmwareDigest], enrolled := 1, revoked := 0, floor := 0 }

/-- The cause latch after reset. -/
def CauseLatch.reset : CauseLatch :=
  { power := true, porst := false, brownout := false, rails := 0 }

/-- The IMG block after reset. -/
def ImgState.reset : ImgState :=
  { cmd := none, inForce := none, forced := none, logEntries := [], chMeas := [], quote := none }

/-- A channel pipe after reset. -/
def Chan.reset : Chan :=
  { plan := none, spare := none, sliceSeq := 0, dirty := [], late := [], heldFrom := 0, pend := none, gap := none, stopped := false, dead := false,
    releasing := [], grid := none, j := 0, k := 0, begun := [], sources := [], bound := none,
    lastInput := none, lumas := [], frames := [], past := [], s := 81920, measured := none, prevE := [], pos := 0,
    prevSeq := none, window := [], avSlots := [], models := [], recons := [], work := [], cmds := [], cmdNext := 0, rects := [],
    roiSeq := 0xFFFFFFFF, grain := none, splices := [], cdps := [], planes := [], planeTimes := [],
    loading := [], dumpFrame := none, fields := [], joinIdr := false, joinFrame := none, joinWait := false, tokens := [],
    notices := [], states := [], matched := [], named := [], metaRing := [], lastJoin := none }

/-- An engine after reset. -/
def EngState.reset : EngState :=
  { item := none, edges := [], since := 0, stVector := 0, stFails := 0, scoutVector := 0, scoutFails := 0,
    lastTest := none, scoutOn := false, scoutLast := none }

/-- A decode slot after reset. -/
def SlotSt.reset : SlotSt :=
  { ring := [], written := 0, gapNext := false, seqLast := none, cc := none, gotRap := false, timedRap := false, substitute := none, dirty := false, seen := [],
    order := 0, cvs := 0, noRasl := false, parser := [], sets := [], dpb := [], outs := [], windows := [] }

/-- A serial audio port after reset. -/
def ApSt.reset : ApSt :=
  { fifo := [], past := [], good := 0, bad := 0, sawZ := false, silent := false, period := 0, received := 0,
    lockedAll := false, masks := [], mute := [], nonAudio := false, blocks := [], shadows := [],
    shadowRun := 0, early := [], readAt := 0, moved := 0, starts := [] }

/-- A network audio flow after reset. -/
def NfSt.reset : NfSt :=
  { got := [], closed := none, mute := [], nonAudio := 0, prev := none, blocks := [] }

/-- An audio programme after reset. -/
def PrgSt.reset : PrgSt :=
  { plan := none, since := none, nextAu := none, encState := [], auCrc := 0 }

/-- A port after reset. -/
def PortSt.reset : PortSt :=
  { waitEnd := none, losAtEnd := false, since := 0, faultAt := none, hostQ := [], txts := [],
    txtsGap := false }

/-- A receive flow after reset. -/
def FlowSt.reset : FlowSt :=
  { high := none, got := [], counted := none, nextRel := none, held := [], lastA := none, lastB := none,
    pathA := { dst := [], port := 0, src := none, vlan := none }, pathB := { dst := [], port := 0, src := none, vlan := none },
    payloadType := 0 }

/-- An Ox controller after reset. -/
def OxSt.reset : OxSt :=
  { reqs := [], reads := [], banks := [], initHist := 2, lastAct := [], postponed := [], refDue := [], refNext := [], refMode := [],
    refLast := [], refDiv := [], polled := [], passOn := false, target := 0, step_ := 0, results := [], windowOpen := false,
    lastWindow := none, lastPass := none, fullFor := [], fullStep := [], fullRuns := [], fullBad := [], settled := [], settings := [],
    offers := [], freq := none, freqOn := none, alerts := [], released := [], issued := [], patrol := 0, lastPatrol := none,
    trimsBefore := [], failed := [] }

/-- A check-value unit after reset. -/
def CkSt.reset : CkSt :=
  { isOpen := false, ctl := 0 }

/-- A mosaic tile after reset. -/
def TileBuf.reset : TileBuf :=
  { newest := none, selected := false, shown := none }

/-- A trim after reset. -/
def TrimSt.reset : TrimSt :=
  { cur := 0, pend := none, heldAt := none }

/-- Pairing after reset. -/
def PairSt.reset : PairSt :=
  { txSeq := 0, rxSeq := 0, txAlive := 0, store := [], skipping := false, lastTx := none, lastRx := none,
    deferred := [], lastHealthTx := none, lastHealthRx := none, ackDue := [], ackSent := [],
    restartAt := none, aligned := false, firstTx := none, los := [], refused := [], peerDriving := false, lastAck := none, eyeLeast := (0, 0), muleEyes := [],
    lastEye := none }

/-- Calibration after reset. -/
def CalSt.reset : CalSt :=
  { trims := List.replicate 669 TrimSt.reset, again := 0, turn := [], lastTemp := [], lastRun := none,
    lastInterp := none, lastConv := none, lastAvs := none, lastRead := none, vread := 0, avsFails := 0, badSince := none,
    lastBad := none }

/-- The block right after the release of reset at t0 (R485, R487): every register at its reset value, no image in force,
nothing stored. The instant and the straps are the model's (DESIGN CHOICE, log entry 1). -/
def State.reset : State :=
  { pending := [], power := .running, pins := Pins.reset, latch := CauseLatch.reset, fuses := Fuses.reset,
    nv := [], treeNow := none, treeReady := false, treeNext := 0, dev := [], rings := [], regs := [], force := [], latches := [], stages := [], raw := 0,
    img := ImgState.reset, chans := List.replicate 16 Chan.reset, engs := List.replicate 128 EngState.reset, caches := List.replicate 16 [],
    streams := [], resends := [], queues := [], groups := [], slots := List.replicate 16 SlotSt.reset,
    aps := List.replicate 8 ApSt.reset, nfs := List.replicate 32 NfSt.reset,
    prgs := List.replicate 32 PrgSt.reset, lastBlock48 := none, lastBlock96 := none,
    ports := List.replicate 24 PortSt.reset, flows := List.replicate 128 FlowSt.reset,
    ox := List.replicate 10 OxSt.reset, systemPair := [], insts := [], classSince := [], fatal := false,
    reports := [], waiting := [], ledger := [], ledgerNext := 0, active := [], waitCores := 0, downCores := 0,
    mbx := List.replicate 4 [], msixEn := false, funcMask := false, msixTable := [], pba := [], writable := [], pmeEn := false, pmeAt := none, cks := List.replicate 8 CkSt.reset, pair := PairSt.reset,
    cal := CalSt.reset, coefs := [], tiles := List.replicate 16 TileBuf.reset, displayNext := none, refMark := false, free := 0, out := [] }

end Sys2Proof.Machine
end

