-- ==== Sys2Proof/Machine/Regs.lean ====
section
/-!
DEFINITION. The register map of BAR0: one name per register of the manual's maps with its offset and reset value, and
the access masks of its fields (R6, R8; the maps of R73, R100, R129, R162, R163, R183, R184, R205, R206, R237, R239,
R241, R264, R266, R267, R290, R291, R313, R315, R332 to R335, R362, R390 to R392, R406, R407, R428, R430, R465, R467,
R481, R504).
-/
namespace Sys2Proof.Machine

/-- A register: its byte offset in BAR0 and its reset value. -/
structure Reg where
  addr : Nat
  reset : Word
  deriving DecidableEq, Repr

/-- IMG_STAT, R73: RO. -/
def IMG_STAT : Reg := ⟨0x10000, 0x0#32⟩
/-- IMG_LOAD_CMD, R73: WO. -/
def IMG_LOAD_CMD : Reg := ⟨0x10004, 0x0#32⟩
/-- IMG_LOAD_RESULT, R73: RO. -/
def IMG_LOAD_RESULT : Reg := ⟨0x10008, 0x0#32⟩
/-- IMG_BOOT_INFO, R73: RO. -/
def IMG_BOOT_INFO : Reg := ⟨0x1000C, 0x0#32⟩
/-- IMG_SRC_ADDR_LO, R73: RW. -/
def IMG_SRC_ADDR_LO : Reg := ⟨0x10010, 0x0#32⟩
/-- IMG_SRC_ADDR_HI, R73: RW. -/
def IMG_SRC_ADDR_HI : Reg := ⟨0x10014, 0x0#32⟩
/-- IMG_SRC_LEN, R73: RW. -/
def IMG_SRC_LEN : Reg := ⟨0x10018, 0x0#32⟩
/-- IMG_REFUSE_CNT, R73: RO. -/
def IMG_REFUSE_CNT : Reg := ⟨0x1001C, 0x0#32⟩
/-- IMG_CUR_ID, R73: RO. -/
def IMG_CUR_ID (w : Nat) : Reg := ⟨0x10020 + 0x4 * w, 0x0#32⟩
/-- IMG_SVN_FLOOR, R73: RO. -/
def IMG_SVN_FLOOR : Reg := ⟨0x10030, 0x0#32⟩
/-- IMG_CUR_SVN, R73: RO. -/
def IMG_CUR_SVN : Reg := ⟨0x10034, 0x0#32⟩
/-- IMG_CH_DEFINED, R73: RO. -/
def IMG_CH_DEFINED : Reg := ⟨0x10038, 0x0#32⟩
/-- IMG_REPLAN_PEND, R73: RO. -/
def IMG_REPLAN_PEND : Reg := ⟨0x1003C, 0x0#32⟩
/-- IMG_CUR_MEAS, R73: RO. -/
def IMG_CUR_MEAS (w : Nat) : Reg := ⟨0x10040 + 0x4 * w, 0x0#32⟩
/-- IMG_LOG_CHAIN, R73: RO. -/
def IMG_LOG_CHAIN (w : Nat) : Reg := ⟨0x10060 + 0x4 * w, 0x0#32⟩
/-- IMG_LOG_COUNT, R73: RO. -/
def IMG_LOG_COUNT : Reg := ⟨0x10080, 0x0#32⟩
/-- IMG_LOG_SEL, R73: RW. -/
def IMG_LOG_SEL : Reg := ⟨0x10084, 0x0#32⟩
/-- IMG_LOG_WIN, R73: RO. -/
def IMG_LOG_WIN (w : Nat) : Reg := ⟨0x100C0 + 0x4 * w, 0x0#32⟩
/-- IMG_ATT_CMD, R73: WO. -/
def IMG_ATT_CMD : Reg := ⟨0x10100, 0x0#32⟩
/-- IMG_ATT_STAT, R73: RO. -/
def IMG_ATT_STAT : Reg := ⟨0x10104, 0x0#32⟩
/-- IMG_ATT_BUF_LO, R73: RW. -/
def IMG_ATT_BUF_LO : Reg := ⟨0x10108, 0x0#32⟩
/-- IMG_ATT_BUF_HI, R73: RW. -/
def IMG_ATT_BUF_HI : Reg := ⟨0x1010C, 0x0#32⟩
/-- IMG_ATT_NONCE, R73: RW. -/
def IMG_ATT_NONCE (w : Nat) : Reg := ⟨0x10110 + 0x4 * w, 0x0#32⟩
/-- IMG_SIG_NEXT_LO, R73: RO. -/
def IMG_SIG_NEXT_LO : Reg := ⟨0x10130, 0x0#32⟩
/-- IMG_SIG_NEXT_HI, R73: RO. -/
def IMG_SIG_NEXT_HI : Reg := ⟨0x10134, 0x0#32⟩
/-- IMG_KEY_SLOTS, R73: RO. -/
def IMG_KEY_SLOTS : Reg := ⟨0x10138, 0x0#32⟩
/-- IMG_NV_STAT, R73: RO. -/
def IMG_NV_STAT : Reg := ⟨0x1013C, 0x0#32⟩
/-- IMG_DEV_PUB, R73: RO. -/
def IMG_DEV_PUB (w : Nat) : Reg := ⟨0x10140 + 0x4 * w, 0x0#32⟩
/-- IMG_EVT, R73: W1C. -/
def IMG_EVT : Reg := ⟨0x10180, 0x0#32⟩
/-- IMG_EVT_EN, R73: RW. -/
def IMG_EVT_EN : Reg := ⟨0x10184, 0x0#32⟩
/-- IMG_NV_COMMITS, R73: RO. -/
def IMG_NV_COMMITS : Reg := ⟨0x10188, 0x0#32⟩
/-- CH_STAT, R100: RO. -/
def CH_STAT (n : Nat) : Reg := ⟨0x400000 + 0x10000 * n, 0x0#32⟩
/-- CH_COMMIT, R100: RW. -/
def CH_COMMIT (n : Nat) : Reg := ⟨0x400004 + 0x10000 * n, 0x0#32⟩
/-- CH_RWF_GEN, R100: RO. -/
def CH_RWF_GEN (n : Nat) : Reg := ⟨0x400008 + 0x10000 * n, 0x0#32⟩
/-- CH_HOLD_DEFER, R100: RO. -/
def CH_HOLD_DEFER (n : Nat) : Reg := ⟨0x40000C + 0x10000 * n, 0x0#32⟩
/-- CH_FRAME_LO, R100: RO. -/
def CH_FRAME_LO (n : Nat) : Reg := ⟨0x400010 + 0x10000 * n, 0x0#32⟩
/-- CH_FRAME_HI, R100: RO. -/
def CH_FRAME_HI (n : Nat) : Reg := ⟨0x400014 + 0x10000 * n, 0x0#32⟩
/-- CH_TF_NUM, R100: RO. -/
def CH_TF_NUM (n : Nat) : Reg := ⟨0x400018 + 0x10000 * n, 0x0#32⟩
/-- CH_TF_DEN, R100: RO. -/
def CH_TF_DEN (n : Nat) : Reg := ⟨0x40001C + 0x10000 * n, 0x0#32⟩
/-- CH_DELAY, R100: RO. -/
def CH_DELAY (n : Nat) : Reg := ⟨0x400020 + 0x10000 * n, 0x0#32⟩
/-- CH_G0_LO, R100: RO. -/
def CH_G0_LO (n : Nat) : Reg := ⟨0x400024 + 0x10000 * n, 0x0#32⟩
/-- CH_G0_HI, R100: RO. -/
def CH_G0_HI (n : Nat) : Reg := ⟨0x400028 + 0x10000 * n, 0x0#32⟩
/-- CH_INPUT_CTL, R100: RWF. -/
def CH_INPUT_CTL (n : Nat) : Reg := ⟨0x40002C + 0x10000 * n, 0x0#32⟩
/-- CH_IN_REPEAT, R100: RO. -/
def CH_IN_REPEAT (n : Nat) : Reg := ⟨0x400030 + 0x10000 * n, 0x0#32⟩
/-- CH_IN_PARTIAL, R100: RO. -/
def CH_IN_PARTIAL (n : Nat) : Reg := ⟨0x400034 + 0x10000 * n, 0x0#32⟩
/-- CH_IN_LATE_PKT, R100: RO. -/
def CH_IN_LATE_PKT (n : Nat) : Reg := ⟨0x400038 + 0x10000 * n, 0x0#32⟩
/-- CH_IN_SKIP, R100: RO. -/
def CH_IN_SKIP (n : Nat) : Reg := ⟨0x40003C + 0x10000 * n, 0x0#32⟩
/-- CH_RESTART_GAP, R100: RO. -/
def CH_RESTART_GAP (n : Nat) : Reg := ⟨0x400040 + 0x10000 * n, 0x0#32⟩
/-- CH_RESCUE_CNT, R100: RO. -/
def CH_RESCUE_CNT (n : Nat) : Reg := ⟨0x400044 + 0x10000 * n, 0x0#32⟩
/-- CH_LATE_CNT, R100: RO. -/
def CH_LATE_CNT (n : Nat) : Reg := ⟨0x400048 + 0x10000 * n, 0x0#32⟩
/-- CH_META_DROP, R100: RO. -/
def CH_META_DROP (n : Nat) : Reg := ⟨0x40004C + 0x10000 * n, 0x0#32⟩
/-- CH_META_CTL, R100: RWF. -/
def CH_META_CTL (n : Nat) : Reg := ⟨0x400050 + 0x10000 * n, 0x0#32⟩
/-- CH_EVT, R100: W1C. -/
def CH_EVT (n : Nat) : Reg := ⟨0x400054 + 0x10000 * n, 0x0#32⟩
/-- CH_EVT_EN, R100: RW. -/
def CH_EVT_EN (n : Nat) : Reg := ⟨0x400058 + 0x10000 * n, 0x0#32⟩
/-- CH_PREP_LATE, R100: RO. -/
def CH_PREP_LATE (n : Nat) : Reg := ⟨0x40005C + 0x10000 * n, 0x0#32⟩
/-- CH_IN_BAD_SRD, R100: RO. -/
def CH_IN_BAD_SRD (n : Nat) : Reg := ⟨0x400060 + 0x10000 * n, 0x0#32⟩
/-- CH_GOV_CTL, R100: RWF. -/
def CH_GOV_CTL (n : Nat) : Reg := ⟨0x400100 + 0x10000 * n, 0x70#32⟩
/-- CH_GOV_SPEED, R100: RO. -/
def CH_GOV_SPEED (n : Nat) : Reg := ⟨0x400104 + 0x10000 * n, 0x14000#32⟩
/-- CH_GOV_CAP, R100: RO. -/
def CH_GOV_CAP (n : Nat) : Reg := ⟨0x400108 + 0x10000 * n, 0x0#32⟩
/-- CH_GOV_PRED, R100: RO. -/
def CH_GOV_PRED (n : Nat) : Reg := ⟨0x40010C + 0x10000 * n, 0x0#32⟩
/-- CH_GOV_BUSY, R100: RO. -/
def CH_GOV_BUSY (n : Nat) : Reg := ⟨0x400110 + 0x10000 * n, 0x0#32⟩
/-- CH_GOV_LOWER, R100: RO. -/
def CH_GOV_LOWER (n : Nat) : Reg := ⟨0x400114 + 0x10000 * n, 0x0#32⟩
/-- CH_GOV_RAISE, R100: RO. -/
def CH_GOV_RAISE (n : Nat) : Reg := ⟨0x400118 + 0x10000 * n, 0x0#32⟩
/-- CH_REN_EFF, R100: mixed. -/
def CH_REN_EFF (n : Nat) (w : Nat) : Reg := ⟨0x400400 + 0x10000 * n + 0x4 * w, 0x700#32 + BitVec.ofNat 32 (w * 0x1000)⟩
/-- CH_REN_RESCUE, R100: RO. -/
def CH_REN_RESCUE (n : Nat) (w : Nat) : Reg := ⟨0x400500 + 0x10000 * n + 0x4 * w, 0x0#32⟩
/-- CH_LAD_STAT, R129: RO. -/
def CH_LAD_STAT (n : Nat) : Reg := ⟨0x401000 + 0x10000 * n, 0x0#32⟩
/-- CH_CL_MASK, R129: RO. -/
def CH_CL_MASK (n : Nat) : Reg := ⟨0x401004 + 0x10000 * n, 0x0#32⟩
/-- CH_GOP_CTL, R129: RWF. -/
def CH_GOP_CTL (n : Nat) : Reg := ⟨0x401008 + 0x10000 * n, 0x0#32⟩
/-- CH_IDR_REQ, R129: RWF. -/
def CH_IDR_REQ (n : Nat) : Reg := ⟨0x40100C + 0x10000 * n, 0x0#32⟩
/-- CH_ANA_CTL, R129: RWF. -/
def CH_ANA_CTL (n : Nat) : Reg := ⟨0x401010 + 0x10000 * n, 0x208C0#32⟩
/-- CH_GOP_POS, R129: RO. -/
def CH_GOP_POS (n : Nat) : Reg := ⟨0x401014 + 0x10000 * n, 0x0#32⟩
/-- CH_IDR_CNT, R129: RO. -/
def CH_IDR_CNT (n : Nat) : Reg := ⟨0x401018 + 0x10000 * n, 0x0#32⟩
/-- CH_SCENE_CNT, R129: RO. -/
def CH_SCENE_CNT (n : Nat) : Reg := ⟨0x40101C + 0x10000 * n, 0x0#32⟩
/-- CH_FADE_CNT, R129: RO. -/
def CH_FADE_CNT (n : Nat) : Reg := ⟨0x401020 + 0x10000 * n, 0x0#32⟩
/-- CH_IDR_SUPPR, R129: RO. -/
def CH_IDR_SUPPR (n : Nat) : Reg := ⟨0x401024 + 0x10000 * n, 0x0#32⟩
/-- CH_ROI_CMDS, R129: RO. -/
def CH_ROI_CMDS (n : Nat) : Reg := ⟨0x401028 + 0x10000 * n, 0x0#32⟩
/-- CH_ROI_REJ, R129: RO. -/
def CH_ROI_REJ (n : Nat) : Reg := ⟨0x40102C + 0x10000 * n, 0x0#32⟩
/-- CH_ANA_LEN, R129: RO. -/
def CH_ANA_LEN (n : Nat) : Reg := ⟨0x401030 + 0x10000 * n, 0x0#32⟩
/-- CH_DUMP_ADDR_LO, R129: RW. -/
def CH_DUMP_ADDR_LO (n : Nat) : Reg := ⟨0x401034 + 0x10000 * n, 0x0#32⟩
/-- CH_DUMP_ADDR_HI, R129: RW. -/
def CH_DUMP_ADDR_HI (n : Nat) : Reg := ⟨0x401038 + 0x10000 * n, 0x0#32⟩
/-- CH_DUMP_CTL, R129: mixed. -/
def CH_DUMP_CTL (n : Nat) : Reg := ⟨0x40103C + 0x10000 * n, 0x0#32⟩
/-- CH_DUMP_FRAME_LO, R129: RO. -/
def CH_DUMP_FRAME_LO (n : Nat) : Reg := ⟨0x401040 + 0x10000 * n, 0x0#32⟩
/-- CH_DUMP_FRAME_HI, R129: RO. -/
def CH_DUMP_FRAME_HI (n : Nat) : Reg := ⟨0x401044 + 0x10000 * n, 0x0#32⟩
/-- CH_REN_DESC, R129: RO. -/
def CH_REN_DESC (n : Nat) (w : Nat) : Reg := ⟨0x401100 + 0x10000 * n + 0x4 * w, 0x0#32⟩
/-- CH_RES_DESC, R129: RO. -/
def CH_RES_DESC (n : Nat) (w : Nat) : Reg := ⟨0x401200 + 0x10000 * n + 0x4 * w, 0x0#32⟩
/-- CH_RES_SRC, R129: RO. -/
def CH_RES_SRC (n : Nat) (w : Nat) : Reg := ⟨0x401240 + 0x10000 * n + 0x4 * w, 0x0#32⟩
/-- CH_QOFF, R129: RWF. -/
def CH_QOFF (n : Nat) (r : Nat) (w : Nat) : Reg := ⟨0x401400 + 0x10000 * n + 0x10 * r + 0x4 * w, 0x0#32⟩
/-- CL_STAT, R162: RO. -/
def CL_STAT (c : Nat) : Reg := ⟨0x800000 + 0x400 * c, 0x0#32⟩
/-- CL_ENG_PRESENT, R162: RO. -/
def CL_ENG_PRESENT (c : Nat) : Reg := ⟨0x800004 + 0x400 * c, 0x0#32⟩
/-- CL_CACHE_HIT, R162: RO. -/
def CL_CACHE_HIT (c : Nat) : Reg := ⟨0x800008 + 0x400 * c, 0x0#32⟩
/-- CL_CACHE_MISS, R162: RO. -/
def CL_CACHE_MISS (c : Nat) : Reg := ⟨0x80000C + 0x400 * c, 0x0#32⟩
/-- CL_CACHE_PARITY, R162: RO. -/
def CL_CACHE_PARITY (c : Nat) : Reg := ⟨0x800010 + 0x400 * c, 0x0#32⟩
/-- CL_REISSUE, R162: RO. -/
def CL_REISSUE (c : Nat) : Reg := ⟨0x800014 + 0x400 * c, 0x0#32⟩
/-- CL_EDGE_REDO, R162: RO. -/
def CL_EDGE_REDO (c : Nat) : Reg := ⟨0x800018 + 0x400 * c, 0x0#32⟩
/-- CL_EVT, R162: W1C. -/
def CL_EVT (c : Nat) : Reg := ⟨0x80001C + 0x400 * c, 0x0#32⟩
/-- CL_EVT_EN, R162: RW. -/
def CL_EVT_EN (c : Nat) : Reg := ⟨0x800020 + 0x400 * c, 0x0#32⟩
/-- CL_SCT_STAT, R162: RO. -/
def CL_SCT_STAT (c : Nat) : Reg := ⟨0x800024 + 0x400 * c, 0x0#32⟩
/-- ENG_STAT, R163: RO. -/
def ENG_STAT (e : Nat) : Reg := ⟨0x808000 + 0x100 * e, 0x0#32⟩
/-- ENG_TILE, R163: RO. -/
def ENG_TILE (e : Nat) : Reg := ⟨0x808004 + 0x100 * e, 0x0#32⟩
/-- ENG_ROW, R163: RO. -/
def ENG_ROW (e : Nat) : Reg := ⟨0x808008 + 0x100 * e, 0x0#32⟩
/-- ENG_TILES_DONE, R163: RO. -/
def ENG_TILES_DONE (e : Nat) : Reg := ⟨0x80800C + 0x100 * e, 0x0#32⟩
/-- ENG_LR_ROWS, R163: RO. -/
def ENG_LR_ROWS (e : Nat) : Reg := ⟨0x808010 + 0x100 * e, 0x0#32⟩
/-- ENG_PARITY_CNT, R163: RO. -/
def ENG_PARITY_CNT (e : Nat) : Reg := ⟨0x808014 + 0x100 * e, 0x0#32⟩
/-- ENG_REISSUE_CNT, R163: RO. -/
def ENG_REISSUE_CNT (e : Nat) : Reg := ⟨0x808018 + 0x100 * e, 0x0#32⟩
/-- ENG_BUSY_LO, R163: RO. -/
def ENG_BUSY_LO (e : Nat) : Reg := ⟨0x80801C + 0x100 * e, 0x0#32⟩
/-- ENG_BUSY_HI, R163: RO. -/
def ENG_BUSY_HI (e : Nat) : Reg := ⟨0x808020 + 0x100 * e, 0x0#32⟩
/-- ENG_WORK_LO, R163: RO. -/
def ENG_WORK_LO (e : Nat) : Reg := ⟨0x808024 + 0x100 * e, 0x0#32⟩
/-- ENG_WORK_HI, R163: RO. -/
def ENG_WORK_HI (e : Nat) : Reg := ⟨0x808028 + 0x100 * e, 0x0#32⟩
/-- ENG_FAULT_TIME_LO, R163: RO. -/
def ENG_FAULT_TIME_LO (e : Nat) : Reg := ⟨0x80802C + 0x100 * e, 0x0#32⟩
/-- ENG_FAULT_TIME_HI, R163: RO. -/
def ENG_FAULT_TIME_HI (e : Nat) : Reg := ⟨0x808030 + 0x100 * e, 0x0#32⟩
/-- ENG_FAULT_SITE, R163: RO. -/
def ENG_FAULT_SITE (e : Nat) : Reg := ⟨0x808034 + 0x100 * e, 0x0#32⟩
/-- CH_RC_CTL, R183: RWF. -/
def CH_RC_CTL (n : Nat) : Reg := ⟨0x403000 + 0x10000 * n, 0x0#32⟩
/-- CH_LR_CNT, R183: RO. -/
def CH_LR_CNT (n : Nat) : Reg := ⟨0x403004 + 0x10000 * n, 0x0#32⟩
/-- CH_QMAX_CNT, R183: RO. -/
def CH_QMAX_CNT (n : Nat) : Reg := ⟨0x403008 + 0x10000 * n, 0x0#32⟩
/-- CH_REC_DROP, R183: RO. -/
def CH_REC_DROP (n : Nat) : Reg := ⟨0x40300C + 0x10000 * n, 0x0#32⟩
/-- CH_RC_EVT, R183: W1C. -/
def CH_RC_EVT (n : Nat) : Reg := ⟨0x403010 + 0x10000 * n, 0x0#32⟩
/-- RC_MODE, R184: RO. -/
def RC_MODE (n : Nat) (r : Nat) : Reg := ⟨0x403100 + 0x10000 * n + 0x40 * r, 0x0#32⟩
/-- RC_BIT_RATE, R184: RO. -/
def RC_BIT_RATE (n : Nat) (r : Nat) : Reg := ⟨0x403104 + 0x10000 * n + 0x40 * r, 0x0#32⟩
/-- RC_CPB_SIZE, R184: RO. -/
def RC_CPB_SIZE (n : Nat) (r : Nat) : Reg := ⟨0x403108 + 0x10000 * n + 0x40 * r, 0x0#32⟩
/-- RC_INIT_DELAY, R184: RO. -/
def RC_INIT_DELAY (n : Nat) (r : Nat) : Reg := ⟨0x40310C + 0x10000 * n + 0x40 * r, 0x0#32⟩
/-- RC_HDR_MAX, R184: RO. -/
def RC_HDR_MAX (n : Nat) (r : Nat) : Reg := ⟨0x403110 + 0x10000 * n + 0x40 * r, 0x0#32⟩
/-- RC_LR_MAX, R184: RO. -/
def RC_LR_MAX (n : Nat) (r : Nat) : Reg := ⟨0x403114 + 0x10000 * n + 0x40 * r, 0x0#32⟩
/-- RC_TARGET_RATE, R184: RWF. -/
def RC_TARGET_RATE (n : Nat) (r : Nat) : Reg := ⟨0x403118 + 0x10000 * n + 0x40 * r, 0x0#32⟩
/-- RC_QCTL, R184: RWF. -/
def RC_QCTL (n : Nat) (r : Nat) : Reg := ⟨0x40311C + 0x10000 * n + 0x40 * r, 0x1E3F00#32⟩
/-- RC_WEIGHT, R184: RWF. -/
def RC_WEIGHT (n : Nat) (r : Nat) : Reg := ⟨0x403120 + 0x10000 * n + 0x40 * r, 0xC00300#32⟩
/-- RC_CPB_FULL, R184: RO. -/
def RC_CPB_FULL (n : Nat) (r : Nat) : Reg := ⟨0x403124 + 0x10000 * n + 0x40 * r, 0x0#32⟩
/-- RC_LAST_BITS, R184: RO. -/
def RC_LAST_BITS (n : Nat) (r : Nat) : Reg := ⟨0x403128 + 0x10000 * n + 0x40 * r, 0x0#32⟩
/-- RC_LAST_PIC, R184: RO. -/
def RC_LAST_PIC (n : Nat) (r : Nat) : Reg := ⟨0x40312C + 0x10000 * n + 0x40 * r, 0xFFFF0000#32⟩
/-- RC_ALPHA_I, R184: RO. -/
def RC_ALPHA_I (n : Nat) (r : Nat) : Reg := ⟨0x403130 + 0x10000 * n + 0x40 * r, 0x20000#32⟩
/-- RC_ALPHA_P, R184: RO. -/
def RC_ALPHA_P (n : Nat) (r : Nat) : Reg := ⟨0x403134 + 0x10000 * n + 0x40 * r, 0x20000#32⟩
/-- RC_LR_PICS, R184: RO. -/
def RC_LR_PICS (n : Nat) (r : Nat) : Reg := ⟨0x403138 + 0x10000 * n + 0x40 * r, 0x0#32⟩
/-- RC_FILL_BYTES, R184: RO. -/
def RC_FILL_BYTES (n : Nat) (r : Nat) : Reg := ⟨0x40313C + 0x10000 * n + 0x40 * r, 0x0#32⟩
/-- DU_STAT, R205: RO. -/
def DU_STAT (u : Nat) : Reg := ⟨0x200000 + 0x1000 * u, 0x0#32⟩
/-- DU_LOAD, R205: RO. -/
def DU_LOAD (u : Nat) : Reg := ⟨0x200004 + 0x1000 * u, 0x0#32⟩
/-- DU_BOUND_VIOL, R205: RO. -/
def DU_BOUND_VIOL (u : Nat) : Reg := ⟨0x200008 + 0x1000 * u, 0x0#32⟩
/-- DU_EVT, R205: W1C. -/
def DU_EVT (u : Nat) : Reg := ⟨0x20000C + 0x1000 * u, 0x0#32⟩
/-- DU_EVT_EN, R205: RW. -/
def DU_EVT_EN (u : Nat) : Reg := ⟨0x200010 + 0x1000 * u, 0x0#32⟩
/-- DS_SLOT_CFG, R206: RO. -/
def DS_SLOT_CFG (u : Nat) (s : Nat) : Reg := ⟨0x200100 + 0x1000 * u + 0x100 * s, 0x0#32⟩
/-- DS_SLOT_FMT, R206: RO. -/
def DS_SLOT_FMT (u : Nat) (s : Nat) : Reg := ⟨0x200104 + 0x1000 * u + 0x100 * s, 0x0#32⟩
/-- DS_SLOT_STAT, R206: RO. -/
def DS_SLOT_STAT (u : Nat) (s : Nat) : Reg := ⟨0x200108 + 0x1000 * u + 0x100 * s, 0x0#32⟩
/-- DS_CT_OFS, R206: RO. -/
def DS_CT_OFS (u : Nat) (s : Nat) : Reg := ⟨0x20010C + 0x1000 * u + 0x100 * s, 0x0#32⟩
/-- DS_TS_ADJ_LO, R206: RO. -/
def DS_TS_ADJ_LO (u : Nat) (s : Nat) : Reg := ⟨0x200110 + 0x1000 * u + 0x100 * s, 0x0#32⟩
/-- DS_TS_ADJ_HI, R206: RO. -/
def DS_TS_ADJ_HI (u : Nat) (s : Nat) : Reg := ⟨0x200114 + 0x1000 * u + 0x100 * s, 0x0#32⟩
/-- DS_AU_MAX, R206: RO. -/
def DS_AU_MAX (u : Nat) (s : Nat) : Reg := ⟨0x200118 + 0x1000 * u + 0x100 * s, 0x0#32⟩
/-- DS_REC_CTL, R206: RW. -/
def DS_REC_CTL (u : Nat) (s : Nat) : Reg := ⟨0x20011C + 0x1000 * u + 0x100 * s, 0x0#32⟩
/-- DS_PICS_OK, R206: RO. -/
def DS_PICS_OK (u : Nat) (s : Nat) : Reg := ⟨0x200120 + 0x1000 * u + 0x100 * s, 0x0#32⟩
/-- DS_PICS_CONCEALED, R206: RO. -/
def DS_PICS_CONCEALED (u : Nat) (s : Nat) : Reg := ⟨0x200124 + 0x1000 * u + 0x100 * s, 0x0#32⟩
/-- DS_PICS_TAINTED, R206: RO. -/
def DS_PICS_TAINTED (u : Nat) (s : Nat) : Reg := ⟨0x200128 + 0x1000 * u + 0x100 * s, 0x0#32⟩
/-- DS_UNITS_CONCEALED, R206: RO. -/
def DS_UNITS_CONCEALED (u : Nat) (s : Nat) : Reg := ⟨0x20012C + 0x1000 * u + 0x100 * s, 0x0#32⟩
/-- DS_REF_SUBST, R206: RO. -/
def DS_REF_SUBST (u : Nat) (s : Nat) : Reg := ⟨0x200130 + 0x1000 * u + 0x100 * s, 0x0#32⟩
/-- DS_PICS_DISCARDED, R206: RO. -/
def DS_PICS_DISCARDED (u : Nat) (s : Nat) : Reg := ⟨0x200134 + 0x1000 * u + 0x100 * s, 0x0#32⟩
/-- DS_WORK_STOP, R206: RO. -/
def DS_WORK_STOP (u : Nat) (s : Nat) : Reg := ⟨0x200138 + 0x1000 * u + 0x100 * s, 0x0#32⟩
/-- DS_PKT_GAP, R206: RO. -/
def DS_PKT_GAP (u : Nat) (s : Nat) : Reg := ⟨0x20013C + 0x1000 * u + 0x100 * s, 0x0#32⟩
/-- DS_LATE_PICS, R206: RO. -/
def DS_LATE_PICS (u : Nat) (s : Nat) : Reg := ⟨0x200140 + 0x1000 * u + 0x100 * s, 0x0#32⟩
/-- DS_UNSUPPORTED, R206: RO. -/
def DS_UNSUPPORTED (u : Nat) (s : Nat) : Reg := ⟨0x200144 + 0x1000 * u + 0x100 * s, 0x0#32⟩
/-- DS_REC_DROP, R206: RO. -/
def DS_REC_DROP (u : Nat) (s : Nat) : Reg := ⟨0x200148 + 0x1000 * u + 0x100 * s, 0x0#32⟩
/-- DS_LAST_CONC_LO, R206: RO. -/
def DS_LAST_CONC_LO (u : Nat) (s : Nat) : Reg := ⟨0x20014C + 0x1000 * u + 0x100 * s, 0x0#32⟩
/-- DS_LAST_CONC_HI, R206: RO. -/
def DS_LAST_CONC_HI (u : Nat) (s : Nat) : Reg := ⟨0x200150 + 0x1000 * u + 0x100 * s, 0x0#32⟩
/-- CMP_STAT, R237: RO. -/
def CMP_STAT (n : Nat) : Reg := ⟨0x300000 + 0x4000 * n, 0x0#32⟩
/-- CMP_CTL, R237: RWF. -/
def CMP_CTL (n : Nat) : Reg := ⟨0x300004 + 0x4000 * n, 0x4#32⟩
/-- CMP_COMP_FRAME_LO, R237: RO. -/
def CMP_COMP_FRAME_LO (n : Nat) : Reg := ⟨0x300008 + 0x4000 * n, 0x0#32⟩
/-- CMP_COMP_FRAME_HI, R237: RO. -/
def CMP_COMP_FRAME_HI (n : Nat) : Reg := ⟨0x30000C + 0x4000 * n, 0x0#32⟩
/-- CMP_GSIG, R237: RO. -/
def CMP_GSIG (n : Nat) : Reg := ⟨0x300010 + 0x4000 * n, 0x0#32⟩
/-- CMP_NOTREADY, R237: RO. -/
def CMP_NOTREADY (n : Nat) : Reg := ⟨0x300014 + 0x4000 * n, 0x0#32⟩
/-- CMP_EVT, R237: W1C. -/
def CMP_EVT (n : Nat) : Reg := ⟨0x300018 + 0x4000 * n, 0x0#32⟩
/-- CMP_EVT_EN, R237: RW. -/
def CMP_EVT_EN (n : Nat) : Reg := ⟨0x30001C + 0x4000 * n, 0x0#32⟩
/-- CMP_OMAT, R237: RWF. -/
def CMP_OMAT (n : Nat) (w : Nat) : Reg := ⟨0x300020 + 0x4000 * n + 0x4 * w, 0x0#32⟩
/-- LY_L_CTL, R237: RWF. -/
def LY_L_CTL (n : Nat) (l : Nat) : Reg := ⟨0x300400 + 0x4000 * n + 0x100 * l, if l = 0 then 0x20#32 else 0x03FF0010#32⟩
/-- LY_L_POS, R237: RWF. -/
def LY_L_POS (n : Nat) (l : Nat) : Reg := ⟨0x300404 + 0x4000 * n + 0x100 * l, 0x0#32⟩
/-- LY_L_KEY, R237: RWF. -/
def LY_L_KEY (n : Nat) (l : Nat) : Reg := ⟨0x300408 + 0x4000 * n + 0x100 * l, if l = 0 then 0#32 else 0x1000000#32⟩
/-- LY_L_ALLOC, R237: RO. -/
def LY_L_ALLOC (n : Nat) (l : Nat) : Reg := ⟨0x30040C + 0x4000 * n + 0x100 * l, 0x0#32⟩
/-- LY_L_STAT, R237: RO. -/
def LY_L_STAT (n : Nat) (l : Nat) : Reg := ⟨0x300410 + 0x4000 * n + 0x100 * l, 0x0#32⟩
/-- LY_BUF_DIM, R237: RO. -/
def LY_BUF_DIM (n : Nat) (l : Nat) (w : Nat) : Reg := ⟨0x300420 + 0x4000 * n + 0x100 * l + 0x4 * w, 0x0#32⟩
/-- LY_BUF_CRC, R237: RO. -/
def LY_BUF_CRC (n : Nat) (l : Nat) (w : Nat) : Reg := ⟨0x300430 + 0x4000 * n + 0x100 * l + 0x4 * w, 0x0#32⟩
/-- LY_LMAT, R237: RWF. -/
def LY_LMAT (n : Nat) (l : Nat) (w : Nat) : Reg := ⟨0x300440 + 0x4000 * n + 0x100 * l + 0x4 * w, 0x0#32⟩
/-- SCL_STAT, R239: RO. -/
def SCL_STAT (j : Nat) : Reg := ⟨0x340000 + 0x4000 * j, 0x0#32⟩
/-- SCL_COEF_IDX, R239: RW. -/
def SCL_COEF_IDX (j : Nat) : Reg := ⟨0x340004 + 0x4000 * j, 0x0#32⟩
/-- SCL_COEF_DATA, R239: RW. -/
def SCL_COEF_DATA (j : Nat) : Reg := ⟨0x340008 + 0x4000 * j, 0x0#32⟩
/-- SCL_COEF_REJ, R239: RO. -/
def SCL_COEF_REJ (j : Nat) : Reg := ⟨0x34000C + 0x4000 * j, 0x0#32⟩
/-- SCL_LB_REJ, R239: RO. -/
def SCL_LB_REJ (j : Nat) : Reg := ⟨0x340010 + 0x4000 * j, 0x0#32⟩
/-- SCL_BANK_USE, R239: RO. -/
def SCL_BANK_USE (j : Nat) : Reg := ⟨0x340014 + 0x4000 * j, 0x0#32⟩
/-- SCL_EVT, R239: W1C. -/
def SCL_EVT (j : Nat) : Reg := ⟨0x340018 + 0x4000 * j, 0x0#32⟩
/-- SCL_EVT_EN, R239: RW. -/
def SCL_EVT_EN (j : Nat) : Reg := ⟨0x34001C + 0x4000 * j, 0x0#32⟩
/-- OUT_CFG, R239: RO. -/
def OUT_CFG (j : Nat) (o : Nat) : Reg := ⟨0x340100 + 0x4000 * j + 0x40 * o, 0x0#32⟩
/-- OUT_SRC, R239: RO. -/
def OUT_SRC (j : Nat) (o : Nat) : Reg := ⟨0x340104 + 0x4000 * j + 0x40 * o, 0x0#32⟩
/-- OUT_DIM, R239: RO. -/
def OUT_DIM (j : Nat) (o : Nat) : Reg := ⟨0x340108 + 0x4000 * j + 0x40 * o, 0x0#32⟩
/-- OUT_CTL, R239: RWF. -/
def OUT_CTL (j : Nat) (o : Nat) : Reg := ⟨0x34010C + 0x4000 * j + 0x40 * o, 0x800#32⟩
/-- OUT_STAT, R239: RO. -/
def OUT_STAT (j : Nat) (o : Nat) : Reg := ⟨0x340110 + 0x4000 * j + 0x40 * o, 0x0#32⟩
/-- DPO_STAT, R241: RO. -/
def DPO_STAT : Reg := ⟨0xB0000, 0x0#32⟩
/-- DPO_CTL, R241: RW. -/
def DPO_CTL : Reg := ⟨0xB0004, 0xD#32⟩
/-- DPO_CANVAS, R241: RO. -/
def DPO_CANVAS : Reg := ⟨0xB0008, 0x0#32⟩
/-- DPO_DFRAME_LO, R241: RO. -/
def DPO_DFRAME_LO : Reg := ⟨0xB000C, 0x0#32⟩
/-- DPO_DFRAME_HI, R241: RO. -/
def DPO_DFRAME_HI : Reg := ⟨0xB0010, 0x0#32⟩
/-- DPO_TRAIN_CNT, R241: RO. -/
def DPO_TRAIN_CNT : Reg := ⟨0xB0014, 0x0#32⟩
/-- DPO_EVT, R241: W1C. -/
def DPO_EVT : Reg := ⟨0xB0018, 0x0#32⟩
/-- DPO_EVT_EN, R241: RW. -/
def DPO_EVT_EN : Reg := ⟨0xB001C, 0x0#32⟩
/-- DPO_TILE_DROP, R241: RO. -/
def DPO_TILE_DROP : Reg := ⟨0xB0020, 0x0#32⟩
/-- DPO_TALLY, R241: RW. -/
def DPO_TALLY (w : Nat) : Reg := ⟨0xB0040 + 0x4 * w, 0x0#32⟩
/-- DPO_TILE_POS, R241: RO. -/
def DPO_TILE_POS (t : Nat) : Reg := ⟨0xB0100 + 0x10 * t, 0x0#32⟩
/-- DPO_TILE_DIM, R241: RO. -/
def DPO_TILE_DIM (t : Nat) : Reg := ⟨0xB0104 + 0x10 * t, 0x0#32⟩
/-- DPO_TILE_CFG, R241: RO. -/
def DPO_TILE_CFG (t : Nat) : Reg := ⟨0xB0108 + 0x10 * t, 0x0#32⟩
/-- AP_CFG, R264: RO. -/
def AP_CFG (p : Nat) : Reg := ⟨0xC0000 + 0x100 * p, 0x0#32⟩
/-- AP_STAT, R264: RO. -/
def AP_STAT (p : Nat) : Reg := ⟨0xC0004 + 0x100 * p, 0x0#32⟩
/-- AP_SLOT_MASK, R264: RW. -/
def AP_SLOT_MASK (p : Nat) : Reg := ⟨0xC0008 + 0x100 * p, 0xFFFF#32⟩
/-- AP_SLOT_MASK_ACT, R264: RO. -/
def AP_SLOT_MASK_ACT (p : Nat) : Reg := ⟨0xC000C + 0x100 * p, 0xFFFF#32⟩
/-- AP_RATE_PPM, R264: RO. -/
def AP_RATE_PPM (p : Nat) : Reg := ⟨0xC0010 + 0x100 * p, 0x0#32⟩
/-- AP_SLIP_DROP, R264: RO. -/
def AP_SLIP_DROP (p : Nat) : Reg := ⟨0xC0014 + 0x100 * p, 0x0#32⟩
/-- AP_SLIP_REP, R264: RO. -/
def AP_SLIP_REP (p : Nat) : Reg := ⟨0xC0018 + 0x100 * p, 0x0#32⟩
/-- AP_NPCM_CNT, R264: RO. -/
def AP_NPCM_CNT (p : Nat) : Reg := ⟨0xC001C + 0x100 * p, 0x0#32⟩
/-- AP_RELOCK_CNT, R264: RO. -/
def AP_RELOCK_CNT (p : Nat) : Reg := ⟨0xC0020 + 0x100 * p, 0x0#32⟩
/-- AP_LOCK_LOSS, R264: RO. -/
def AP_LOCK_LOSS (p : Nat) : Reg := ⟨0xC0024 + 0x100 * p, 0x0#32⟩
/-- AP_BLOCK_LO, R264: RO. -/
def AP_BLOCK_LO (p : Nat) : Reg := ⟨0xC0028 + 0x100 * p, 0x0#32⟩
/-- AP_BLOCK_HI, R264: RO. -/
def AP_BLOCK_HI (p : Nat) : Reg := ⟨0xC002C + 0x100 * p, 0x0#32⟩
/-- AP_ALIGN, R264: RO. -/
def AP_ALIGN (p : Nat) : Reg := ⟨0xC0030 + 0x100 * p, 0x0#32⟩
/-- AP_EVT, R264: W1C. -/
def AP_EVT (p : Nat) : Reg := ⟨0xC0034 + 0x100 * p, 0x0#32⟩
/-- AP_EVT_EN, R264: RW. -/
def AP_EVT_EN (p : Nat) : Reg := ⟨0xC0038 + 0x100 * p, 0x0#32⟩
/-- AP_MASK_CHG, R264: RO. -/
def AP_MASK_CHG (p : Nat) : Reg := ⟨0xC003C + 0x100 * p, 0x0#32⟩
/-- AP_SHADOW_MISS, R264: RO. -/
def AP_SHADOW_MISS (p : Nat) : Reg := ⟨0xC0040 + 0x100 * p, 0x0#32⟩
/-- AP_SILENT_BLK, R264: RO. -/
def AP_SILENT_BLK (p : Nat) : Reg := ⟨0xC0044 + 0x100 * p, 0x0#32⟩
/-- NF_CFG, R266: RO. -/
def NF_CFG (f : Nat) : Reg := ⟨0xC1000 + 0x80 * f, 0x0#32⟩
/-- NF_STAT, R266: RO. -/
def NF_STAT (f : Nat) : Reg := ⟨0xC1004 + 0x80 * f, 0x0#32⟩
/-- NF_ALIGN, R266: RO. -/
def NF_ALIGN (f : Nat) : Reg := ⟨0xC1008 + 0x80 * f, 0x0#32⟩
/-- NF_GAP_SAMP, R266: RO. -/
def NF_GAP_SAMP (f : Nat) : Reg := ⟨0xC100C + 0x80 * f, 0x0#32⟩
/-- NF_LATE_PKT, R266: RO. -/
def NF_LATE_PKT (f : Nat) : Reg := ⟨0xC1010 + 0x80 * f, 0x0#32⟩
/-- NF_DUP_PKT, R266: RO. -/
def NF_DUP_PKT (f : Nat) : Reg := ⟨0xC1014 + 0x80 * f, 0x0#32⟩
/-- NF_NPCM_CNT, R266: RO. -/
def NF_NPCM_CNT (f : Nat) : Reg := ⟨0xC1018 + 0x80 * f, 0x0#32⟩
/-- NF_BLOCK_LO, R266: RO. -/
def NF_BLOCK_LO (f : Nat) : Reg := ⟨0xC101C + 0x80 * f, 0x0#32⟩
/-- NF_BLOCK_HI, R266: RO. -/
def NF_BLOCK_HI (f : Nat) : Reg := ⟨0xC1020 + 0x80 * f, 0x0#32⟩
/-- NF_EVT, R266: W1C. -/
def NF_EVT (f : Nat) : Reg := ⟨0xC1024 + 0x80 * f, 0x0#32⟩
/-- NF_EVT_EN, R266: RW. -/
def NF_EVT_EN (f : Nat) : Reg := ⟨0xC1028 + 0x80 * f, 0x0#32⟩
/-- PRG_CFG, R267: RO. -/
def PRG_CFG (g : Nat) : Reg := ⟨0xC2000 + 0x40 * g, 0x0#32⟩
/-- PRG_RATE, R267: RO. -/
def PRG_RATE (g : Nat) : Reg := ⟨0xC2004 + 0x40 * g, 0x0#32⟩
/-- PRG_AU_CNT, R267: RO. -/
def PRG_AU_CNT (g : Nat) : Reg := ⟨0xC2008 + 0x40 * g, 0x0#32⟩
/-- PRG_ENC_LATE, R267: RO. -/
def PRG_ENC_LATE (g : Nat) : Reg := ⟨0xC200C + 0x40 * g, 0x0#32⟩
/-- PRG_MUTED_AU, R267: RO. -/
def PRG_MUTED_AU (g : Nat) : Reg := ⟨0xC2010 + 0x40 * g, 0x0#32⟩
/-- PRG_SRC, R267: RO. -/
def PRG_SRC (g : Nat) (w : Nat) : Reg := ⟨0xC2020 + 0x40 * g + 0x4 * w, 0x0#32⟩
/-- EGR_STAT, R290: RO. -/
def EGR_STAT : Reg := ⟨0x900000, 0x0#32⟩
/-- EGR_RET_SIZE, R290: RO. -/
def EGR_RET_SIZE : Reg := ⟨0x900004, 0x0#32⟩
/-- EGR_SPLICE_CNT, R290: RO. -/
def EGR_SPLICE_CNT : Reg := ⟨0x900008, 0x0#32⟩
/-- EGR_SPLICE_REJ, R290: RO. -/
def EGR_SPLICE_REJ : Reg := ⟨0x90000C, 0x0#32⟩
/-- EGR_SPLICE_LATE, R290: RO. -/
def EGR_SPLICE_LATE : Reg := ⟨0x900010, 0x0#32⟩
/-- EGR_SPLICE_DROP, R290: RO. -/
def EGR_SPLICE_DROP : Reg := ⟨0x900014, 0x0#32⟩
/-- EGR_CAP_TRUNC, R290: RO. -/
def EGR_CAP_TRUNC : Reg := ⟨0x900018, 0x0#32⟩
/-- EGR_CAP_BAD, R290: RO. -/
def EGR_CAP_BAD : Reg := ⟨0x90001C, 0x0#32⟩
/-- EGR_FETCH_CNT, R290: RO. -/
def EGR_FETCH_CNT : Reg := ⟨0x900020, 0x0#32⟩
/-- EGR_RESEND_ACT, R290: RO. -/
def EGR_RESEND_ACT : Reg := ⟨0x900024, 0x0#32⟩
/-- EGR_HOLD_CNT, R290: RO. -/
def EGR_HOLD_CNT : Reg := ⟨0x900028, 0x0#32⟩
/-- EGR_CH_EVT, R290: W1C. -/
def EGR_CH_EVT (w : Nat) : Reg := ⟨0x900100 + 0x4 * w, 0x0#32⟩
/-- EGR_CH_EVT_EN, R290: RW. -/
def EGR_CH_EVT_EN (w : Nat) : Reg := ⟨0x900140 + 0x4 * w, 0x0#32⟩
/-- EGR_PORT_STAT, R290: RO. -/
def EGR_PORT_STAT (w : Nat) : Reg := ⟨0x900180 + 0x4 * w, 0x0#32⟩
/-- STR_CFG, R291: RO. -/
def STR_CFG (i : Nat) : Reg := ⟨0x910000 + 0x40 * i, 0x0#32⟩
/-- STR_STAT, R291: RO. -/
def STR_STAT (i : Nat) : Reg := ⟨0x910004 + 0x40 * i, 0x0#32⟩
/-- STR_SEQ_NEXT, R291: RO. -/
def STR_SEQ_NEXT (i : Nat) : Reg := ⟨0x910008 + 0x40 * i, 0x0#32⟩
/-- STR_UNIT_NEXT_LO, R291: RO. -/
def STR_UNIT_NEXT_LO (i : Nat) : Reg := ⟨0x91000C + 0x40 * i, 0x0#32⟩
/-- STR_UNIT_NEXT_HI, R291: RO. -/
def STR_UNIT_NEXT_HI (i : Nat) : Reg := ⟨0x910010 + 0x40 * i, 0x0#32⟩
/-- STR_RET_FIRST_LO, R291: RO. -/
def STR_RET_FIRST_LO (i : Nat) : Reg := ⟨0x910014 + 0x40 * i, 0x0#32⟩
/-- STR_RET_FIRST_HI, R291: RO. -/
def STR_RET_FIRST_HI (i : Nat) : Reg := ⟨0x910018 + 0x40 * i, 0x0#32⟩
/-- STR_RET_SPAN, R291: RO. -/
def STR_RET_SPAN (i : Nat) : Reg := ⟨0x91001C + 0x40 * i, 0x0#32⟩
/-- STR_DGRAMS, R291: RO. -/
def STR_DGRAMS (i : Nat) : Reg := ⟨0x910020 + 0x40 * i, 0x0#32⟩
/-- STR_BYTES_LO, R291: RO. -/
def STR_BYTES_LO (i : Nat) : Reg := ⟨0x910024 + 0x40 * i, 0x0#32⟩
/-- STR_BYTES_HI, R291: RO. -/
def STR_BYTES_HI (i : Nat) : Reg := ⟨0x910028 + 0x40 * i, 0x0#32⟩
/-- STR_LATE_PIC, R291: RO. -/
def STR_LATE_PIC (i : Nat) : Reg := ⟨0x91002C + 0x40 * i, 0x0#32⟩
/-- STR_PACE_LATE, R291: RO. -/
def STR_PACE_LATE (i : Nat) : Reg := ⟨0x910030 + 0x40 * i, 0x0#32⟩
/-- STR_MAX_LATE, R291: RO. -/
def STR_MAX_LATE (i : Nat) : Reg := ⟨0x910034 + 0x40 * i, 0x0#32⟩
/-- STR_RESENT, R291: RO. -/
def STR_RESENT (i : Nat) : Reg := ⟨0x910038 + 0x40 * i, 0x0#32⟩
/-- TIM_STAT, R313: RO. -/
def TIM_STAT : Reg := ⟨0x40000, 0x2#32⟩
/-- TIM_SERVO_CTL, R313: RW. -/
def TIM_SERVO_CTL : Reg := ⟨0x40004, 0x0#32⟩
/-- TIM_SERVO_STATE, R313: RW. -/
def TIM_SERVO_STATE : Reg := ⟨0x40008, 0x0#32⟩
/-- TIM_SNAP_RAW_LO, R313: RO. -/
def TIM_SNAP_RAW_LO : Reg := ⟨0x40010, 0x0#32⟩
/-- TIM_SNAP_RAW_HI, R313: RO. -/
def TIM_SNAP_RAW_HI : Reg := ⟨0x40014, 0x0#32⟩
/-- TIM_SNAP_NS, R313: RO. -/
def TIM_SNAP_NS : Reg := ⟨0x40018, 0x0#32⟩
/-- TIM_SNAP_SEC_LO, R313: RO. -/
def TIM_SNAP_SEC_LO : Reg := ⟨0x4001C, 0x0#32⟩
/-- TIM_SNAP_SEC_HI, R313: RO. -/
def TIM_SNAP_SEC_HI : Reg := ⟨0x40020, 0x0#32⟩
/-- TIM_ADJ_CMD, R313: WO. -/
def TIM_ADJ_CMD : Reg := ⟨0x40040, 0x0#32⟩
/-- TIM_ADJ_STAT, R313: RO. -/
def TIM_ADJ_STAT : Reg := ⟨0x40044, 0x0#32⟩
/-- TIM_ADJ_VAL_LO, R313: RW. -/
def TIM_ADJ_VAL_LO : Reg := ⟨0x40048, 0x0#32⟩
/-- TIM_ADJ_VAL_HI, R313: RW. -/
def TIM_ADJ_VAL_HI : Reg := ⟨0x4004C, 0x0#32⟩
/-- TIM_ADJ_SUB, R313: RW. -/
def TIM_ADJ_SUB : Reg := ⟨0x40050, 0x0#32⟩
/-- TIM_ADJ_RATE_LO, R313: RW. -/
def TIM_ADJ_RATE_LO : Reg := ⟨0x40054, 0x0#32⟩
/-- TIM_ADJ_RATE_HI, R313: RW. -/
def TIM_ADJ_RATE_HI : Reg := ⟨0x40058, 0x0#32⟩
/-- TIM_CUR_OFFSET_LO, R313: RO. -/
def TIM_CUR_OFFSET_LO : Reg := ⟨0x40060, 0x0#32⟩
/-- TIM_CUR_OFFSET_HI, R313: RO. -/
def TIM_CUR_OFFSET_HI : Reg := ⟨0x40064, 0x0#32⟩
/-- TIM_CUR_ANCHOR_LO, R313: RO. -/
def TIM_CUR_ANCHOR_LO : Reg := ⟨0x40068, 0x0#32⟩
/-- TIM_CUR_ANCHOR_HI, R313: RO. -/
def TIM_CUR_ANCHOR_HI : Reg := ⟨0x4006C, 0x0#32⟩
/-- TIM_CUR_RES_LO, R313: RO. -/
def TIM_CUR_RES_LO : Reg := ⟨0x40070, 0x0#32⟩
/-- TIM_CUR_RES_HI, R313: RO. -/
def TIM_CUR_RES_HI : Reg := ⟨0x40074, 0x0#32⟩
/-- TIM_CUR_RATE_LO, R313: RO. -/
def TIM_CUR_RATE_LO : Reg := ⟨0x40078, 0x0#32⟩
/-- TIM_CUR_RATE_HI, R313: RO. -/
def TIM_CUR_RATE_HI : Reg := ⟨0x4007C, 0x0#32⟩
/-- TIM_REF_STAT, R313: RO. -/
def TIM_REF_STAT : Reg := ⟨0x40080, 0x0#32⟩
/-- TIM_REF_DEV, R313: RO. -/
def TIM_REF_DEV : Reg := ⟨0x40084, 0x0#32⟩
/-- TIM_HOLD_CNT, R313: RO. -/
def TIM_HOLD_CNT : Reg := ⟨0x40088, 0x0#32⟩
/-- TIM_GLITCH_CNT, R313: RO. -/
def TIM_GLITCH_CNT : Reg := ⟨0x4008C, 0x0#32⟩
/-- TIM_STEP_CNT, R313: RO. -/
def TIM_STEP_CNT : Reg := ⟨0x40090, 0x0#32⟩
/-- TIM_REBASE_CNT, R313: RO. -/
def TIM_REBASE_CNT : Reg := ⟨0x40094, 0x0#32⟩
/-- TIM_ADJ_REJ, R313: RO. -/
def TIM_ADJ_REJ : Reg := ⟨0x40098, 0x0#32⟩
/-- TIM_PTP_RX_CNT, R313: RO. -/
def TIM_PTP_RX_CNT : Reg := ⟨0x4009C, 0x0#32⟩
/-- TIM_PTP_RX_DROP, R313: RO. -/
def TIM_PTP_RX_DROP : Reg := ⟨0x400A0, 0x0#32⟩
/-- TIM_PTP_CTL, R313: RW. -/
def TIM_PTP_CTL : Reg := ⟨0x400A4, 0x7F70000#32⟩
/-- TIM_PTP_PORTS, R313: RW. -/
def TIM_PTP_PORTS : Reg := ⟨0x400A8, 0x0#32⟩
/-- TIM_EVT, R313: W1C. -/
def TIM_EVT : Reg := ⟨0x400AC, 0x0#32⟩
/-- TIM_EVT_EN, R313: RW. -/
def TIM_EVT_EN : Reg := ⟨0x400B0, 0x0#32⟩
/-- TIM_CMP_LO, R313: RW. -/
def TIM_CMP_LO (i : Nat) : Reg := ⟨0x40100 + 0x10 * i, 0x0#32⟩
/-- TIM_CMP_HI, R313: RW. -/
def TIM_CMP_HI (i : Nat) : Reg := ⟨0x40104 + 0x10 * i, 0x0#32⟩
/-- TIM_CMP_PER, R313: RW. -/
def TIM_CMP_PER (i : Nat) : Reg := ⟨0x40108 + 0x10 * i, 0x0#32⟩
/-- TIM_CMP_CTL, R313: mixed. -/
def TIM_CMP_CTL (i : Nat) : Reg := ⟨0x4010C + 0x10 * i, 0x0#32⟩
/-- TXP_TXTS_W0, R315: RO. -/
def TXP_TXTS_W0 (p : Nat) : Reg := ⟨0x40400 + 0x40 * p, 0x0#32⟩
/-- TXP_TXTS_W1, R315: RO. -/
def TXP_TXTS_W1 (p : Nat) : Reg := ⟨0x40404 + 0x40 * p, 0x0#32⟩
/-- TXP_TXTS_W2, R315: RO. -/
def TXP_TXTS_W2 (p : Nat) : Reg := ⟨0x40408 + 0x40 * p, 0x0#32⟩
/-- TXP_TXTS_W3, R315: RO. -/
def TXP_TXTS_W3 (p : Nat) : Reg := ⟨0x4040C + 0x40 * p, 0x0#32⟩
/-- TXP_TXTS_STAT, R315: mixed. -/
def TXP_TXTS_STAT (p : Nat) : Reg := ⟨0x40410 + 0x40 * p, 0x0#32⟩
/-- TXP_TXTS_DROP, R315: RO. -/
def TXP_TXTS_DROP (p : Nat) : Reg := ⟨0x40414 + 0x40 * p, 0x0#32⟩
/-- TXP_HQ_LATE, R315: RO. -/
def TXP_HQ_LATE (p : Nat) : Reg := ⟨0x40418 + 0x40 * p, 0x0#32⟩
/-- TXP_LAT_TX, R315: RO. -/
def TXP_LAT_TX (p : Nat) : Reg := ⟨0x4041C + 0x40 * p, 0x0#32⟩
/-- TXP_LAT_RX, R315: RO. -/
def TXP_LAT_RX (p : Nat) : Reg := ⟨0x40420 + 0x40 * p, 0x0#32⟩
/-- LANE_STAT, R332: RO. -/
def LANE_STAT : Reg := ⟨0xA0000, 0x0#32⟩
/-- LANE_OCT_CFG, R332: RO. -/
def LANE_OCT_CFG (w : Nat) : Reg := ⟨0xA0004 + 0x4 * w, 0x0#32⟩
/-- LN_STAT, R333: RO. -/
def LN_STAT (l : Nat) : Reg := ⟨0xA1000 + 0x40 * l, 0x7E0#32⟩
/-- LN_CTL, R333: RW. -/
def LN_CTL (l : Nat) : Reg := ⟨0xA1004 + 0x40 * l, 0x0#32⟩
/-- LN_LOS_CNT, R333: RO. -/
def LN_LOS_CNT (l : Nat) : Reg := ⟨0xA1008 + 0x40 * l, 0x0#32⟩
/-- LN_LOL_CNT, R333: RO. -/
def LN_LOL_CNT (l : Nat) : Reg := ⟨0xA100C + 0x40 * l, 0x0#32⟩
/-- LN_INV_CNT, R333: RO. -/
def LN_INV_CNT (l : Nat) : Reg := ⟨0xA1010 + 0x40 * l, 0x0#32⟩
/-- LN_EYE_MARGIN, R333: RO. -/
def LN_EYE_MARGIN (l : Nat) : Reg := ⟨0xA1014 + 0x40 * l, 0x0#32⟩
/-- LN_EVT, R333: W1C. -/
def LN_EVT (l : Nat) : Reg := ⟨0xA1018 + 0x40 * l, 0x0#32⟩
/-- LN_EVT_EN, R333: RW. -/
def LN_EVT_EN (l : Nat) : Reg := ⟨0xA101C + 0x40 * l, 0x0#32⟩
/-- P_PORT_CFG, R334: RO. -/
def P_PORT_CFG (p : Nat) : Reg := ⟨0xA3000 + 0x100 * p, 0x0#32⟩
/-- P_PORT_STATE, R334: RO. -/
def P_PORT_STATE (p : Nat) : Reg := ⟨0xA3004 + 0x100 * p, 0x0#32⟩
/-- P_PORT_CTL, R334: RW. -/
def P_PORT_CTL (p : Nat) : Reg := ⟨0xA3008 + 0x100 * p, 0x0#32⟩
/-- P_PORT_CMD, R334: WO. -/
def P_PORT_CMD (p : Nat) : Reg := ⟨0xA300C + 0x100 * p, 0x0#32⟩
/-- P_LINK_UP_CNT, R334: RO. -/
def P_LINK_UP_CNT (p : Nat) : Reg := ⟨0xA3010 + 0x100 * p, 0x0#32⟩
/-- P_LINK_DOWN_CNT, R334: RO. -/
def P_LINK_DOWN_CNT (p : Nat) : Reg := ⟨0xA3014 + 0x100 * p, 0x0#32⟩
/-- P_AN_FAIL, R334: RO. -/
def P_AN_FAIL (p : Nat) : Reg := ⟨0xA3018 + 0x100 * p, 0x0#32⟩
/-- P_TRAIN_FAIL, R334: RO. -/
def P_TRAIN_FAIL (p : Nat) : Reg := ⟨0xA301C + 0x100 * p, 0x0#32⟩
/-- P_FCS_ERR, R334: RO. -/
def P_FCS_ERR (p : Nat) : Reg := ⟨0xA3020 + 0x100 * p, 0x0#32⟩
/-- P_FEC_CORR, R334: RO. -/
def P_FEC_CORR (p : Nat) : Reg := ⟨0xA3024 + 0x100 * p, 0x0#32⟩
/-- P_FEC_UNCORR, R334: RO. -/
def P_FEC_UNCORR (p : Nat) : Reg := ⟨0xA3028 + 0x100 * p, 0x0#32⟩
/-- P_RX_FRAMES, R334: RO. -/
def P_RX_FRAMES (p : Nat) : Reg := ⟨0xA302C + 0x100 * p, 0x0#32⟩
/-- P_TX_FRAMES, R334: RO. -/
def P_TX_FRAMES (p : Nat) : Reg := ⟨0xA3030 + 0x100 * p, 0x0#32⟩
/-- P_RX_DROP, R334: RO. -/
def P_RX_DROP (p : Nat) : Reg := ⟨0xA3034 + 0x100 * p, 0x0#32⟩
/-- P_LAST_DOWN_LO, R334: RO. -/
def P_LAST_DOWN_LO (p : Nat) : Reg := ⟨0xA3038 + 0x100 * p, 0x0#32⟩
/-- P_LAST_DOWN_HI, R334: RO. -/
def P_LAST_DOWN_HI (p : Nat) : Reg := ⟨0xA303C + 0x100 * p, 0x0#32⟩
/-- P_CTRL_Q, R334: RW. -/
def P_CTRL_Q (p : Nat) : Reg := ⟨0xA3040 + 0x100 * p, 0x0#32⟩
/-- P_EVT, R334: W1C. -/
def P_EVT (p : Nat) : Reg := ⟨0xA3044 + 0x100 * p, 0x0#32⟩
/-- P_EVT_EN, R334: RW. -/
def P_EVT_EN (p : Nat) : Reg := ⟨0xA3048 + 0x100 * p, 0x0#32⟩
/-- RXF_CFG, R335: RO. -/
def RXF_CFG (f : Nat) : Reg := ⟨0xA5000 + 0x40 * f, 0x0#32⟩
/-- RXF_STAT, R335: RO. -/
def RXF_STAT (f : Nat) : Reg := ⟨0xA5004 + 0x40 * f, 0x0#32⟩
/-- RXF_MERGE_WAIT, R335: RO. -/
def RXF_MERGE_WAIT (f : Nat) : Reg := ⟨0xA5008 + 0x40 * f, 0x0#32⟩
/-- RXF_PKT_A, R335: RO. -/
def RXF_PKT_A (f : Nat) : Reg := ⟨0xA500C + 0x40 * f, 0x0#32⟩
/-- RXF_PKT_B, R335: RO. -/
def RXF_PKT_B (f : Nat) : Reg := ⟨0xA5010 + 0x40 * f, 0x0#32⟩
/-- RXF_DUP, R335: RO. -/
def RXF_DUP (f : Nat) : Reg := ⟨0xA5014 + 0x40 * f, 0x0#32⟩
/-- RXF_MISS_A, R335: RO. -/
def RXF_MISS_A (f : Nat) : Reg := ⟨0xA5018 + 0x40 * f, 0x0#32⟩
/-- RXF_MISS_B, R335: RO. -/
def RXF_MISS_B (f : Nat) : Reg := ⟨0xA501C + 0x40 * f, 0x0#32⟩
/-- RXF_LOST, R335: RO. -/
def RXF_LOST (f : Nat) : Reg := ⟨0xA5020 + 0x40 * f, 0x0#32⟩
/-- RXF_LATE, R335: RO. -/
def RXF_LATE (f : Nat) : Reg := ⟨0xA5024 + 0x40 * f, 0x0#32⟩
/-- RXF_MISMATCH, R335: RO. -/
def RXF_MISMATCH (f : Nat) : Reg := ⟨0xA5028 + 0x40 * f, 0x0#32⟩
/-- RXF_BAD, R335: RO. -/
def RXF_BAD (f : Nat) : Reg := ⟨0xA502C + 0x40 * f, 0x0#32⟩
/-- RXF_EVT, R335: W1C. -/
def RXF_EVT (f : Nat) : Reg := ⟨0xA5030 + 0x40 * f, 0x0#32⟩
/-- RXF_EVT_EN, R335: RW. -/
def RXF_EVT_EN (f : Nat) : Reg := ⟨0xA5034 + 0x40 * f, 0x0#32⟩
/-- OX_STAT, R362: RO. -/
def OX_STAT (i : Nat) : Reg := ⟨0x100000 + 0x10000 * i, 0x0#32⟩
/-- OX_CFG, R362: RO. -/
def OX_CFG (i : Nat) : Reg := ⟨0x100004 + 0x10000 * i, 0x0#32⟩
/-- OX_CAP_MIB, R362: RO. -/
def OX_CAP_MIB (i : Nat) : Reg := ⟨0x100008 + 0x10000 * i, 0x0#32⟩
/-- OX_BASE_LO, R362: RO. -/
def OX_BASE_LO (i : Nat) : Reg := ⟨0x10000C + 0x10000 * i, 0x0#32⟩
/-- OX_BASE_HI, R362: RO. -/
def OX_BASE_HI (i : Nat) : Reg := ⟨0x100010 + 0x10000 * i, 0x0#32⟩
/-- OX_BANK_POL, R362: RW. -/
def OX_BANK_POL (i : Nat) : Reg := ⟨0x100014 + 0x10000 * i, 0x8#32⟩
/-- OX_REF_CTL, R362: RW. -/
def OX_REF_CTL (i : Nat) : Reg := ⟨0x100018 + 0x10000 * i, 0x0#32⟩
/-- OX_RETRAIN_CTL, R362: RW. -/
def OX_RETRAIN_CTL (i : Nat) : Reg := ⟨0x10001C + 0x10000 * i, 0xA0001#32⟩
/-- OX_FREQ_CMD, R362: WO. -/
def OX_FREQ_CMD (i : Nat) : Reg := ⟨0x100020 + 0x10000 * i, 0x0#32⟩
/-- OX_FREQ_STAT, R362: RO. -/
def OX_FREQ_STAT (i : Nat) : Reg := ⟨0x100024 + 0x10000 * i, 0x0#32⟩
/-- OX_PATROL_CTL, R362: RW. -/
def OX_PATROL_CTL (i : Nat) : Reg := ⟨0x100028 + 0x10000 * i, 0x1801#32⟩
/-- OX_PC_FAIL, R362: RO. -/
def OX_PC_FAIL (i : Nat) : Reg := ⟨0x10002C + 0x10000 * i, 0x0#32⟩
/-- OX_SET_STAT, R362: RO. -/
def OX_SET_STAT (i : Nat) : Reg := ⟨0x100030 + 0x10000 * i, 0x0#32⟩
/-- OX_CE_CNT, R362: RO. -/
def OX_CE_CNT (i : Nat) : Reg := ⟨0x100034 + 0x10000 * i, 0x0#32⟩
/-- OX_UE_CNT, R362: RO. -/
def OX_UE_CNT (i : Nat) : Reg := ⟨0x100038 + 0x10000 * i, 0x0#32⟩
/-- OX_ALERT_CNT, R362: RO. -/
def OX_ALERT_CNT (i : Nat) : Reg := ⟨0x10003C + 0x10000 * i, 0x0#32⟩
/-- OX_REPLAY_CNT, R362: RO. -/
def OX_REPLAY_CNT (i : Nat) : Reg := ⟨0x100040 + 0x10000 * i, 0x0#32⟩
/-- OX_RETRAIN_CNT, R362: RO. -/
def OX_RETRAIN_CNT (i : Nat) : Reg := ⟨0x100044 + 0x10000 * i, 0x0#32⟩
/-- OX_FULL_TRAIN_CNT, R362: RO. -/
def OX_FULL_TRAIN_CNT (i : Nat) : Reg := ⟨0x100048 + 0x10000 * i, 0x0#32⟩
/-- OX_STEP_FAIL, R362: RO. -/
def OX_STEP_FAIL (i : Nat) : Reg := ⟨0x10004C + 0x10000 * i, 0x0#32⟩
/-- OX_MARGIN_LOW, R362: RO. -/
def OX_MARGIN_LOW (i : Nat) : Reg := ⟨0x100050 + 0x10000 * i, 0x0#32⟩
/-- OX_PATROL_PASS, R362: RO. -/
def OX_PATROL_PASS (i : Nat) : Reg := ⟨0x100054 + 0x10000 * i, 0x0#32⟩
/-- OX_MIRROR_FIX, R362: RO. -/
def OX_MIRROR_FIX (i : Nat) : Reg := ⟨0x100058 + 0x10000 * i, 0x0#32⟩
/-- OX_LAST_UE_ADDR_LO, R362: RO. -/
def OX_LAST_UE_ADDR_LO (i : Nat) : Reg := ⟨0x10005C + 0x10000 * i, 0x0#32⟩
/-- OX_LAST_UE_ADDR_HI, R362: RO. -/
def OX_LAST_UE_ADDR_HI (i : Nat) : Reg := ⟨0x100060 + 0x10000 * i, 0x0#32⟩
/-- OX_LAST_UE_TIME_LO, R362: RO. -/
def OX_LAST_UE_TIME_LO (i : Nat) : Reg := ⟨0x100064 + 0x10000 * i, 0x0#32⟩
/-- OX_LAST_UE_TIME_HI, R362: RO. -/
def OX_LAST_UE_TIME_HI (i : Nat) : Reg := ⟨0x100068 + 0x10000 * i, 0x0#32⟩
/-- OX_RD_SECT_LO, R362: RO. -/
def OX_RD_SECT_LO (i : Nat) : Reg := ⟨0x10006C + 0x10000 * i, 0x0#32⟩
/-- OX_RD_SECT_HI, R362: RO. -/
def OX_RD_SECT_HI (i : Nat) : Reg := ⟨0x100070 + 0x10000 * i, 0x0#32⟩
/-- OX_WR_SECT_LO, R362: RO. -/
def OX_WR_SECT_LO (i : Nat) : Reg := ⟨0x100074 + 0x10000 * i, 0x0#32⟩
/-- OX_WR_SECT_HI, R362: RO. -/
def OX_WR_SECT_HI (i : Nat) : Reg := ⟨0x100078 + 0x10000 * i, 0x0#32⟩
/-- OX_ROW_HIT, R362: RO. -/
def OX_ROW_HIT (i : Nat) : Reg := ⟨0x10007C + 0x10000 * i, 0x0#32⟩
/-- OX_ROW_MISS, R362: RO. -/
def OX_ROW_MISS (i : Nat) : Reg := ⟨0x100080 + 0x10000 * i, 0x0#32⟩
/-- OX_EVT, R362: W1C. -/
def OX_EVT (i : Nat) : Reg := ⟨0x100084 + 0x10000 * i, 0x0#32⟩
/-- OX_EVT_EN, R362: RW. -/
def OX_EVT_EN (i : Nat) : Reg := ⟨0x100088 + 0x10000 * i, 0x0#32⟩
/-- OX_SET_CH, R362: RO. -/
def OX_SET_CH (i : Nat) (w : Nat) : Reg := ⟨0x100090 + 0x10000 * i + 0x4 * w, 0x0#32⟩
/-- Q_QCFG, R390: RO. -/
def Q_QCFG (q : Nat) : Reg := ⟨0x1000000 + 0x40 * q, 0x0#32⟩
/-- Q_QBIND, R390: RO. -/
def Q_QBIND (q : Nat) : Reg := ⟨0x1000004 + 0x40 * q, 0x0#32⟩
/-- Q_BASE_LO, R390: RW. -/
def Q_BASE_LO (q : Nat) : Reg := ⟨0x1000008 + 0x40 * q, 0x0#32⟩
/-- Q_BASE_HI, R390: RW. -/
def Q_BASE_HI (q : Nat) : Reg := ⟨0x100000C + 0x40 * q, 0x0#32⟩
/-- Q_QCTL, R390: RW. -/
def Q_QCTL (q : Nat) : Reg := ⟨0x1000010 + 0x40 * q, 0x40#32⟩
/-- Q_HEAD, R390: RO. -/
def Q_HEAD (q : Nat) : Reg := ⟨0x1000014 + 0x40 * q, 0x0#32⟩
/-- Q_TAIL, R390: RO. -/
def Q_TAIL (q : Nat) : Reg := ⟨0x1000018 + 0x40 * q, 0x0#32⟩
/-- Q_QSTAT, R390: RO. -/
def Q_QSTAT (q : Nat) : Reg := ⟨0x100001C + 0x40 * q, 0x0#32⟩
/-- Q_ENTRIES, R390: RO. -/
def Q_ENTRIES (q : Nat) : Reg := ⟨0x1000020 + 0x40 * q, 0x0#32⟩
/-- Q_EVQ_DROP, R390: RO. -/
def Q_EVQ_DROP (q : Nat) : Reg := ⟨0x1000024 + 0x40 * q, 0x0#32⟩
/-- QUE_OUTSTANDING, R391: RO. -/
def QUE_OUTSTANDING : Reg := ⟨0x60000, 0x0#32⟩
/-- QUE_HELD, R391: RO. -/
def QUE_HELD : Reg := ⟨0x60004, 0x0#32⟩
/-- QUE_QERR_CNT, R391: RO. -/
def QUE_QERR_CNT : Reg := ⟨0x60008, 0x0#32⟩
/-- QUE_DB_REJ, R391: RO. -/
def QUE_DB_REJ : Reg := ⟨0x6000C, 0x0#32⟩
/-- GRP_MOD, R391: RW. -/
def GRP_MOD (g : Nat) : Reg := ⟨0x61000 + 0x10 * g, 0x320010#32⟩
/-- GRP_STAT, R391: RO. -/
def GRP_STAT (g : Nat) : Reg := ⟨0x61004 + 0x10 * g, 0x0#32⟩
/-- GRP_CTL, R391: RW. -/
def GRP_CTL (g : Nat) : Reg := ⟨0x61008 + 0x10 * g, 0x1#32⟩
/-- HOST_STAT, R392: RO. -/
def HOST_STAT : Reg := ⟨0x70000, 0x0#32⟩
/-- HOST_CTL, R392: RW. -/
def HOST_CTL : Reg := ⟨0x70004, 0xA#32⟩
/-- HOST_BAD_ACC, R392: RO. -/
def HOST_BAD_ACC : Reg := ⟨0x70008, 0x0#32⟩
/-- HOST_FLR_CNT, R392: RO. -/
def HOST_FLR_CNT : Reg := ⟨0x7000C, 0x0#32⟩
/-- HOST_PME_CNT, R392: RO. -/
def HOST_PME_CNT : Reg := ⟨0x70010, 0x0#32⟩
/-- HOST_L1_EXIT_CNT, R392: RO. -/
def HOST_L1_EXIT_CNT : Reg := ⟨0x70014, 0x0#32⟩
/-- HOST_HG_VEC, R392: RW. -/
def HOST_HG_VEC (w : Nat) : Reg := ⟨0x70020 + 0x4 * w, 0x02000000#32 + BitVec.ofNat 32 (w * 0x200)⟩
/-- MBX_IN_MSG, R392: RW. -/
def MBX_IN_MSG (c : Nat) (w : Nat) : Reg := ⟨0x70100 + 0x100 * c + 0x4 * w, 0x0#32⟩
/-- MBX_OUT_MSG, R392: RO. -/
def MBX_OUT_MSG (c : Nat) (w : Nat) : Reg := ⟨0x70140 + 0x100 * c + 0x4 * w, 0x0#32⟩
/-- MBX_CMD, R392: WO. -/
def MBX_CMD (c : Nat) : Reg := ⟨0x70180 + 0x100 * c, 0x0#32⟩
/-- MBX_STAT, R392: RO. -/
def MBX_STAT (c : Nat) : Reg := ⟨0x70184 + 0x100 * c, 0x0#32⟩
/-- MBX_EN, R392: RW. -/
def MBX_EN (c : Nat) : Reg := ⟨0x70188 + 0x100 * c, 0x0#32⟩
/-- MBX_REJ, R392: RO. -/
def MBX_REJ (c : Nat) : Reg := ⟨0x7018C + 0x100 * c, 0x0#32⟩
/-- IRQ_EVAL_CNT, R406: RO. -/
def IRQ_EVAL_CNT : Reg := ⟨0x50000, 0x0#32⟩
/-- IRQ_SPUR_CNT, R406: RO. -/
def IRQ_SPUR_CNT : Reg := ⟨0x50004, 0x0#32⟩
/-- IRQ_EOI_ERR, R406: RO. -/
def IRQ_EOI_ERR : Reg := ⟨0x50008, 0x0#32⟩
/-- IRQ_ORPHAN_CNT, R406: RO. -/
def IRQ_ORPHAN_CNT : Reg := ⟨0x5000C, 0x0#32⟩
/-- IRQ_REQ, R406: RO. -/
def IRQ_REQ (w : Nat) : Reg := ⟨0x50080 + 0x4 * w, 0x0#32⟩
/-- IRQ_ENABLE, R406: RW. -/
def IRQ_ENABLE (w : Nat) : Reg := ⟨0x500C0 + 0x4 * w, if w = 15 then 0x000E0000#32 else 0#32⟩
/-- IRQ_PEND, R406: RW. -/
def IRQ_PEND (w : Nat) : Reg := ⟨0x50100 + 0x4 * w, 0x0#32⟩
/-- IRQ_ACTIVE, R406: RO. -/
def IRQ_ACTIVE (w : Nat) : Reg := ⟨0x50140 + 0x4 * w, 0x0#32⟩
/-- IRQ_ORPHAN, R406: W1C. -/
def IRQ_ORPHAN (w : Nat) : Reg := ⟨0x50180 + 0x4 * w, 0x0#32⟩
/-- IRQ_SWI_SET, R406: W1S. -/
def IRQ_SWI_SET (w : Nat) : Reg := ⟨0x501C0 + 0x4 * w, 0x0#32⟩
/-- IRQ_SWI_CLR, R406: W1C. -/
def IRQ_SWI_CLR (w : Nat) : Reg := ⟨0x501C8 + 0x4 * w, 0x0#32⟩
/-- IRQ_SRC_CFG, R406: mixed. -/
def IRQ_SRC_CFG (s : Nat) : Reg := ⟨0x51000 + 0x4 * s, if s = 497 then 0x00018000#32 else 0x00008004#32⟩
/-- TGT_CTL, R407: RW. -/
def TGT_CTL (t : Nat) : Reg := ⟨0x50200 + 0x40 * t, 0x1#32⟩
/-- TGT_PMR, R407: RW. -/
def TGT_PMR (t : Nat) : Reg := ⟨0x50204 + 0x40 * t, 0x100#32⟩
/-- TGT_CLAIM, R407: RO. -/
def TGT_CLAIM (t : Nat) : Reg := ⟨0x50208 + 0x40 * t, 0x1FF#32⟩
/-- TGT_EOI, R407: WO. -/
def TGT_EOI (t : Nat) : Reg := ⟨0x5020C + 0x40 * t, 0x0#32⟩
/-- TGT_HIGHEST, R407: RO. -/
def TGT_HIGHEST (t : Nat) : Reg := ⟨0x50210 + 0x40 * t, 0x1FF#32⟩
/-- TGT_RUNNING, R407: RO. -/
def TGT_RUNNING (t : Nat) : Reg := ⟨0x50214 + 0x40 * t, 0x100#32⟩
/-- TGT_STAT, R407: RO. -/
def TGT_STAT (t : Nat) : Reg := ⟨0x50218 + 0x40 * t, 0x1#32⟩
/-- TGT_DELIV_CNT, R407: RO. -/
def TGT_DELIV_CNT (t : Nat) : Reg := ⟨0x5021C + 0x40 * t, 0x0#32⟩
/-- GOOSE_STAT, R428: RO. -/
def GOOSE_STAT : Reg := ⟨0x30000, 0x0#32⟩
/-- GOOSE_CH_FAULT, R428: W1C. -/
def GOOSE_CH_FAULT : Reg := ⟨0x30004, 0x0#32⟩
/-- GOOSE_LEDGER_CTL, R428: RW. -/
def GOOSE_LEDGER_CTL : Reg := ⟨0x30008, 0x0#32⟩
/-- GOOSE_LEDGER_DROP, R428: RO. -/
def GOOSE_LEDGER_DROP : Reg := ⟨0x3000C, 0x0#32⟩
/-- GOOSE_LEDGER_NEXT_LO, R428: RO. -/
def GOOSE_LEDGER_NEXT_LO : Reg := ⟨0x30010, 0x0#32⟩
/-- GOOSE_LEDGER_NEXT_HI, R428: RO. -/
def GOOSE_LEDGER_NEXT_HI : Reg := ⟨0x30014, 0x0#32⟩
/-- GOOSE_LEDGER_FIRST_LO, R428: RO. -/
def GOOSE_LEDGER_FIRST_LO : Reg := ⟨0x30018, 0x0#32⟩
/-- GOOSE_LEDGER_FIRST_HI, R428: RO. -/
def GOOSE_LEDGER_FIRST_HI : Reg := ⟨0x3001C, 0x0#32⟩
/-- GOOSE_LEDGER_SEL_LO, R428: RW. -/
def GOOSE_LEDGER_SEL_LO : Reg := ⟨0x30020, 0x0#32⟩
/-- GOOSE_LEDGER_SEL_HI, R428: RW. -/
def GOOSE_LEDGER_SEL_HI : Reg := ⟨0x30024, 0x0#32⟩
/-- GOOSE_EVT, R428: W1C. -/
def GOOSE_EVT : Reg := ⟨0x30028, 0x0#32⟩
/-- GOOSE_EVT_EN, R428: RW. -/
def GOOSE_EVT_EN : Reg := ⟨0x3002C, 0x0#32⟩
/-- GOOSE_IMM_CNT, R428: RO. -/
def GOOSE_IMM_CNT : Reg := ⟨0x30030, 0x0#32⟩
/-- GOOSE_LEDGER_WIN, R428: RO. -/
def GOOSE_LEDGER_WIN (w : Nat) : Reg := ⟨0x30040 + 0x4 * w, 0x0#32⟩
/-- GOOSE_CLASS_CFG, R428: RO. -/
def GOOSE_CLASS_CFG (c : Nat) : Reg := ⟨0x30100 + 0x10 * c, [0x000A0040#32, 0x00640008#32, 0x000A03E8#32, 0x02580003#32, 0x000A0004#32, 0x00640064#32].getD c 0#32⟩
/-- GOOSE_CLASS_EVENTS, R428: RO. -/
def GOOSE_CLASS_EVENTS (c : Nat) : Reg := ⟨0x30104 + 0x10 * c, 0x0#32⟩
/-- GOOSE_CLASS_LASTING, R428: RO. -/
def GOOSE_CLASS_LASTING (c : Nat) : Reg := ⟨0x30108 + 0x10 * c, 0x0#32⟩
/-- GOOSE_INST_SEL, R428: RW. -/
def GOOSE_INST_SEL : Reg := ⟨0x30200, 0x0#32⟩
/-- GOOSE_INST_COUNT, R428: RO. -/
def GOOSE_INST_COUNT : Reg := ⟨0x30204, 0x0#32⟩
/-- GOOSE_INST_WIN, R428: RO. -/
def GOOSE_INST_WIN : Reg := ⟨0x30208, 0x0#32⟩
/-- GOOSE_INST_LASTING, R428: RO. -/
def GOOSE_INST_LASTING : Reg := ⟨0x3020C, 0x0#32⟩
/-- CK_CTL, R430: RW. -/
def CK_CTL (i : Nat) : Reg := ⟨0x80000 + 0x100 * i, 0x0#32⟩
/-- CK_CMD, R430: WO. -/
def CK_CMD (i : Nat) : Reg := ⟨0x80004 + 0x100 * i, 0x0#32⟩
/-- CK_DATA_B, R430: WO. -/
def CK_DATA_B (i : Nat) : Reg := ⟨0x80008 + 0x100 * i, 0x0#32⟩
/-- CK_DATA_H, R430: WO. -/
def CK_DATA_H (i : Nat) : Reg := ⟨0x8000C + 0x100 * i, 0x0#32⟩
/-- CK_DATA_W, R430: WO. -/
def CK_DATA_W (i : Nat) : Reg := ⟨0x80010 + 0x100 * i, 0x0#32⟩
/-- CK_RESULT, R430: RO. -/
def CK_RESULT (i : Nat) : Reg := ⟨0x80014 + 0x100 * i, 0x0#32⟩
/-- CK_RUNNING, R430: RO. -/
def CK_RUNNING (i : Nat) : Reg := ⟨0x80018 + 0x100 * i, 0x0#32⟩
/-- CK_EXPECT, R430: RW. -/
def CK_EXPECT (i : Nat) : Reg := ⟨0x8001C + 0x100 * i, 0x0#32⟩
/-- CK_ALIVE_IN, R430: RW. -/
def CK_ALIVE_IN (i : Nat) : Reg := ⟨0x80020 + 0x100 * i, 0x0#32⟩
/-- CK_STAT, R430: RO. -/
def CK_STAT (i : Nat) : Reg := ⟨0x80024 + 0x100 * i, 0x10#32⟩
/-- CK_BYTES, R430: RO. -/
def CK_BYTES (i : Nat) : Reg := ⟨0x80028 + 0x100 * i, 0x0#32⟩
/-- CK_MSG_CNT, R430: RO. -/
def CK_MSG_CNT (i : Nat) : Reg := ⟨0x8002C + 0x100 * i, 0x0#32⟩
/-- CK_MISMATCH_CNT, R430: RO. -/
def CK_MISMATCH_CNT (i : Nat) : Reg := ⟨0x80030 + 0x100 * i, 0x0#32⟩
/-- CK_REPEAT_CNT, R430: RO. -/
def CK_REPEAT_CNT (i : Nat) : Reg := ⟨0x80034 + 0x100 * i, 0x0#32⟩
/-- CK_JUMP_CNT, R430: RO. -/
def CK_JUMP_CNT (i : Nat) : Reg := ⟨0x80038 + 0x100 * i, 0x0#32⟩
/-- CK_EVT, R430: W1C. -/
def CK_EVT (i : Nat) : Reg := ⟨0x8003C + 0x100 * i, 0x0#32⟩
/-- CK_EVT_EN, R430: RW. -/
def CK_EVT_EN (i : Nat) : Reg := ⟨0x80040 + 0x100 * i, 0x0#32⟩
/-- MULE_PAIR_STAT, R465: RO. -/
def MULE_PAIR_STAT : Reg := ⟨0x90000, 0x0#32⟩
/-- MULE_PAIR_CTL, R465: mixed. -/
def MULE_PAIR_CTL : Reg := ⟨0x90004, 0x1C#32⟩
/-- MULE_PAIR_CMD, R465: WO. -/
def MULE_PAIR_CMD : Reg := ⟨0x90008, 0x0#32⟩
/-- MULE_EPOCH, R465: RO. -/
def MULE_EPOCH : Reg := ⟨0x9000C, 0x0#32⟩
/-- MULE_PEER_EPOCH, R465: RO. -/
def MULE_PEER_EPOCH : Reg := ⟨0x90010, 0x0#32⟩
/-- MULE_ELIG, R465: RO. -/
def MULE_ELIG : Reg := ⟨0x90014, 0x0#32⟩
/-- MULE_JOIN_MASK, R465: RW. -/
def MULE_JOIN_MASK : Reg := ⟨0x90018, 0x0#32⟩
/-- MULE_DIV_CAUSE_LO, R465: RO. -/
def MULE_DIV_CAUSE_LO : Reg := ⟨0x9001C, 0xBBBBBBBB#32⟩
/-- MULE_DIV_CAUSE_HI, R465: RO. -/
def MULE_DIV_CAUSE_HI : Reg := ⟨0x90020, 0xBBBBBBBB#32⟩
/-- MULE_TAKEOVER_CNT, R465: RO. -/
def MULE_TAKEOVER_CNT : Reg := ⟨0x90024, 0x0#32⟩
/-- MULE_GIVEUP_CNT, R465: RO. -/
def MULE_GIVEUP_CNT : Reg := ⟨0x90028, 0x0#32⟩
/-- MULE_GIVEUP_DEFER, R465: RO. -/
def MULE_GIVEUP_DEFER : Reg := ⟨0x9002C, 0x0#32⟩
/-- MULE_TX_MSG, R465: RO. -/
def MULE_TX_MSG : Reg := ⟨0x90030, 0x0#32⟩
/-- MULE_RX_MSG, R465: RO. -/
def MULE_RX_MSG : Reg := ⟨0x90034, 0x0#32⟩
/-- MULE_REPLAY_CNT, R465: RO. -/
def MULE_REPLAY_CNT : Reg := ⟨0x90038, 0x0#32⟩
/-- MULE_NAK_CNT, R465: RO. -/
def MULE_NAK_CNT : Reg := ⟨0x9003C, 0x0#32⟩
/-- MULE_LINK_DOWN_CNT, R465: RO. -/
def MULE_LINK_DOWN_CNT : Reg := ⟨0x90040, 0x0#32⟩
/-- MULE_TAKE_RESENT, R465: RO. -/
def MULE_TAKE_RESENT : Reg := ⟨0x90044, 0x0#32⟩
/-- MULE_TAKE_DIVERGED, R465: RO. -/
def MULE_TAKE_DIVERGED : Reg := ⟨0x90048, 0x0#32⟩
/-- MULE_TOKEN_LATE, R465: RO. -/
def MULE_TOKEN_LATE : Reg := ⟨0x9004C, 0x0#32⟩
/-- MULE_OLD_EPOCH, R465: RO. -/
def MULE_OLD_EPOCH : Reg := ⟨0x90050, 0x0#32⟩
/-- MULE_RET_DIFF, R465: RO. -/
def MULE_RET_DIFF : Reg := ⟨0x90054, 0x0#32⟩
/-- MULE_JOIN_CNT, R465: RO. -/
def MULE_JOIN_CNT : Reg := ⟨0x90058, 0x0#32⟩
/-- MULE_CLAIM_REJ, R465: RO. -/
def MULE_CLAIM_REJ : Reg := ⟨0x9005C, 0x0#32⟩
/-- MULE_EVT, R465: W1C. -/
def MULE_EVT : Reg := ⟨0x90060, 0x0#32⟩
/-- MULE_EVT_EN, R465: RW. -/
def MULE_EVT_EN : Reg := ⟨0x90064, 0x0#32⟩
/-- MULE_LAST_TAKEOVER_LO, R465: RO. -/
def MULE_LAST_TAKEOVER_LO : Reg := ⟨0x90068, 0x0#32⟩
/-- MULE_LAST_TAKEOVER_HI, R465: RO. -/
def MULE_LAST_TAKEOVER_HI : Reg := ⟨0x9006C, 0x0#32⟩
/-- MULE_ML_STAT, R465: RO. -/
def MULE_ML_STAT (w : Nat) : Reg := ⟨0x90070 + 0x4 * w, 0x0#32⟩
/-- GOOSE_ST_CTL, R467: RW. -/
def GOOSE_ST_CTL : Reg := ⟨0x31000, 0xA0001#32⟩
/-- GOOSE_ST_PASS, R467: RO. -/
def GOOSE_ST_PASS : Reg := ⟨0x31004, 0x0#32⟩
/-- GOOSE_ST_FAIL, R467: RO. -/
def GOOSE_ST_FAIL : Reg := ⟨0x31008, 0x0#32⟩
/-- GOOSE_EYE_MIN, R467: RW. -/
def GOOSE_EYE_MIN : Reg := ⟨0x3100C, 0xA10#32⟩
/-- GOOSE_EYE_LOW_CNT, R467: RO. -/
def GOOSE_EYE_LOW_CNT : Reg := ⟨0x31010, 0x0#32⟩
/-- GOOSE_HR_TX, R467: RO. -/
def GOOSE_HR_TX : Reg := ⟨0x31014, 0x0#32⟩
/-- GOOSE_HR_RX, R467: RO. -/
def GOOSE_HR_RX : Reg := ⟨0x31018, 0x0#32⟩
/-- GOOSE_HR_MISS, R467: RO. -/
def GOOSE_HR_MISS : Reg := ⟨0x3101C, 0x0#32⟩
/-- GOOSE_ST_EVT, R467: W1C. -/
def GOOSE_ST_EVT : Reg := ⟨0x31020, 0x0#32⟩
/-- GOOSE_ST_EVT_EN, R467: RW. -/
def GOOSE_ST_EVT_EN : Reg := ⟨0x31024, 0x0#32⟩
/-- GOOSE_HR_LAST, R467: RO. -/
def GOOSE_HR_LAST (w : Nat) : Reg := ⟨0x31040 + 0x4 * w, 0x0#32⟩
/-- CAL_STAT, R481: RO. -/
def CAL_STAT : Reg := ⟨0x20000, 0x0#32⟩
/-- CAL_CTL, R481: RW. -/
def CAL_CTL : Reg := ⟨0x20004, 0x2580A01#32⟩
/-- CAL_CMD, R481: WO. -/
def CAL_CMD : Reg := ⟨0x20008, 0x0#32⟩
/-- CAL_TJ, R481: RO. -/
def CAL_TJ : Reg := ⟨0x2000C, 0x0#32⟩
/-- CAL_THERM_CTL, R481: RW. -/
def CAL_THERM_CTL : Reg := ⟨0x20010, 0x2F8#32⟩
/-- CAL_AVS_CTL, R481: RW. -/
def CAL_AVS_CTL : Reg := ⟨0x20014, 0x14CD0001#32⟩
/-- CAL_AVS_STAT, R481: RO. -/
def CAL_AVS_STAT : Reg := ⟨0x20018, 0x2EE#32⟩
/-- CAL_SPD_MIN, R481: RO. -/
def CAL_SPD_MIN : Reg := ⟨0x2001C, 0x0#32⟩
/-- CAL_EVT, R481: W1C. -/
def CAL_EVT : Reg := ⟨0x20020, 0x0#32⟩
/-- CAL_EVT_EN, R481: RW. -/
def CAL_EVT_EN : Reg := ⟨0x20024, 0x0#32⟩
/-- CAL_PWR_EVT, R481: W1C. -/
def CAL_PWR_EVT : Reg := ⟨0x20028, 0x0#32⟩
/-- CAL_PWR_EVT_EN, R481: RW. -/
def CAL_PWR_EVT_EN : Reg := ⟨0x2002C, 0x0#32⟩
/-- CAL_STORE_FAIL, R481: RO. -/
def CAL_STORE_FAIL : Reg := ⟨0x20030, 0x0#32⟩
/-- CAL_TRIM_SEL, R481: RW. -/
def CAL_TRIM_SEL : Reg := ⟨0x20034, 0x0#32⟩
/-- CAL_TRIM_VAL, R481: RO. -/
def CAL_TRIM_VAL : Reg := ⟨0x20038, 0x0#32⟩
/-- CAL_TRIM_STORE, R481: RO. -/
def CAL_TRIM_STORE : Reg := ⟨0x2003C, 0x0#32⟩
/-- CAL_CNT, R481: RO. -/
def CAL_CNT (g : Nat) : Reg := ⟨0x20100 + 0x20 * g, 0x0#32⟩
/-- CAL_RETRY_CNT, R481: RO. -/
def CAL_RETRY_CNT (g : Nat) : Reg := ⟨0x20104 + 0x20 * g, 0x0#32⟩
/-- CAL_REJ_CNT, R481: RO. -/
def CAL_REJ_CNT (g : Nat) : Reg := ⟨0x20108 + 0x20 * g, 0x0#32⟩
/-- CAL_LAST_TIME_LO, R481: RO. -/
def CAL_LAST_TIME_LO (g : Nat) : Reg := ⟨0x2010C + 0x20 * g, 0x0#32⟩
/-- CAL_LAST_TIME_HI, R481: RO. -/
def CAL_LAST_TIME_HI (g : Nat) : Reg := ⟨0x20110 + 0x20 * g, 0x0#32⟩
/-- CAL_PEND_CNT, R481: RO. -/
def CAL_PEND_CNT (g : Nat) : Reg := ⟨0x20114 + 0x20 * g, 0x0#32⟩
/-- CAL_TS, R481: RO. -/
def CAL_TS (w : Nat) : Reg := ⟨0x20200 + 0x4 * w, 0x0#32⟩
/-- CAL_VS, R481: RO. -/
def CAL_VS (w : Nat) : Reg := ⟨0x20280 + 0x4 * w, 0x0#32⟩
/-- CAL_SPD, R481: RO. -/
def CAL_SPD (w : Nat) : Reg := ⟨0x20300 + 0x4 * w, 0x0#32⟩
/-- GLB_ID, R504: RO. -/
def GLB_ID : Reg := ⟨0x0, 0x9640B100#32⟩
/-- GLB_STAT, R504: RO. -/
def GLB_STAT : Reg := ⟨0x4, 0xFF01#32⟩
/-- GLB_RST_CAUSE, R504: RO. -/
def GLB_RST_CAUSE : Reg := ⟨0x8, 0x0#32⟩
/-- GLB_STRAPS, R504: RO. -/
def GLB_STRAPS : Reg := ⟨0xC, 0x0#32⟩
/-- GLB_STAGE_TIME, R504: RO. -/
def GLB_STAGE_TIME : Reg := ⟨0x10, 0x0#32⟩
/-- GLB_PIN_STAT, R504: RO. -/
def GLB_PIN_STAT : Reg := ⟨0x14, 0x0#32⟩
/-- GLB_PIN_SHORT_CNT, R504: RO. -/
def GLB_PIN_SHORT_CNT : Reg := ⟨0x18, 0x0#32⟩

/-- A row of the map: base offset, the count and stride of each index, the access masks of its fields (R8). -/
structure RegRow where
  base : Nat
  dims : List (Nat × Nat)
  ro : Nat := 0
  rw : Nat := 0
  rwf : Nat := 0
  w1c : Nat := 0
  w1s : Nat := 0
  wo : Nat := 0
  rc : Nat := 0
  deriving DecidableEq, Repr

/-- The rows of the IMG registers. -/
def rowsIMG : List RegRow :=
  [{ base := 0x10000, dims := [], ro := 0xF },
   { base := 0x10004, dims := [], wo := 0xFF1F },
   { base := 0x10008, dims := [], ro := 0xFFFFF },
   { base := 0x1000C, dims := [], ro := 0xFFFF07 },
   { base := 0x10010, dims := [], rw := 0xFFFFFFFF },
   { base := 0x10014, dims := [], rw := 0xFFFFFFFF },
   { base := 0x10018, dims := [], rw := 0xFFFFFFFF },
   { base := 0x1001C, dims := [], ro := 0xFFFFFFFF },
   { base := 0x10020, dims := [(4, 0x4)], ro := 0xFFFFFFFF },
   { base := 0x10030, dims := [], ro := 0xFFFFFFFF },
   { base := 0x10034, dims := [], ro := 0xFFFFFFFF },
   { base := 0x10038, dims := [], ro := 0xFFFF },
   { base := 0x1003C, dims := [], ro := 0xFFFF },
   { base := 0x10040, dims := [(8, 0x4)], ro := 0xFFFFFFFF },
   { base := 0x10060, dims := [(8, 0x4)], ro := 0xFFFFFFFF },
   { base := 0x10080, dims := [], ro := 0xFFFFFFFF },
   { base := 0x10084, dims := [], rw := 0xFFFFFFFF },
   { base := 0x100C0, dims := [(16, 0x4)], ro := 0xFFFFFFFF },
   { base := 0x10100, dims := [], wo := 0xFF01 },
   { base := 0x10104, dims := [], ro := 0xFFFF03 },
   { base := 0x10108, dims := [], rw := 0xFFFFFFFF },
   { base := 0x1010C, dims := [], rw := 0xFFFFFFFF },
   { base := 0x10110, dims := [(8, 0x4)], rw := 0xFFFFFFFF },
   { base := 0x10130, dims := [], ro := 0xFFFFFFFF },
   { base := 0x10134, dims := [], ro := 0xFFFFFFFF },
   { base := 0x10138, dims := [], ro := 0xFF },
   { base := 0x1013C, dims := [], ro := 0x1F },
   { base := 0x10140, dims := [(15, 0x4)], ro := 0xFFFFFFFF },
   { base := 0x10180, dims := [], w1c := 0x7F },
   { base := 0x10184, dims := [], rw := 0x7F },
   { base := 0x10188, dims := [], ro := 0xFFFFFFFF }]

/-- The rows of the CH registers. -/
def rowsCH : List RegRow :=
  [{ base := 0x400000, dims := [(16, 0x10000)], ro := 0xF },
   { base := 0x400004, dims := [(16, 0x10000)], rw := 0x1 },
   { base := 0x400008, dims := [(16, 0x10000)], ro := 0xFFFFFFFF },
   { base := 0x40000C, dims := [(16, 0x10000)], ro := 0xFFFFFFFF },
   { base := 0x400010, dims := [(16, 0x10000)], ro := 0xFFFFFFFF },
   { base := 0x400014, dims := [(16, 0x10000)], ro := 0xFFFFFFFF },
   { base := 0x400018, dims := [(16, 0x10000)], ro := 0xFFFFFFFF },
   { base := 0x40001C, dims := [(16, 0x10000)], ro := 0xFFFFFFFF },
   { base := 0x400020, dims := [(16, 0x10000)], ro := 0x1F1F },
   { base := 0x400024, dims := [(16, 0x10000)], ro := 0xFFFFFFFF },
   { base := 0x400028, dims := [(16, 0x10000)], ro := 0xFFFFFFFF },
   { base := 0x40002C, dims := [(16, 0x10000)], rwf := 0x1 },
   { base := 0x400030, dims := [(16, 0x10000)], ro := 0xFFFFFFFF },
   { base := 0x400034, dims := [(16, 0x10000)], ro := 0xFFFFFFFF },
   { base := 0x400038, dims := [(16, 0x10000)], ro := 0xFFFFFFFF },
   { base := 0x40003C, dims := [(16, 0x10000)], ro := 0xFFFFFFFF },
   { base := 0x400040, dims := [(16, 0x10000)], ro := 0xFFFFFFFF },
   { base := 0x400044, dims := [(16, 0x10000)], ro := 0xFFFFFFFF },
   { base := 0x400048, dims := [(16, 0x10000)], ro := 0xFFFFFFFF },
   { base := 0x40004C, dims := [(16, 0x10000)], ro := 0xFFFFFFFF },
   { base := 0x400050, dims := [(16, 0x10000)], rwf := 0xFFFF },
   { base := 0x400054, dims := [(16, 0x10000)], w1c := 0x7F },
   { base := 0x400058, dims := [(16, 0x10000)], rw := 0x7F },
   { base := 0x40005C, dims := [(16, 0x10000)], ro := 0xFFFFFFFF },
   { base := 0x400060, dims := [(16, 0x10000)], ro := 0xFFFFFFFF },
   { base := 0x400100, dims := [(16, 0x10000)], rwf := 0x7F7 },
   { base := 0x400104, dims := [(16, 0x10000)], ro := 0xFFFFFFFF },
   { base := 0x400108, dims := [(16, 0x10000)], ro := 0xFFFFFFFF },
   { base := 0x40010C, dims := [(16, 0x10000)], ro := 0xFFFFFFFF },
   { base := 0x400110, dims := [(16, 0x10000)], ro := 0xFFFFFFFF },
   { base := 0x400114, dims := [(16, 0x10000)], ro := 0xFFFFFFFF },
   { base := 0x400118, dims := [(16, 0x10000)], ro := 0xFFFFFFFF },
   { base := 0x400400, dims := [(16, 0x10000), (40, 0x4)], ro := 0x7, rwf := 0x3F770 },
   { base := 0x400500, dims := [(16, 0x10000), (40, 0x4)], ro := 0xFFFFFFFF },
   { base := 0x401000, dims := [(16, 0x10000)], ro := 0x31F0F3F },
   { base := 0x401004, dims := [(16, 0x10000)], ro := 0xFFFF },
   { base := 0x401008, dims := [(16, 0x10000)], rwf := 0x3FF1FFF },
   { base := 0x40100C, dims := [(16, 0x10000)], rwf := 0xFF },
   { base := 0x401010, dims := [(16, 0x10000)], rwf := 0x3FFFFF },
   { base := 0x401014, dims := [(16, 0x10000)], ro := 0xFFFFFFFF },
   { base := 0x401018, dims := [(16, 0x10000)], ro := 0xFFFFFFFF },
   { base := 0x40101C, dims := [(16, 0x10000)], ro := 0xFFFFFFFF },
   { base := 0x401020, dims := [(16, 0x10000)], ro := 0xFFFFFFFF },
   { base := 0x401024, dims := [(16, 0x10000)], ro := 0xFFFFFFFF },
   { base := 0x401028, dims := [(16, 0x10000)], ro := 0xFFFFFFFF },
   { base := 0x40102C, dims := [(16, 0x10000)], ro := 0xFFFFFFFF },
   { base := 0x401030, dims := [(16, 0x10000)], ro := 0xFFFFFFFF },
   { base := 0x401034, dims := [(16, 0x10000)], rw := 0xFFFFFFFF },
   { base := 0x401038, dims := [(16, 0x10000)], rw := 0xFFFFFFFF },
   { base := 0x40103C, dims := [(16, 0x10000)], ro := 0x6, rw := 0x1 },
   { base := 0x401040, dims := [(16, 0x10000)], ro := 0xFFFFFFFF },
   { base := 0x401044, dims := [(16, 0x10000)], ro := 0xFFFFFFFF },
   { base := 0x401100, dims := [(16, 0x10000), (40, 0x4)], ro := 0x3F03F3 },
   { base := 0x401200, dims := [(16, 0x10000), (12, 0x4)], ro := 0xFFFFFFFF },
   { base := 0x401240, dims := [(16, 0x10000), (12, 0x4)], ro := 0x7FF },
   { base := 0x401400, dims := [(16, 0x10000), (40, 0x10), (4, 0x4)], rwf := 0xFFFFFFFF },
   { base := 0x403000, dims := [(16, 0x10000)], rwf := 0xFFFF },
   { base := 0x403004, dims := [(16, 0x10000)], ro := 0xFFFFFFFF },
   { base := 0x403008, dims := [(16, 0x10000)], ro := 0xFFFFFFFF },
   { base := 0x40300C, dims := [(16, 0x10000)], ro := 0xFFFFFFFF },
   { base := 0x403010, dims := [(16, 0x10000)], w1c := 0x7 }]

/-- The rows of the CL registers. -/
def rowsCL : List RegRow :=
  [{ base := 0x800000, dims := [(16, 0x400)], ro := 0x7F },
   { base := 0x800004, dims := [(16, 0x400)], ro := 0xFFFF },
   { base := 0x800008, dims := [(16, 0x400)], ro := 0xFFFFFFFF },
   { base := 0x80000C, dims := [(16, 0x400)], ro := 0xFFFFFFFF },
   { base := 0x800010, dims := [(16, 0x400)], ro := 0xFFFFFFFF },
   { base := 0x800014, dims := [(16, 0x400)], ro := 0xFFFFFFFF },
   { base := 0x800018, dims := [(16, 0x400)], ro := 0xFFFFFFFF },
   { base := 0x80001C, dims := [(16, 0x400)], w1c := 0x1F },
   { base := 0x800020, dims := [(16, 0x400)], rw := 0x1F },
   { base := 0x800024, dims := [(16, 0x400)], ro := 0xF03 }]

/-- The rows of the ENG registers. -/
def rowsENG : List RegRow :=
  [{ base := 0x808000, dims := [(128, 0x100)], ro := 0xF0F },
   { base := 0x808004, dims := [(128, 0x100)], ro := 0xFFFF7F3F },
   { base := 0x808008, dims := [(128, 0x100)], ro := 0x1FF },
   { base := 0x80800C, dims := [(128, 0x100)], ro := 0xFFFFFFFF },
   { base := 0x808010, dims := [(128, 0x100)], ro := 0xFFFFFFFF },
   { base := 0x808014, dims := [(128, 0x100)], ro := 0xFFFFFFFF },
   { base := 0x808018, dims := [(128, 0x100)], ro := 0xFFFFFFFF },
   { base := 0x80801C, dims := [(128, 0x100)], ro := 0xFFFFFFFF },
   { base := 0x808020, dims := [(128, 0x100)], ro := 0xFFFFFFFF },
   { base := 0x808024, dims := [(128, 0x100)], ro := 0xFFFFFFFF },
   { base := 0x808028, dims := [(128, 0x100)], ro := 0xFFFFFFFF },
   { base := 0x80802C, dims := [(128, 0x100)], ro := 0xFFFFFFFF },
   { base := 0x808030, dims := [(128, 0x100)], ro := 0xFFFF },
   { base := 0x808034, dims := [(128, 0x100)], ro := 0x7F }]

/-- The rows of the RC registers. -/
def rowsRC : List RegRow :=
  [{ base := 0x403100, dims := [(16, 0x10000), (40, 0x40)], ro := 0x3 },
   { base := 0x403104, dims := [(16, 0x10000), (40, 0x40)], ro := 0xFFFFFFFF },
   { base := 0x403108, dims := [(16, 0x10000), (40, 0x40)], ro := 0xFFFFFFFF },
   { base := 0x40310C, dims := [(16, 0x10000), (40, 0x40)], ro := 0xFFFFFFFF },
   { base := 0x403110, dims := [(16, 0x10000), (40, 0x40)], ro := 0xFFFFFFFF },
   { base := 0x403114, dims := [(16, 0x10000), (40, 0x40)], ro := 0xFFFFFFFF },
   { base := 0x403118, dims := [(16, 0x10000), (40, 0x40)], rwf := 0xFFFFFFFF },
   { base := 0x40311C, dims := [(16, 0x10000), (40, 0x40)], rwf := 0x3F3F3F },
   { base := 0x403120, dims := [(16, 0x10000), (40, 0x40)], rwf := 0x3FF03FF },
   { base := 0x403124, dims := [(16, 0x10000), (40, 0x40)], ro := 0xFFFFFFFF },
   { base := 0x403128, dims := [(16, 0x10000), (40, 0x40)], ro := 0xFFFFFFFF },
   { base := 0x40312C, dims := [(16, 0x10000), (40, 0x40)], ro := 0xFFFF003F },
   { base := 0x403130, dims := [(16, 0x10000), (40, 0x40)], ro := 0xFFFFFFFF },
   { base := 0x403134, dims := [(16, 0x10000), (40, 0x40)], ro := 0xFFFFFFFF },
   { base := 0x403138, dims := [(16, 0x10000), (40, 0x40)], ro := 0xFFFFFFFF },
   { base := 0x40313C, dims := [(16, 0x10000), (40, 0x40)], ro := 0xFFFFFFFF }]

/-- The rows of the DU registers. -/
def rowsDU : List RegRow :=
  [{ base := 0x200000, dims := [(4, 0x1000)], ro := 0xF },
   { base := 0x200004, dims := [(4, 0x1000)], ro := 0xFFFF },
   { base := 0x200008, dims := [(4, 0x1000)], ro := 0xFFFFFFFF },
   { base := 0x20000C, dims := [(4, 0x1000)], w1c := 0x1FF },
   { base := 0x200010, dims := [(4, 0x1000)], rw := 0x1FF }]

/-- The rows of the DS registers. -/
def rowsDS : List RegRow :=
  [{ base := 0x200100, dims := [(4, 0x1000), (4, 0x100)], ro := 0x1FF },
   { base := 0x200104, dims := [(4, 0x1000), (4, 0x100)], ro := 0xFFFFFFFF },
   { base := 0x200108, dims := [(4, 0x1000), (4, 0x100)], ro := 0x1F },
   { base := 0x20010C, dims := [(4, 0x1000), (4, 0x100)], ro := 0xFFFFFFFF },
   { base := 0x200110, dims := [(4, 0x1000), (4, 0x100)], ro := 0xFFFFFFFF },
   { base := 0x200114, dims := [(4, 0x1000), (4, 0x100)], ro := 0x1 },
   { base := 0x200118, dims := [(4, 0x1000), (4, 0x100)], ro := 0xFFFFFFFF },
   { base := 0x20011C, dims := [(4, 0x1000), (4, 0x100)], rw := 0xFFFF },
   { base := 0x200120, dims := [(4, 0x1000), (4, 0x100)], ro := 0xFFFFFFFF },
   { base := 0x200124, dims := [(4, 0x1000), (4, 0x100)], ro := 0xFFFFFFFF },
   { base := 0x200128, dims := [(4, 0x1000), (4, 0x100)], ro := 0xFFFFFFFF },
   { base := 0x20012C, dims := [(4, 0x1000), (4, 0x100)], ro := 0xFFFFFFFF },
   { base := 0x200130, dims := [(4, 0x1000), (4, 0x100)], ro := 0xFFFFFFFF },
   { base := 0x200134, dims := [(4, 0x1000), (4, 0x100)], ro := 0xFFFFFFFF },
   { base := 0x200138, dims := [(4, 0x1000), (4, 0x100)], ro := 0xFFFFFFFF },
   { base := 0x20013C, dims := [(4, 0x1000), (4, 0x100)], ro := 0xFFFFFFFF },
   { base := 0x200140, dims := [(4, 0x1000), (4, 0x100)], ro := 0xFFFFFFFF },
   { base := 0x200144, dims := [(4, 0x1000), (4, 0x100)], ro := 0xFFFFFFFF },
   { base := 0x200148, dims := [(4, 0x1000), (4, 0x100)], ro := 0xFFFFFFFF },
   { base := 0x20014C, dims := [(4, 0x1000), (4, 0x100)], ro := 0xFFFFFFFF },
   { base := 0x200150, dims := [(4, 0x1000), (4, 0x100)], ro := 0xFFFF }]

/-- The rows of the CMP registers. -/
def rowsCMP : List RegRow :=
  [{ base := 0x300000, dims := [(16, 0x4000)], ro := 0xFF03 },
   { base := 0x300004, dims := [(16, 0x4000)], rwf := 0x7 },
   { base := 0x300008, dims := [(16, 0x4000)], ro := 0xFFFFFFFF },
   { base := 0x30000C, dims := [(16, 0x4000)], ro := 0xFFFFFFFF },
   { base := 0x300010, dims := [(16, 0x4000)], ro := 0xFFFFFFFF },
   { base := 0x300014, dims := [(16, 0x4000)], ro := 0xFFFFFFFF },
   { base := 0x300018, dims := [(16, 0x4000)], w1c := 0x1 },
   { base := 0x30001C, dims := [(16, 0x4000)], rw := 0x1 },
   { base := 0x300020, dims := [(16, 0x4000), (8, 0x4)], rwf := 0x3FFF3FFF }]

/-- The rows of the LY registers. -/
def rowsLY : List RegRow :=
  [{ base := 0x300400, dims := [(16, 0x4000), (8, 0x100)], rwf := 0x3FF0377 },
   { base := 0x300404, dims := [(16, 0x4000), (8, 0x100)], rwf := 0xFFFFFFFF },
   { base := 0x300408, dims := [(16, 0x4000), (8, 0x100)], rwf := 0xFFF03FF },
   { base := 0x30040C, dims := [(16, 0x4000), (8, 0x100)], ro := 0xFFFFFFFF },
   { base := 0x300410, dims := [(16, 0x4000), (8, 0x100)], ro := 0xFFF },
   { base := 0x300420, dims := [(16, 0x4000), (8, 0x100), (4, 0x4)], ro := 0xFFFFFFFF },
   { base := 0x300430, dims := [(16, 0x4000), (8, 0x100), (4, 0x4)], ro := 0xFFFFFFFF },
   { base := 0x300440, dims := [(16, 0x4000), (8, 0x100), (8, 0x4)], rwf := 0x3FFF3FFF }]

/-- The rows of the SCL registers. -/
def rowsSCL : List RegRow :=
  [{ base := 0x340000, dims := [(48, 0x4000)], ro := 0x1FF3 },
   { base := 0x340004, dims := [(48, 0x4000)], rw := 0xFFF },
   { base := 0x340008, dims := [(48, 0x4000)], rw := 0x3FF },
   { base := 0x34000C, dims := [(48, 0x4000)], ro := 0xFFFFFFFF },
   { base := 0x340010, dims := [(48, 0x4000)], ro := 0xFFFFFFFF },
   { base := 0x340014, dims := [(48, 0x4000)], ro := 0xF },
   { base := 0x340018, dims := [(48, 0x4000)], w1c := 0x3 },
   { base := 0x34001C, dims := [(48, 0x4000)], rw := 0x3 }]

/-- The rows of the OUT registers. -/
def rowsOUT : List RegRow :=
  [{ base := 0x340100, dims := [(48, 0x4000), (16, 0x40)], ro := 0x3FFF3 },
   { base := 0x340104, dims := [(48, 0x4000), (16, 0x40)], ro := 0xFFFFFFFF },
   { base := 0x340108, dims := [(48, 0x4000), (16, 0x40)], ro := 0xFFFFFFFF },
   { base := 0x34010C, dims := [(48, 0x4000), (16, 0x40)], rwf := 0xF33 },
   { base := 0x340110, dims := [(48, 0x4000), (16, 0x40)], ro := 0x1 }]

/-- The rows of the DPO registers. -/
def rowsDPO : List RegRow :=
  [{ base := 0xB0000, dims := [], ro := 0x7F },
   { base := 0xB0004, dims := [], rw := 0xF },
   { base := 0xB0008, dims := [], ro := 0x3 },
   { base := 0xB000C, dims := [], ro := 0xFFFFFFFF },
   { base := 0xB0010, dims := [], ro := 0xFFFFFFFF },
   { base := 0xB0014, dims := [], ro := 0xFFFFFFFF },
   { base := 0xB0018, dims := [], w1c := 0x1F },
   { base := 0xB001C, dims := [], rw := 0x1F },
   { base := 0xB0020, dims := [], ro := 0xFFFFFFFF },
   { base := 0xB0040, dims := [(16, 0x4)], rw := 0x7 },
   { base := 0xB0100, dims := [(16, 0x10)], ro := 0xFFFFFFFF },
   { base := 0xB0104, dims := [(16, 0x10)], ro := 0xFFFFFFFF },
   { base := 0xB0108, dims := [(16, 0x10)], ro := 0x1F1F }]

/-- The rows of the AP registers. -/
def rowsAP : List RegRow :=
  [{ base := 0xC0000, dims := [(8, 0x100)], ro := 0x1F03FF },
   { base := 0xC0004, dims := [(8, 0x100)], ro := 0xFFFFFF07 },
   { base := 0xC0008, dims := [(8, 0x100)], rw := 0xFFFF },
   { base := 0xC000C, dims := [(8, 0x100)], ro := 0xFFFF },
   { base := 0xC0010, dims := [(8, 0x100)], ro := 0xFFFFFFFF },
   { base := 0xC0014, dims := [(8, 0x100)], ro := 0xFFFFFFFF },
   { base := 0xC0018, dims := [(8, 0x100)], ro := 0xFFFFFFFF },
   { base := 0xC001C, dims := [(8, 0x100)], ro := 0xFFFFFFFF },
   { base := 0xC0020, dims := [(8, 0x100)], ro := 0xFFFFFFFF },
   { base := 0xC0024, dims := [(8, 0x100)], ro := 0xFFFFFFFF },
   { base := 0xC0028, dims := [(8, 0x100)], ro := 0xFFFFFFFF },
   { base := 0xC002C, dims := [(8, 0x100)], ro := 0xFFFFFFFF },
   { base := 0xC0030, dims := [(8, 0x100)], ro := 0x1FFF },
   { base := 0xC0034, dims := [(8, 0x100)], w1c := 0x3F },
   { base := 0xC0038, dims := [(8, 0x100)], rw := 0x3F },
   { base := 0xC003C, dims := [(8, 0x100)], ro := 0xFFFFFFFF },
   { base := 0xC0040, dims := [(8, 0x100)], ro := 0xFFFFFFFF },
   { base := 0xC0044, dims := [(8, 0x100)], ro := 0xFFFFFFFF }]

/-- The rows of the NF registers. -/
def rowsNF : List RegRow :=
  [{ base := 0xC1000, dims := [(32, 0x80)], ro := 0x7FFFF },
   { base := 0xC1004, dims := [(32, 0x80)], ro := 0xFFFF0003 },
   { base := 0xC1008, dims := [(32, 0x80)], ro := 0x1FFF },
   { base := 0xC100C, dims := [(32, 0x80)], ro := 0xFFFFFFFF },
   { base := 0xC1010, dims := [(32, 0x80)], ro := 0xFFFFFFFF },
   { base := 0xC1014, dims := [(32, 0x80)], ro := 0xFFFFFFFF },
   { base := 0xC1018, dims := [(32, 0x80)], ro := 0xFFFFFFFF },
   { base := 0xC101C, dims := [(32, 0x80)], ro := 0xFFFFFFFF },
   { base := 0xC1020, dims := [(32, 0x80)], ro := 0xFFFFFFFF },
   { base := 0xC1024, dims := [(32, 0x80)], w1c := 0x7 },
   { base := 0xC1028, dims := [(32, 0x80)], rw := 0x7 }]

/-- The rows of the PRG registers. -/
def rowsPRG : List RegRow :=
  [{ base := 0xC2000, dims := [(32, 0x40)], ro := 0x3FFF },
   { base := 0xC2004, dims := [(32, 0x40)], ro := 0xFFFFFFFF },
   { base := 0xC2008, dims := [(32, 0x40)], ro := 0xFFFFFFFF },
   { base := 0xC200C, dims := [(32, 0x40)], ro := 0xFFFFFFFF },
   { base := 0xC2010, dims := [(32, 0x40)], ro := 0xFFFFFFFF },
   { base := 0xC2020, dims := [(32, 0x40), (8, 0x4)], ro := 0xFFFFFFFF }]

/-- The rows of the EGR registers. -/
def rowsEGR : List RegRow :=
  [{ base := 0x900000, dims := [], ro := 0x1 },
   { base := 0x900004, dims := [], ro := 0xFFFFFFFF },
   { base := 0x900008, dims := [], ro := 0xFFFFFFFF },
   { base := 0x90000C, dims := [], ro := 0xFFFFFFFF },
   { base := 0x900010, dims := [], ro := 0xFFFFFFFF },
   { base := 0x900014, dims := [], ro := 0xFFFFFFFF },
   { base := 0x900018, dims := [], ro := 0xFFFFFFFF },
   { base := 0x90001C, dims := [], ro := 0xFFFFFFFF },
   { base := 0x900020, dims := [], ro := 0xFFFFFFFF },
   { base := 0x900024, dims := [], ro := 0x1F },
   { base := 0x900028, dims := [], ro := 0xFFFFFFFF },
   { base := 0x900100, dims := [(16, 0x4)], w1c := 0xFF },
   { base := 0x900140, dims := [(16, 0x4)], rw := 0xFF },
   { base := 0x900180, dims := [(24, 0x4)], ro := 0x1 }]

/-- The rows of the STR registers. -/
def rowsSTR : List RegRow :=
  [{ base := 0x910000, dims := [(1024, 0x40)], ro := 0x3FF },
   { base := 0x910004, dims := [(1024, 0x40)], ro := 0x3 },
   { base := 0x910008, dims := [(1024, 0x40)], ro := 0xFFFF },
   { base := 0x91000C, dims := [(1024, 0x40)], ro := 0xFFFFFFFF },
   { base := 0x910010, dims := [(1024, 0x40)], ro := 0xFFFFFFFF },
   { base := 0x910014, dims := [(1024, 0x40)], ro := 0xFFFFFFFF },
   { base := 0x910018, dims := [(1024, 0x40)], ro := 0xFFFFFFFF },
   { base := 0x91001C, dims := [(1024, 0x40)], ro := 0xFFFFFFFF },
   { base := 0x910020, dims := [(1024, 0x40)], ro := 0xFFFFFFFF },
   { base := 0x910024, dims := [(1024, 0x40)], ro := 0xFFFFFFFF },
   { base := 0x910028, dims := [(1024, 0x40)], ro := 0xFFFFFFFF },
   { base := 0x91002C, dims := [(1024, 0x40)], ro := 0xFFFFFFFF },
   { base := 0x910030, dims := [(1024, 0x40)], ro := 0xFFFFFFFF },
   { base := 0x910034, dims := [(1024, 0x40)], ro := 0xFFFFFFFF },
   { base := 0x910038, dims := [(1024, 0x40)], ro := 0xFFFFFFFF }]

/-- The rows of the TIM registers. -/
def rowsTIM : List RegRow :=
  [{ base := 0x40000, dims := [], ro := 0x7 },
   { base := 0x40004, dims := [], rw := 0x1 },
   { base := 0x40008, dims := [], rw := 0x7 },
   { base := 0x40010, dims := [], ro := 0xFFFFFFFF },
   { base := 0x40014, dims := [], ro := 0xFFFFFFFF },
   { base := 0x40018, dims := [], ro := 0x3FFFFFFF },
   { base := 0x4001C, dims := [], ro := 0xFFFFFFFF },
   { base := 0x40020, dims := [], ro := 0xFFFF },
   { base := 0x40040, dims := [], wo := 0xFF03 },
   { base := 0x40044, dims := [], ro := 0xFFFF },
   { base := 0x40048, dims := [], rw := 0xFFFFFFFF },
   { base := 0x4004C, dims := [], rw := 0xFFFFFFFF },
   { base := 0x40050, dims := [], rw := 0xFFFF },
   { base := 0x40054, dims := [], rw := 0xFFFFFFFF },
   { base := 0x40058, dims := [], rw := 0xFF },
   { base := 0x40060, dims := [], ro := 0xFFFFFFFF },
   { base := 0x40064, dims := [], ro := 0xFFFFFFFF },
   { base := 0x40068, dims := [], ro := 0xFFFFFFFF },
   { base := 0x4006C, dims := [], ro := 0xFFFFFFFF },
   { base := 0x40070, dims := [], ro := 0xFFFFFFFF },
   { base := 0x40074, dims := [], ro := 0x7FF },
   { base := 0x40078, dims := [], ro := 0xFFFFFFFF },
   { base := 0x4007C, dims := [], ro := 0xFF },
   { base := 0x40080, dims := [], ro := 0xFF03 },
   { base := 0x40084, dims := [], ro := 0xFFFFFFFF },
   { base := 0x40088, dims := [], ro := 0xFFFFFFFF },
   { base := 0x4008C, dims := [], ro := 0xFFFFFFFF },
   { base := 0x40090, dims := [], ro := 0xFFFFFFFF },
   { base := 0x40094, dims := [], ro := 0xFFFFFFFF },
   { base := 0x40098, dims := [], ro := 0xFFFFFFFF },
   { base := 0x4009C, dims := [], ro := 0xFFFFFFFF },
   { base := 0x400A0, dims := [], ro := 0xFFFFFFFF },
   { base := 0x400A4, dims := [], rw := 0x1FF7FFFF },
   { base := 0x400A8, dims := [], rw := 0xFFFFFF },
   { base := 0x400AC, dims := [], w1c := 0x1FFFF },
   { base := 0x400B0, dims := [], rw := 0x1FFFF },
   { base := 0x40100, dims := [(8, 0x10)], rw := 0xFFFFFFFF },
   { base := 0x40104, dims := [(8, 0x10)], rw := 0xFFFFFFFF },
   { base := 0x40108, dims := [(8, 0x10)], rw := 0xFFFFFFFF },
   { base := 0x4010C, dims := [(8, 0x10)], ro := 0xFF00, rw := 0x1 }]

/-- The rows of the TXP registers. -/
def rowsTXP : List RegRow :=
  [{ base := 0x40400, dims := [(24, 0x40)], ro := 0xFFFFFFFF },
   { base := 0x40404, dims := [(24, 0x40)], ro := 0xFFFFFFFF },
   { base := 0x40408, dims := [(24, 0x40)], ro := 0xFFFFFFFF },
   { base := 0x4040C, dims := [(24, 0x40)], ro := 0xFFFFFFFF },
   { base := 0x40410, dims := [(24, 0x40)], ro := 0x7F, w1c := 0x100 },
   { base := 0x40414, dims := [(24, 0x40)], ro := 0xFFFFFFFF },
   { base := 0x40418, dims := [(24, 0x40)], ro := 0xFFFFFFFF },
   { base := 0x4041C, dims := [(24, 0x40)], ro := 0xFFFFFFFF },
   { base := 0x40420, dims := [(24, 0x40)], ro := 0xFFFFFFFF }]

/-- The rows of the LANE registers. -/
def rowsLANE : List RegRow :=
  [{ base := 0xA0000, dims := [], ro := 0x1F },
   { base := 0xA0004, dims := [(6, 0x4)], ro := 0xFF }]

/-- The rows of the LN registers. -/
def rowsLN : List RegRow :=
  [{ base := 0xA1000, dims := [(48, 0x40)], ro := 0x7FF },
   { base := 0xA1004, dims := [(48, 0x40)], rw := 0x1 },
   { base := 0xA1008, dims := [(48, 0x40)], ro := 0xFFFFFFFF },
   { base := 0xA100C, dims := [(48, 0x40)], ro := 0xFFFFFFFF },
   { base := 0xA1010, dims := [(48, 0x40)], ro := 0xFFFFFFFF },
   { base := 0xA1014, dims := [(48, 0x40)], ro := 0xFFFF },
   { base := 0xA1018, dims := [(48, 0x40)], w1c := 0xF },
   { base := 0xA101C, dims := [(48, 0x40)], rw := 0xF }]

/-- The rows of the P registers. -/
def rowsP : List RegRow :=
  [{ base := 0xA3000, dims := [(24, 0x100)], ro := 0x7FFF },
   { base := 0xA3004, dims := [(24, 0x100)], ro := 0x1FFF0F },
   { base := 0xA3008, dims := [(24, 0x100)], rw := 0x1 },
   { base := 0xA300C, dims := [(24, 0x100)], wo := 0x1 },
   { base := 0xA3010, dims := [(24, 0x100)], ro := 0xFFFFFFFF },
   { base := 0xA3014, dims := [(24, 0x100)], ro := 0xFFFFFFFF },
   { base := 0xA3018, dims := [(24, 0x100)], ro := 0xFFFFFFFF },
   { base := 0xA301C, dims := [(24, 0x100)], ro := 0xFFFFFFFF },
   { base := 0xA3020, dims := [(24, 0x100)], ro := 0xFFFFFFFF },
   { base := 0xA3024, dims := [(24, 0x100)], ro := 0xFFFFFFFF },
   { base := 0xA3028, dims := [(24, 0x100)], ro := 0xFFFFFFFF },
   { base := 0xA302C, dims := [(24, 0x100)], ro := 0xFFFFFFFF },
   { base := 0xA3030, dims := [(24, 0x100)], ro := 0xFFFFFFFF },
   { base := 0xA3034, dims := [(24, 0x100)], ro := 0xFFFFFFFF },
   { base := 0xA3038, dims := [(24, 0x100)], ro := 0xFFFFFFFF },
   { base := 0xA303C, dims := [(24, 0x100)], ro := 0xFFFF },
   { base := 0xA3040, dims := [(24, 0x100)], rw := 0xFFFF },
   { base := 0xA3044, dims := [(24, 0x100)], w1c := 0x3F },
   { base := 0xA3048, dims := [(24, 0x100)], rw := 0x3F }]

/-- The rows of the RXF registers. -/
def rowsRXF : List RegRow :=
  [{ base := 0xA5000, dims := [(128, 0x40)], ro := 0x7FFFF },
   { base := 0xA5004, dims := [(128, 0x40)], ro := 0x3 },
   { base := 0xA5008, dims := [(128, 0x40)], ro := 0xFFFFFFFF },
   { base := 0xA500C, dims := [(128, 0x40)], ro := 0xFFFFFFFF },
   { base := 0xA5010, dims := [(128, 0x40)], ro := 0xFFFFFFFF },
   { base := 0xA5014, dims := [(128, 0x40)], ro := 0xFFFFFFFF },
   { base := 0xA5018, dims := [(128, 0x40)], ro := 0xFFFFFFFF },
   { base := 0xA501C, dims := [(128, 0x40)], ro := 0xFFFFFFFF },
   { base := 0xA5020, dims := [(128, 0x40)], ro := 0xFFFFFFFF },
   { base := 0xA5024, dims := [(128, 0x40)], ro := 0xFFFFFFFF },
   { base := 0xA5028, dims := [(128, 0x40)], ro := 0xFFFFFFFF },
   { base := 0xA502C, dims := [(128, 0x40)], ro := 0xFFFFFFFF },
   { base := 0xA5030, dims := [(128, 0x40)], w1c := 0xF },
   { base := 0xA5034, dims := [(128, 0x40)], rw := 0xF }]

/-- The rows of the OX registers. -/
def rowsOX : List RegRow :=
  [{ base := 0x100000, dims := [(10, 0x10000)], ro := 0x3F },
   { base := 0x100004, dims := [(10, 0x10000)], ro := 0x7D },
   { base := 0x100008, dims := [(10, 0x10000)], ro := 0xFFFFFFFF },
   { base := 0x10000C, dims := [(10, 0x10000)], ro := 0xFFFFFFFF },
   { base := 0x100010, dims := [(10, 0x10000)], ro := 0xFFF },
   { base := 0x100014, dims := [(10, 0x10000)], rw := 0xF },
   { base := 0x100018, dims := [(10, 0x10000)], rw := 0x1 },
   { base := 0x10001C, dims := [(10, 0x10000)], rw := 0x3FF0001 },
   { base := 0x100020, dims := [(10, 0x10000)], wo := 0xFF03 },
   { base := 0x100024, dims := [(10, 0x10000)], ro := 0xFFFF07 },
   { base := 0x100028, dims := [(10, 0x10000)], rw := 0xFF01 },
   { base := 0x10002C, dims := [(10, 0x10000)], ro := 0xFFFFFFFF },
   { base := 0x100030, dims := [(10, 0x10000)], ro := 0xFFFFFFFF },
   { base := 0x100034, dims := [(10, 0x10000)], ro := 0xFFFFFFFF },
   { base := 0x100038, dims := [(10, 0x10000)], ro := 0xFFFFFFFF },
   { base := 0x10003C, dims := [(10, 0x10000)], ro := 0xFFFFFFFF },
   { base := 0x100040, dims := [(10, 0x10000)], ro := 0xFFFFFFFF },
   { base := 0x100044, dims := [(10, 0x10000)], ro := 0xFFFFFFFF },
   { base := 0x100048, dims := [(10, 0x10000)], ro := 0xFFFFFFFF },
   { base := 0x10004C, dims := [(10, 0x10000)], ro := 0xFFFFFFFF },
   { base := 0x100050, dims := [(10, 0x10000)], ro := 0xFFFFFFFF },
   { base := 0x100054, dims := [(10, 0x10000)], ro := 0xFFFFFFFF },
   { base := 0x100058, dims := [(10, 0x10000)], ro := 0xFFFFFFFF },
   { base := 0x10005C, dims := [(10, 0x10000)], ro := 0xFFFFFFFF },
   { base := 0x100060, dims := [(10, 0x10000)], ro := 0xFFF },
   { base := 0x100064, dims := [(10, 0x10000)], ro := 0xFFFFFFFF },
   { base := 0x100068, dims := [(10, 0x10000)], ro := 0xFFFF },
   { base := 0x10006C, dims := [(10, 0x10000)], ro := 0xFFFFFFFF },
   { base := 0x100070, dims := [(10, 0x10000)], ro := 0xFFFFFFFF },
   { base := 0x100074, dims := [(10, 0x10000)], ro := 0xFFFFFFFF },
   { base := 0x100078, dims := [(10, 0x10000)], ro := 0xFFFFFFFF },
   { base := 0x10007C, dims := [(10, 0x10000)], ro := 0xFFFFFFFF },
   { base := 0x100080, dims := [(10, 0x10000)], ro := 0xFFFFFFFF },
   { base := 0x100084, dims := [(10, 0x10000)], w1c := 0xFFF },
   { base := 0x100088, dims := [(10, 0x10000)], rw := 0xFFF },
   { base := 0x100090, dims := [(10, 0x10000), (4, 0x4)], ro := 0xFFFFFFFF }]

/-- The rows of the Q registers. -/
def rowsQ : List RegRow :=
  [{ base := 0x1000000, dims := [(32768, 0x40)], ro := 0x3FF },
   { base := 0x1000004, dims := [(32768, 0x40)], ro := 0x7FFF },
   { base := 0x1000008, dims := [(32768, 0x40)], rw := 0xFFFFFFFF },
   { base := 0x100000C, dims := [(32768, 0x40)], rw := 0xFFFFFFFF },
   { base := 0x1000010, dims := [(32768, 0x40)], rw := 0xF1 },
   { base := 0x1000014, dims := [(32768, 0x40)], ro := 0xFFFF },
   { base := 0x1000018, dims := [(32768, 0x40)], ro := 0xFFFF },
   { base := 0x100001C, dims := [(32768, 0x40)], ro := 0x7FFF07 },
   { base := 0x1000020, dims := [(32768, 0x40)], ro := 0xFFFFFFFF },
   { base := 0x1000024, dims := [(32768, 0x40)], ro := 0xFFFFFFFF }]

/-- The rows of the QUE registers. -/
def rowsQUE : List RegRow :=
  [{ base := 0x60000, dims := [], ro := 0x1FFFF },
   { base := 0x60004, dims := [], ro := 0x1FFFF },
   { base := 0x60008, dims := [], ro := 0xFFFFFFFF },
   { base := 0x6000C, dims := [], ro := 0xFFFFFFFF }]

/-- The rows of the GRP registers. -/
def rowsGRP : List RegRow :=
  [{ base := 0x61000, dims := [(256, 0x10)], rw := 0xFFFFFFFF },
   { base := 0x61004, dims := [(256, 0x10)], ro := 0xFFFF0003 },
   { base := 0x61008, dims := [(256, 0x10)], rw := 0x1 }]

/-- The rows of the HOST registers. -/
def rowsHOST : List RegRow :=
  [{ base := 0x70000, dims := [], ro := 0x1FFF },
   { base := 0x70004, dims := [], rw := 0xFF },
   { base := 0x70008, dims := [], ro := 0xFFFFFFFF },
   { base := 0x7000C, dims := [], ro := 0xFFFFFFFF },
   { base := 0x70010, dims := [], ro := 0xFFFFFFFF },
   { base := 0x70014, dims := [], ro := 0xFFFFFFFF },
   { base := 0x70020, dims := [(4, 0x4)], rw := 0xFFF07FF }]

/-- The rows of the MBX registers. -/
def rowsMBX : List RegRow :=
  [{ base := 0x70100, dims := [(4, 0x100), (16, 0x4)], rw := 0xFFFFFFFF },
   { base := 0x70140, dims := [(4, 0x100), (16, 0x4)], ro := 0xFFFFFFFF },
   { base := 0x70180, dims := [(4, 0x100)], wo := 0x3 },
   { base := 0x70184, dims := [(4, 0x100)], ro := 0x3 },
   { base := 0x70188, dims := [(4, 0x100)], rw := 0x3 },
   { base := 0x7018C, dims := [(4, 0x100)], ro := 0xFFFFFFFF }]

/-- The rows of the IRQ registers. -/
def rowsIRQ : List RegRow :=
  [{ base := 0x50000, dims := [], ro := 0xFFFFFFFF },
   { base := 0x50004, dims := [], ro := 0xFFFFFFFF },
   { base := 0x50008, dims := [], ro := 0xFFFFFFFF },
   { base := 0x5000C, dims := [], ro := 0xFFFFFFFF },
   { base := 0x50080, dims := [(16, 0x4)], ro := 0xFFFFFFFF },
   { base := 0x500C0, dims := [(16, 0x4)], rw := 0xFFFFFFFF },
   { base := 0x50100, dims := [(16, 0x4)], rw := 0xFFFFFFFF },
   { base := 0x50140, dims := [(16, 0x4)], ro := 0xFFFFFFFF },
   { base := 0x50180, dims := [(16, 0x4)], w1c := 0xFFFFFFFF },
   { base := 0x501C0, dims := [(2, 0x4)], w1s := 0xFFFFFFFF },
   { base := 0x501C8, dims := [(2, 0x4)], w1c := 0xFFFFFFFF },
   { base := 0x51000, dims := [(500, 0x4)], ro := 0x10000, rw := 0xFF07 }]

/-- The rows of the TGT registers. -/
def rowsTGT : List RegRow :=
  [{ base := 0x50200, dims := [(8, 0x40)], rw := 0x71 },
   { base := 0x50204, dims := [(8, 0x40)], rw := 0x1FF },
   { base := 0x50208, dims := [(8, 0x40)], ro := 0x1FF },
   { base := 0x5020C, dims := [(8, 0x40)], wo := 0x1FF },
   { base := 0x50210, dims := [(8, 0x40)], ro := 0x1FF },
   { base := 0x50214, dims := [(8, 0x40)], ro := 0x1FF01FF },
   { base := 0x50218, dims := [(8, 0x40)], ro := 0xF },
   { base := 0x5021C, dims := [(8, 0x40)], ro := 0xFFFFFFFF }]

/-- The rows of the GOOSE registers. -/
def rowsGOOSE : List RegRow :=
  [{ base := 0x30000, dims := [], ro := 0x1 },
   { base := 0x30004, dims := [], w1c := 0xFFFF },
   { base := 0x30008, dims := [], rw := 0xFFFF },
   { base := 0x3000C, dims := [], ro := 0xFFFFFFFF },
   { base := 0x30010, dims := [], ro := 0xFFFFFFFF },
   { base := 0x30014, dims := [], ro := 0xFFFFFFFF },
   { base := 0x30018, dims := [], ro := 0xFFFFFFFF },
   { base := 0x3001C, dims := [], ro := 0xFFFFFFFF },
   { base := 0x30020, dims := [], rw := 0xFFFFFFFF },
   { base := 0x30024, dims := [], rw := 0xFFFFFFFF },
   { base := 0x30028, dims := [], w1c := 0xFF },
   { base := 0x3002C, dims := [], rw := 0xFF },
   { base := 0x30030, dims := [], ro := 0xFFFFFFFF },
   { base := 0x30040, dims := [(8, 0x4)], ro := 0xFFFFFFFF },
   { base := 0x30100, dims := [(6, 0x10)], ro := 0xFFFFFFFF },
   { base := 0x30104, dims := [(6, 0x10)], ro := 0xFFFFFFFF },
   { base := 0x30108, dims := [(6, 0x10)], ro := 0xFFFFFFFF },
   { base := 0x30200, dims := [], rw := 0x7F07 },
   { base := 0x30204, dims := [], ro := 0xFFFFFFFF },
   { base := 0x30208, dims := [], ro := 0xFFFFFFFF },
   { base := 0x3020C, dims := [], ro := 0xFFFFFFFF },
   { base := 0x31000, dims := [], rw := 0xFFFF0001 },
   { base := 0x31004, dims := [], ro := 0xFFFFFFFF },
   { base := 0x31008, dims := [], ro := 0xFFFFFFFF },
   { base := 0x3100C, dims := [], rw := 0xFFFF },
   { base := 0x31010, dims := [], ro := 0xFFFFFFFF },
   { base := 0x31014, dims := [], ro := 0xFFFFFFFF },
   { base := 0x31018, dims := [], ro := 0xFFFFFFFF },
   { base := 0x3101C, dims := [], ro := 0xFFFFFFFF },
   { base := 0x31020, dims := [], w1c := 0x7 },
   { base := 0x31024, dims := [], rw := 0x7 },
   { base := 0x31040, dims := [(16, 0x4)], ro := 0xFFFFFFFF }]

/-- The rows of the CK registers. -/
def rowsCK : List RegRow :=
  [{ base := 0x80000, dims := [(8, 0x100)], ro := 0x10, rw := 0xF },
   { base := 0x80004, dims := [(8, 0x100)], wo := 0x7 },
   { base := 0x80008, dims := [(8, 0x100)], wo := 0xFF },
   { base := 0x8000C, dims := [(8, 0x100)], wo := 0xFFFF },
   { base := 0x80010, dims := [(8, 0x100)], wo := 0xFFFFFFFF },
   { base := 0x80014, dims := [(8, 0x100)], ro := 0xFFFFFFFF },
   { base := 0x80018, dims := [(8, 0x100)], ro := 0xFFFFFFFF },
   { base := 0x8001C, dims := [(8, 0x100)], rw := 0xFFFFFFFF },
   { base := 0x80020, dims := [(8, 0x100)], rw := 0xFF },
   { base := 0x80024, dims := [(8, 0x100)], ro := 0xFF1F },
   { base := 0x80028, dims := [(8, 0x100)], ro := 0xFFFFFFFF },
   { base := 0x8002C, dims := [(8, 0x100)], ro := 0xFFFFFFFF },
   { base := 0x80030, dims := [(8, 0x100)], ro := 0xFFFFFFFF },
   { base := 0x80034, dims := [(8, 0x100)], ro := 0xFFFFFFFF },
   { base := 0x80038, dims := [(8, 0x100)], ro := 0xFFFFFFFF },
   { base := 0x8003C, dims := [(8, 0x100)], w1c := 0xF },
   { base := 0x80040, dims := [(8, 0x100)], rw := 0xF }]

/-- The rows of the MULE registers. -/
def rowsMULE : List RegRow :=
  [{ base := 0x90000, dims := [], ro := 0x7F },
   { base := 0x90004, dims := [], ro := 0x1, rw := 0x1C },
   { base := 0x90008, dims := [], wo := 0xF },
   { base := 0x9000C, dims := [], ro := 0xFFFFFFFF },
   { base := 0x90010, dims := [], ro := 0xFFFFFFFF },
   { base := 0x90014, dims := [], ro := 0xFFFFFFFF },
   { base := 0x90018, dims := [], rw := 0xFFFF },
   { base := 0x9001C, dims := [], ro := 0xFFFFFFFF },
   { base := 0x90020, dims := [], ro := 0xFFFFFFFF },
   { base := 0x90024, dims := [], ro := 0xFFFFFFFF },
   { base := 0x90028, dims := [], ro := 0xFFFFFFFF },
   { base := 0x9002C, dims := [], ro := 0xFFFFFFFF },
   { base := 0x90030, dims := [], ro := 0xFFFFFFFF },
   { base := 0x90034, dims := [], ro := 0xFFFFFFFF },
   { base := 0x90038, dims := [], ro := 0xFFFFFFFF },
   { base := 0x9003C, dims := [], ro := 0xFFFFFFFF },
   { base := 0x90040, dims := [], ro := 0xFFFFFFFF },
   { base := 0x90044, dims := [], ro := 0xFFFFFFFF },
   { base := 0x90048, dims := [], ro := 0xFFFFFFFF },
   { base := 0x9004C, dims := [], ro := 0xFFFFFFFF },
   { base := 0x90050, dims := [], ro := 0xFFFFFFFF },
   { base := 0x90054, dims := [], ro := 0xFFFFFFFF },
   { base := 0x90058, dims := [], ro := 0xFFFFFFFF },
   { base := 0x9005C, dims := [], ro := 0xFFFFFFFF },
   { base := 0x90060, dims := [], w1c := 0x3FF },
   { base := 0x90064, dims := [], rw := 0x3FF },
   { base := 0x90068, dims := [], ro := 0xFFFFFFFF },
   { base := 0x9006C, dims := [], ro := 0xFFFF },
   { base := 0x90070, dims := [(4, 0x4)], ro := 0x7 }]

/-- The rows of the CAL registers. -/
def rowsCAL : List RegRow :=
  [{ base := 0x20000, dims := [], ro := 0x1FF },
   { base := 0x20004, dims := [], rw := 0xFFFFFF01 },
   { base := 0x20008, dims := [], wo := 0x70 },
   { base := 0x2000C, dims := [], ro := 0xFFF },
   { base := 0x20010, dims := [], rw := 0x3FF },
   { base := 0x20014, dims := [], rw := 0xFFFF0001 },
   { base := 0x20018, dims := [], ro := 0x7FF03FF },
   { base := 0x2001C, dims := [], ro := 0xFFFFF },
   { base := 0x20020, dims := [], w1c := 0xFF7F },
   { base := 0x20024, dims := [], rw := 0xFF7F },
   { base := 0x20028, dims := [], w1c := 0xF },
   { base := 0x2002C, dims := [], rw := 0xF },
   { base := 0x20030, dims := [], ro := 0xFFFFFFFF },
   { base := 0x20034, dims := [], rw := 0x73FF },
   { base := 0x20038, dims := [], ro := 0xFFF03FF },
   { base := 0x2003C, dims := [], ro := 0x3FF },
   { base := 0x20100, dims := [(7, 0x20)], ro := 0xFFFFFFFF },
   { base := 0x20104, dims := [(7, 0x20)], ro := 0xFFFFFFFF },
   { base := 0x20108, dims := [(7, 0x20)], ro := 0xFFFFFFFF },
   { base := 0x2010C, dims := [(7, 0x20)], ro := 0xFFFFFFFF },
   { base := 0x20110, dims := [(7, 0x20)], ro := 0xFFFF },
   { base := 0x20114, dims := [(7, 0x20)], ro := 0xFFFFFFFF },
   { base := 0x20200, dims := [(20, 0x4)], ro := 0x1FFF },
   { base := 0x20280, dims := [(8, 0x4)], ro := 0x17FF },
   { base := 0x20300, dims := [(16, 0x4)], ro := 0x1FFFF }]

/-- The rows of the GLB registers. -/
def rowsGLB : List RegRow :=
  [{ base := 0x0, dims := [], ro := 0xFFFFFFFF },
   { base := 0x4, dims := [], ro := 0xFF07 },
   { base := 0x8, dims := [], ro := 0xFF07 },
   { base := 0xC, dims := [], ro := 0x3 },
   { base := 0x10, dims := [], ro := 0xFFFFFFFF },
   { base := 0x14, dims := [], ro := 0xFF07 },
   { base := 0x18, dims := [], ro := 0xFFFFFFFF }]

/-- The rows of the blocks that lie where an offset points. -/
def rowsNear (a : Nat) : List RegRow :=
  if a < 0x10000 then rowsGLB
  else if a < 0x20000 then rowsIMG
  else if a < 0x30000 then rowsCAL
  else if a < 0x40000 then rowsGOOSE
  else if a < 0x50000 then rowsTIM ++ rowsTXP
  else if a < 0x60000 then rowsIRQ ++ rowsTGT
  else if a < 0x70000 then rowsQUE ++ rowsGRP
  else if a < 0x80000 then rowsHOST ++ rowsMBX
  else if a < 0x90000 then rowsCK
  else if a < 0xA0000 then rowsMULE
  else if a < 0xB0000 then rowsLANE ++ rowsLN ++ rowsP ++ rowsRXF
  else if a < 0xC0000 then rowsDPO
  else if a < 0x100000 then rowsAP ++ rowsNF ++ rowsPRG
  else if a < 0x200000 then rowsOX
  else if a < 0x300000 then rowsDU ++ rowsDS
  else if a < 0x340000 then rowsCMP ++ rowsLY
  else if a < 0x400000 then rowsSCL ++ rowsOUT
  else if a < 0x800000 then rowsCH ++ rowsRC
  else if a < 0x900000 then rowsCL ++ rowsENG
  else if a < 0x1000000 then rowsEGR ++ rowsSTR
  else rowsQ

/-- Whether offset `d` from a row's base is an instance of the row, its outer indices first. -/
def dimsHit : List (Nat × Nat) → Nat → Bool
  | [], d => d == 0
  | (c, st) :: rest, d => d / st < c && dimsHit rest (d % st)

/-- The bits that one instance of a register has, where its reserved bits are more than its row's: word 15 of the maps of
sources (R406), SRC_CFG of source 497 (R408), word 7 of a matrix and the registers of layer 0 (R238). -/
def bitsAt (a : Nat) : Nat :=
  if [0x500BC, 0x500FC, 0x5013C, 0x5017C, 0x501BC].contains a then 0xFFFFF
  else if a = 0x517C4 then 0x1FF00
  else if 0x300000 ≤ a && a < 0x340000 then
    let o := a % 0x4000
    if o = 0x3C then 0x3FFF
    else if 0x400 ≤ o && o < 0x500 then (if o = 0x400 then 0x70 else 0)
    else if 0x500 ≤ o && o < 0xC00 && o % 0x100 = 0x5C then 0x3FFF
    else 0xFFFFFFFF
  else 0xFFFFFFFF

/-- A row's masks cut down to some bits. -/
def RegRow.only (r : RegRow) (m : Nat) : RegRow :=
  { r with ro := r.ro &&& m, rw := r.rw &&& m, rwf := r.rwf &&& m, w1c := r.w1c &&& m, w1s := r.w1s &&& m, wo := r.wo &&& m,
           rc := r.rc &&& m }

/-- The row that holds the register at an offset, with the bits that instance has; none for a reserved location. -/
def rowAt (a : Nat) : Option RegRow :=
  ((rowsNear a).find? (fun r => r.base ≤ a && dimsHit r.dims (a - r.base))).map (fun r => r.only (bitsAt a))

/-- The offset of a register with a reset value other than 0, the count and stride of its indices, and the reset value
at a distance from the base. -/
structure ResetRow where
  base : Nat
  dims : List (Nat × Nat)
  value : Nat → Word

/-- The registers whose reset value is not 0. -/
def resetRows : List ResetRow :=
  [⟨0x400100, [(16, 0x10000)], fun _ => 0x70#32⟩,
   ⟨0x400104, [(16, 0x10000)], fun _ => 0x14000#32⟩,
   ⟨0x400400, [(16, 0x10000), (40, 0x4)], fun d => 0x700#32 + BitVec.ofNat 32 (((d % 65536) / 4) * 0x1000)⟩,
   ⟨0x401010, [(16, 0x10000)], fun _ => 0x208C0#32⟩,
   ⟨0x40311C, [(16, 0x10000), (40, 0x40)], fun _ => 0x1E3F00#32⟩,
   ⟨0x403120, [(16, 0x10000), (40, 0x40)], fun _ => 0xC00300#32⟩,
   ⟨0x40312C, [(16, 0x10000), (40, 0x40)], fun _ => 0xFFFF0000#32⟩,
   ⟨0x403130, [(16, 0x10000), (40, 0x40)], fun _ => 0x20000#32⟩,
   ⟨0x403134, [(16, 0x10000), (40, 0x40)], fun _ => 0x20000#32⟩,
   ⟨0x300004, [(16, 0x4000)], fun _ => 0x4#32⟩,
   ⟨0x300400, [(16, 0x4000), (8, 0x100)], fun d => if ((d % 16384) / 256) = 0 then 0x20#32 else 0x03FF0010#32⟩,
   ⟨0x300408, [(16, 0x4000), (8, 0x100)], fun d => if ((d % 16384) / 256) = 0 then 0#32 else 0x1000000#32⟩,
   ⟨0x34010C, [(48, 0x4000), (16, 0x40)], fun _ => 0x800#32⟩,
   ⟨0xB0004, [], fun _ => 0xD#32⟩,
   ⟨0xC0008, [(8, 0x100)], fun _ => 0xFFFF#32⟩,
   ⟨0xC000C, [(8, 0x100)], fun _ => 0xFFFF#32⟩,
   ⟨0x40000, [], fun _ => 0x2#32⟩,
   ⟨0x400A4, [], fun _ => 0x7F70000#32⟩,
   ⟨0xA1000, [(48, 0x40)], fun _ => 0x7E0#32⟩,
   ⟨0x100014, [(10, 0x10000)], fun _ => 0x8#32⟩,
   ⟨0x10001C, [(10, 0x10000)], fun _ => 0xA0001#32⟩,
   ⟨0x100028, [(10, 0x10000)], fun _ => 0x1801#32⟩,
   ⟨0x1000010, [(32768, 0x40)], fun _ => 0x40#32⟩,
   ⟨0x61000, [(256, 0x10)], fun _ => 0x320010#32⟩,
   ⟨0x61008, [(256, 0x10)], fun _ => 0x1#32⟩,
   ⟨0x70004, [], fun _ => 0xA#32⟩,
   ⟨0x70020, [(4, 0x4)], fun d => 0x02000000#32 + BitVec.ofNat 32 ((d / 4) * 0x200)⟩,
   ⟨0x500C0, [(16, 0x4)], fun d => if (d / 4) = 15 then 0x000E0000#32 else 0#32⟩,
   ⟨0x51000, [(500, 0x4)], fun d => if (d / 4) = 497 then 0x00018000#32 else 0x00008004#32⟩,
   ⟨0x50200, [(8, 0x40)], fun _ => 0x1#32⟩,
   ⟨0x50204, [(8, 0x40)], fun _ => 0x100#32⟩,
   ⟨0x50208, [(8, 0x40)], fun _ => 0x1FF#32⟩,
   ⟨0x50210, [(8, 0x40)], fun _ => 0x1FF#32⟩,
   ⟨0x50214, [(8, 0x40)], fun _ => 0x100#32⟩,
   ⟨0x50218, [(8, 0x40)], fun _ => 0x1#32⟩,
   ⟨0x30100, [(6, 0x10)], fun d => [0x000A0040#32, 0x00640008#32, 0x000A03E8#32, 0x02580003#32, 0x000A0004#32, 0x00640064#32].getD (d / 16) 0#32⟩,
   ⟨0x80024, [(8, 0x100)], fun _ => 0x10#32⟩,
   ⟨0x90004, [], fun _ => 0x1C#32⟩,
   ⟨0x9001C, [], fun _ => 0xBBBBBBBB#32⟩,
   ⟨0x90020, [], fun _ => 0xBBBBBBBB#32⟩,
   ⟨0x31000, [], fun _ => 0xA0001#32⟩,
   ⟨0x3100C, [], fun _ => 0xA10#32⟩,
   ⟨0x20004, [], fun _ => 0x2580A01#32⟩,
   ⟨0x20010, [], fun _ => 0x2F8#32⟩,
   ⟨0x20014, [], fun _ => 0x14CD0001#32⟩,
   ⟨0x20018, [], fun _ => 0x2EE#32⟩,
   ⟨0x0, [], fun _ => 0x9640B100#32⟩,
   ⟨0x4, [], fun _ => 0xFF01#32⟩]

/-- The reset value of the register at an offset (R8). -/
def resetAt (a : Nat) : Word :=
  match resetRows.find? (fun r => r.base ≤ a && dimsHit r.dims (a - r.base)) with
  | some r => r.value (a - r.base)
  | none => 0

/-- The register at an offset. -/
def regAt (a : Nat) : Reg := ⟨a, resetAt a⟩

end Sys2Proof.Machine
end

