-- ==== Sys2Proof/Machine/Ops.lean ====
section
/-!
DEFINITION. The named operations every meaning is written with: sparse maps, registers and their fields, counters, the
per-unit states, and the form of a command's meaning.
-/
namespace Sys2Proof.Machine

/-! ### Sparse maps: keys strictly rising -/

/-- The entry at a key. -/
def mget {α : Type} : List (Nat × α) → Nat → Option α
  | [], _ => none
  | (k, v) :: m, a => if k = a then some v else mget m a

/-- Enter a value at a key in place. -/
def mput {α : Type} : List (Nat × α) → Nat → α → List (Nat × α)
  | [], a, v => [(a, v)]
  | (k, w) :: m, a, v =>
    if a < k then (a, v) :: (k, w) :: m else if a = k then (a, v) :: m else (k, w) :: mput m a v

/-- Numbers in rising order, each once. -/
def sortNat (l : List Nat) : List Nat := (l.foldl (fun (m : List (Nat × Unit)) c => mput m c ()) []).map (fun x => x.1)

/-- Take the entry at a key out. -/
def mdel {α : Type} : List (Nat × α) → Nat → List (Nat × α)
  | [], _ => []
  | (k, w) :: m, a => if k = a then mdel m a else (k, w) :: mdel m a

/-- The keys of a sparse map rise strictly. -/
def keysRise {α : Type} : List (Nat × α) → Bool
  | [] => true
  | [_] => true
  | (a, _) :: (b, v) :: m => a < b && keysRise ((b, v) :: m)

/-- Enter a value, or take the entry out where the value is what an unlisted key holds. -/
def mset {α : Type} [DecidableEq α] (d : α) (m : List (Nat × α)) (a : Nat) (v : α) : List (Nat × α) :=
  if v = d then mdel m a else mput m a v

/-! ### Device memory and the stores: bytes at addresses -/

/-- What a byte that nothing has written reads as. DESIGN CHOICE (log entry 5). -/
def unlistedByte : Byte := 0

/-- The byte at an address. -/
def byteAt (m : List Host.Cell) (a : Nat) : Byte := (mget m a).getD unlistedByte

/-- Write one byte. -/
def putByte (m : List Host.Cell) (a : Nat) (v : Byte) : List Host.Cell := mset unlistedByte m a v

/-- `n` bytes from an address. -/
def bytesAt (m : List Host.Cell) (a : Nat) : Nat → List Byte
  | 0 => []
  | n + 1 => byteAt m a :: bytesAt m (a + 1) n

/-- Write bytes from an address. -/
def putBytes (m : List Host.Cell) (a : Nat) : List Byte → List Host.Cell
  | [] => m
  | b :: bs => putBytes (putByte m a b) (a + 1) bs

/-- A byte of the ferroelectric store: 0x1000 to 0x1FFF hold the 3,604 bytes of the endorsement, written at manufacture only (R69,
R70). -/
def storeByte (s : State) (a : Nat) : Byte :=
  if 0x1000 ≤ a && a < 0x2000 then Config.endorsement.getD (a - 0x1000) unlistedByte else byteAt s.nv a
/-- Bytes of the ferroelectric store. -/
def storeBytes (s : State) (a n : Nat) : List Byte := (List.range n).map (fun i => storeByte s (a + i))

/-- The canonical form of a store: addresses strictly rising, no entry equal to what an unlisted address reads as. -/
def Memory.wf (m : List Host.Cell) : Bool := keysRise m && m.all (fun c => c.2 != unlistedByte)

/-! ### Fields of a register -/

/-- Field [hi:lo] of a word as a number (R6). -/
def fld (v : Word) (hi lo : Nat) : Nat := (v.toNat >>> lo) % 2 ^ (hi + 1 - lo)

/-- A word with field [hi:lo] set to a number, at the field's width. -/
def setFld (v : Word) (hi lo : Nat) (x : Nat) : Word :=
  let msk := BitVec.ofNat 32 ((2 ^ (hi + 1 - lo) - 1) <<< lo)
  (v &&& ~~~msk) ||| (BitVec.ofNat 32 (x <<< lo) &&& msk)

/-- Bit `i` of a word. -/
def tbit (v : Word) (i : Nat) : Bool := v.getLsbD i

/-- The word with bit `i` alone. -/
def bitw (i : Nat) : Word := BitVec.ofNat 32 (2 ^ i)

/-- A word with bit `i` set to a value. -/
def putBit (v : Word) (i : Nat) (b : Bool) : Word := if b then v ||| bitw i else v &&& ~~~(bitw i)

/-- A word with each field (hi, lo, value) set. -/
def mkWord (fs : List (Nat × Nat × Nat)) : Word := fs.foldl (fun v f => setFld v f.1 f.2.1 f.2.2) 0

/-- A number of a Bool, as the manual writes flags. -/
def b2n (b : Bool) : Nat := if b then 1 else 0

/-- A word of a number, modulo 2^32. -/
def wordOf (n : Nat) : Word := BitVec.ofNat 32 n

/-! ### Registers -/

/-- A register's value as held: for an RWF register the value last written (R8). -/
def rd (s : State) (r : Reg) : Word := (mget s.regs r.addr).getD r.reset

/-- Give a register a value. -/
def wr (s : State) (r : Reg) (v : Word) : State := { s with regs := mset r.reset s.regs r.addr v }

/-- The value in force of an RWF register (R8, R12). -/
def rdf (s : State) (r : Reg) : Word := (mget s.force r.addr).getD r.reset

/-- Give an RWF register a value in force. -/
def wrf (s : State) (r : Reg) (v : Word) : State := { s with force := mset r.reset s.force r.addr v }

/-- Field [hi:lo] of a register. -/
def rdFld (s : State) (r : Reg) (hi lo : Nat) : Nat := fld (rd s r) hi lo

/-- Field [hi:lo] of the value in force of an RWF register. -/
def rdfFld (s : State) (r : Reg) (hi lo : Nat) : Nat := fld (rdf s r) hi lo

/-- Set field [hi:lo] of a register. -/
def wrFld (s : State) (r : Reg) (hi lo : Nat) (x : Nat) : State := wr s r (setFld (rd s r) hi lo x)

/-- Bit `i` of a register. -/
def rdBit (s : State) (r : Reg) (i : Nat) : Bool := tbit (rd s r) i

/-- Set or clear bit `i` of a register. -/
def wrBit (s : State) (r : Reg) (i : Nat) (b : Bool) : State := wr s r (putBit (rd s r) i b)

/-- Hardware sets bit `i` of an event register (R8: W1C). -/
def setEvt (s : State) (r : Reg) (i : Nat) : State := wrBit s r i true

/-- Count one event in a 32-bit counter (R10). -/
def count (s : State) (r : Reg) : State := wr s r (satInc (rd s r))

/-- Count `k` events in a 32-bit counter (R10). -/
def countBy (s : State) (r : Reg) (k : Nat) : State :=
  wr s r (wordOf (min ((rd s r).toNat + k) (2 ^ 32 - 1)))

/-- A sequence number that wraps at 32 bits goes up by one (R10). -/
def bump (s : State) (r : Reg) : State := wr s r (rd s r + 1)

/-- A value of two consecutive registers, lowest word first (R11). -/
def rd64 (s : State) (lo hi : Reg) : Nat := (rd s lo).toNat + (rd s hi).toNat * 2 ^ 32

/-- Give two consecutive registers a value of up to 64 bits. -/
def wr64 (s : State) (lo hi : Reg) (v : Nat) : State := wr (wr s lo (wordOf v)) hi (wordOf (v / 2 ^ 32))

/-- Add to a counter of two registers that stops at all ones (R10). -/
def count64 (s : State) (lo hi : Reg) (k : Nat) : State := wr64 s lo hi (min (rd64 s lo hi + k) (2 ^ 64 - 1))

/-- Give consecutive registers of an indexed name the words of a list. -/
def wrWords (s : State) (r : Nat → Reg) (i : Nat) : List Word → State
  | [] => s
  | w :: ws => wrWords (wr s (r i) w) r (i + 1) ws

/-! ### Lists of units -/

/-- Apply a state change for each element of a list, in order. -/
def forEach {α : Type} (xs : List α) (s : State) (f : α → State → State) : State := xs.foldl (fun s x => f x s) s

/-- Apply a state change where a condition holds. -/
def onlyIf (c : Bool) (s : State) (f : State → State) : State := if c then f s else s

/-- Apply a state change with the value of an option, if any. -/
def forSome {α : Type} (o : Option α) (s : State) (f : α → State → State) : State :=
  match o with
  | none => s
  | some a => f a s

/-- The state of a channel pipe. -/
def chan (s : State) (n : Nat) : Chan := s.chans.getD n Chan.reset
/-- Change the state of a channel pipe. -/
def modChan (s : State) (n : Nat) (f : Chan → Chan) : State := { s with chans := s.chans.modify n f }
/-- The state of an engine. -/
def eng (s : State) (e : Nat) : EngState := s.engs.getD e EngState.reset
/-- Change the state of an engine. -/
def modEng (s : State) (e : Nat) (f : EngState → EngState) : State := { s with engs := s.engs.modify e f }
/-- The state of a decode slot: unit `u`, slot `k`. -/
def slotOf (s : State) (u k : Nat) : SlotSt := s.slots.getD (u * 4 + k) SlotSt.reset
/-- Change the state of a decode slot. -/
def modSlot (s : State) (u k : Nat) (f : SlotSt → SlotSt) : State := { s with slots := s.slots.modify (u * 4 + k) f }
/-- The state of a serial audio port. -/
def apOf (s : State) (p : Nat) : ApSt := s.aps.getD p ApSt.reset
/-- Change the state of a serial audio port. -/
def modAp (s : State) (p : Nat) (f : ApSt → ApSt) : State := { s with aps := s.aps.modify p f }
/-- The state of a network audio flow. -/
def nfOf (s : State) (f : Nat) : NfSt := s.nfs.getD f NfSt.reset
/-- Change the state of a network audio flow. -/
def modNf (s : State) (f : Nat) (g : NfSt → NfSt) : State := { s with nfs := s.nfs.modify f g }
/-- The state of an audio programme. -/
def prgOf (s : State) (g : Nat) : PrgSt := s.prgs.getD g PrgSt.reset
/-- Change the state of an audio programme. -/
def modPrg (s : State) (g : Nat) (f : PrgSt → PrgSt) : State := { s with prgs := s.prgs.modify g f }
/-- The state of a port. -/
def portOf (s : State) (p : Nat) : PortSt := s.ports.getD p PortSt.reset
/-- Change the state of a port. -/
def modPort (s : State) (p : Nat) (f : PortSt → PortSt) : State := { s with ports := s.ports.modify p f }
/-- The state of a receive flow. -/
def flowOf (s : State) (f : Nat) : FlowSt := s.flows.getD f FlowSt.reset
/-- Change the state of a receive flow. -/
def modFlow (s : State) (f : Nat) (g : FlowSt → FlowSt) : State := { s with flows := s.flows.modify f g }
/-- The state of an Ox controller. -/
def oxOf (s : State) (i : Nat) : OxSt := s.ox.getD i OxSt.reset
/-- Change the state of an Ox controller. -/
def modOx (s : State) (i : Nat) (f : OxSt → OxSt) : State := { s with ox := s.ox.modify i f }
/-- The state of a check-value unit. -/
def ckOf (s : State) (i : Nat) : CkSt := s.cks.getD i CkSt.reset
/-- Change the state of a check-value unit. -/
def modCk (s : State) (i : Nat) (f : CkSt → CkSt) : State := { s with cks := s.cks.modify i f }
/-- The state of a mosaic tile. -/
def tileOf (s : State) (t : Nat) : TileBuf := s.tiles.getD t TileBuf.reset
/-- Change the state of a mosaic tile. -/
def modTile (s : State) (t : Nat) (f : TileBuf → TileBuf) : State := { s with tiles := s.tiles.modify t f }
/-- The queue of a queue number, if it is defined. -/
def queueOf (s : State) (q : Nat) : Option QueueSt := s.queues.find? (fun x => x.qid = q)
/-- Change the state of a queue. -/
def modQueue (s : State) (q : Nat) (f : QueueSt → QueueSt) : State :=
  { s with queues := s.queues.map (fun x => if x.qid = q then f x else x) }
/-- The stream of a stream number, if it is defined. -/
def streamOf (s : State) (i : Nat) : Option StreamSt := s.streams.find? (fun x => x.id = i)
/-- Change the state of a stream. -/
def modStream (s : State) (i : Nat) (f : StreamSt → StreamSt) : State :=
  { s with streams := s.streams.map (fun x => if x.id = i then f x else x) }

/-- A unit detects a fault event, which it reports to the Goose (R410). -/
def reportFault (s : State) (cls inst : Nat) (data : Word) : State := { s with reports := s.reports ++ [(cls, inst, s.raw, data)] }

/-- Something leaves the block. -/
def emit (s : State) (o : Output) : State := { s with out := o :: s.out }

/-- The next index of a free value; the counter goes on. -/
def takeFree (s : State) : Nat × State := (s.free, { s with free := s.free + 1 })

/-- The bytes of a draw of free values. -/
def freeBytes (x n : Nat) : List Byte := (List.range n).map (fun i => Config.freeByte x i)

/-! ### The form of a meaning -/

/-- The parts of the state that no command changes but the few that are named for it: the queue, the counter, the power
state, the cause latch, the fuses and the byte stores. -/
def keepStores (s t : State) : State :=
  { t with pending := s.pending, power := s.power, raw := s.raw, latch := s.latch, fuses := s.fuses, nv := s.nv, dev := s.dev
           treeReady := s.treeReady, treeNow := s.treeNow, treeNext := s.treeNext }

/-- The parts that the commands that write a store or a fuse still leave as they are. -/
def keepTime (s t : State) : State :=
  { t with pending := s.pending, power := s.power, raw := s.raw, latch := s.latch }

/-- A command on units the device has (`ok`), taken while the device runs; a device held in reset or shut down takes no
command (R485, R491, R492; log entry 1). -/
def act (ok : Bool) (s : State) (f : State → State) : Host.Outcome State Fault Refusal :=
  if ok then
    if s.power = .running then .next (keepStores s (f s)) else .next s
  else .refused .noSuchUnit

/-- A command that may write a byte store or the fuses. -/
def actStore (ok : Bool) (s : State) (f : State → State) : Host.Outcome State Fault Refusal :=
  if ok then
    if s.power = .running then .next (keepTime s (f s)) else .next s
  else .refused .noSuchUnit

/-- What a command that may burn fuses still leaves as it is. -/
def keepBytes (s t : State) : State :=
  { t with pending := s.pending, power := s.power, raw := s.raw, latch := s.latch, nv := s.nv, dev := s.dev
           treeReady := s.treeReady, treeNow := s.treeNow, treeNext := s.treeNext }

/-- A command that may burn fuses (R54). -/
def actFuses (ok : Bool) (s : State) (f : State → State) : Host.Outcome State Fault Refusal :=
  if ok then
    if s.power = .running then .next (keepBytes s (f s)) else .next s
  else .refused .noSuchUnit

/-- An event of the power supply or a reset pin: it acts whatever the device is doing and leaves the queue alone. -/
def actPower (s : State) (f : State → State) : Host.Outcome State Fault Refusal :=
  .next { f s with pending := s.pending }

/-- Whether a raw-counter instant has come (R19). -/
def hasCome (s : State) (t : Raw) : Bool := 0 ≤ sdiff s.raw t

end Sys2Proof.Machine
end

