-- ==== Sys2Proof/Machine/Operands.lean ====
section
/-!
DEFINITION. The operand forms: little-endian fields of descriptors, records and messages, and the check values of R424.
-/
namespace Sys2Proof.Machine

/-- `n` bytes of a number, lowest byte first (R6). -/
def leBytes : Nat → Nat → List Byte
  | 0, _ => []
  | n + 1, v => BitVec.ofNat 8 v :: leBytes n (v / 256)

/-- The number that bytes hold, lowest byte first. -/
def ofLe : List Byte → Nat
  | [] => 0
  | b :: bs => b.toNat + 256 * ofLe bs

/-- The number that bytes hold, highest byte first. -/
def ofBe (bs : List Byte) : Nat := bs.foldl (fun a b => a * 256 + b.toNat) 0

/-- `n` bytes of a number, highest byte first. -/
def beBytes (n v : Nat) : List Byte := (leBytes n v).reverse

/-- A field of `n` bytes at an offset, lowest byte first. -/
def leAt (bs : List Byte) (off n : Nat) : Nat := ofLe ((bs.drop off).take n)

/-- A field of `n` bytes at an offset, highest byte first. -/
def beAt (bs : List Byte) (off n : Nat) : Nat := ofBe ((bs.drop off).take n)

/-- A field of 8 bytes read as a signed number. -/
def leInt64 (bs : List Byte) (off : Nat) : Int := (BitVec.ofNat 64 (leAt bs off 8)).toInt

/-- The low bits of a signed number as bytes. -/
def leInt (n : Nat) (v : Int) : List Byte := leBytes n (v % (2 ^ (8 * n) : Int)).toNat

/-- `n` bytes of 0. -/
def zeros (n : Nat) : List Byte := List.replicate n 0

/-- Bytes followed by zeros to a length; longer bytes are cut. -/
def padTo (n : Nat) (bs : List Byte) : List Byte := (bs ++ zeros (n - bs.length)).take n

/-- Bytes followed by zeros to a multiple of `k`. -/
def padUp (k : Nat) (bs : List Byte) : List Byte := bs ++ zeros ((k - bs.length % k) % k)

/-- A word as four bytes. -/
def wordBytes (w : Word) : List Byte := leBytes 4 w.toNat

/-- The words that bytes hold, four bytes each. -/
def bytesWords : List Byte → List Word
  | a :: b :: c :: d :: r => wordOf (ofLe [a, b, c, d]) :: bytesWords r
  | [] => []
  | l => [wordOf (ofLe l)]

/-! ### Check values (R424) -/

/-- One bit of a reflected division by the reversed polynomial. -/
def crcBitR (poly v : Word) : Word := if v.getLsbD 0 then (v >>> 1) ^^^ poly else v >>> 1

/-- One byte of a reflected division. -/
def crcByteR (poly v : Word) (b : Byte) : Word :=
  (List.range 8).foldl (fun v _ => crcBitR poly v) (v ^^^ b.setWidth 32)

/-- One bit of a division of width `w` that is not reflected. -/
def crcBitF (w : Nat) (poly v : Word) : Word :=
  let r := if v.getLsbD (w - 1) then (v <<< 1) ^^^ poly else v <<< 1
  r &&& BitVec.ofNat 32 (2 ^ w - 1)

/-- One byte of a division of width `w` that is not reflected. -/
def crcByteF (w : Nat) (poly v : Word) (b : Byte) : Word :=
  (List.range 8).foldl (fun v _ => crcBitF w poly v) (v ^^^ (b.setWidth 32 <<< (w - 8)))

/-- The initial value of a POLY. -/
def crcInit (p : Nat) : Word :=
  match p with
  | 0 | 1 => 0xFFFFFFFF
  | 2 => 0xFFFF
  | _ => 0xFF

/-- One byte-step of a POLY. -/
def crcStep (p : Nat) (v : Word) (b : Byte) : Word :=
  match p with
  | 0 => crcByteR 0xEDB88320 v b
  | 1 => crcByteR 0x82F63B78 v b
  | 2 => crcByteF 16 0x1021 v b
  | _ => crcByteF 8 0x1D v b

/-- The final XOR of a POLY. -/
def crcFinal (p : Nat) (v : Word) : Word :=
  match p with
  | 0 | 1 => v ^^^ 0xFFFFFFFF
  | 2 => v
  | _ => v ^^^ 0xFF

/-- The width of a POLY in bits (R425). -/
def crcWidth (p : Nat) : Nat :=
  match p with
  | 0 | 1 => 32
  | 2 => 16
  | _ => 8

/-- The check value of bytes under a POLY. -/
def crcOf (p : Nat) (bs : List Byte) : Word := crcFinal p (bs.foldl (crcStep p) (crcInit p))

/-- The CRC-32C named throughout the manual: POLY 1. -/
def crc32c (bs : List Byte) : Word := crcOf 1 bs

/-- Bytes with their CRC-32C behind them. -/
def withCrc (bs : List Byte) : List Byte := bs ++ wordBytes (crc32c bs)

end Sys2Proof.Machine
end

