-- ==== Sys2Proof/Machine/Analysis.lean ====
section
/-!
DEFINITION. The analysis of a composed picture (R104 to R110, R119, R122), its mapping to a rendition (R112, R113, R115,
R173), the tile layout of a rendition (R126, R133) and the count of last-resort blocks (R148, R152, R167).
-/
namespace Sys2Proof.Machine

/-! ### Samples and decimation (R105, R106) -/

/-- A coordinate moved to the nearest one inside [0, n). -/
def nearest (n : Nat) (x : Int) : Nat := (min (max x 0) ((n : Int) - 1)).toNat

/-- The sample of a plane at a position; a position outside takes the nearest sample inside (R105). -/
def sampleAt (p : Plane) (x y : Int) : Nat := p.px.getD (nearest p.h y * p.w + nearest p.w x) 0

/-- The sample of a decimation level at a position (R106). -/
def levelAt (p : Plane) : Nat → Int → Int → Nat
  | 0, x, y => sampleAt p x y
  | l + 1, x, y =>
    (levelAt p l (2 * x) (2 * y) + levelAt p l (2 * x + 1) (2 * y) + levelAt p l (2 * x) (2 * y + 1) +
      levelAt p l (2 * x + 1) (2 * y + 1) + 2) / 4

/-- A sample at a quarter-sample position: the two-way interpolation of stage 0f (R106). -/
def quarterAt (p : Plane) (qx qy : Int) : Nat :=
  let x := qx.fdiv 4
  let y := qy.fdiv 4
  let fx := (qx.fmod 4).toNat
  let fy := (qy.fmod 4).toNat
  (sampleAt p x y * (4 - fx) * (4 - fy) + sampleAt p (x + 1) y * fx * (4 - fy) +
    sampleAt p x (y + 1) * (4 - fx) * fy + sampleAt p (x + 1) (y + 1) * fx * fy + 8) / 16

/-- The distance of two samples. -/
def absDiff (a b : Nat) : Nat := (a - b) + (b - a)

/-- The sum of a function over [0, n). -/
def sumTo (n : Nat) (f : Nat → Nat) : Nat := (List.range n).foldl (fun a i => a + f i) 0

/-- The sum of absolute differences of a square block at a level against a reference moved by a vector. -/
def sadAt (cur ref : Plane) (l size : Nat) (bx by_ : Nat) (vx vy : Int) : Nat :=
  sumTo size (fun j => sumTo size (fun i =>
    let x : Int := bx * size + i
    let y : Int := by_ * size + j
    absDiff (levelAt cur l x y) (levelAt ref l (x + vx) (y + vy))))

/-- The sum of absolute differences of a 16 × 16 block against a reference moved by a vector in quarter samples. -/
def sadQuarter (cur ref : Plane) (bx by_ : Nat) (qx qy : Int) : Nat :=
  sumTo 16 (fun j => sumTo 16 (fun i =>
    let x : Int := bx * 16 + i
    let y : Int := by_ * 16 + j
    absDiff (sampleAt cur x y) (quarterAt ref (4 * x + qx) (4 * y + qy))))

/-! ### The search (R106) -/

/-- A candidate of the search with its cost. -/
structure Cand where
  x : Int
  y : Int
  cost : Nat
  deriving DecidableEq, Repr

/-- Whether candidate `a` ranks before candidate `b` (R106). -/
def Cand.better (a b : Cand) : Bool :=
  let m (c : Cand) : Nat := c.x.natAbs + c.y.natAbs
  if a.cost ≠ b.cost then a.cost < b.cost
  else if m a ≠ m b then m a < m b
  else if a.y ≠ b.y then a.y < b.y
  else a.x < b.x

/-- The candidate of a list that ranks first. -/
def bestOf : List Cand → Option Cand
  | [] => none
  | c :: cs =>
    match bestOf cs with
    | none => some c
    | some d => if d.better c then some d else some c

/-- Whether two candidates are the same vector. -/
def Cand.same (a b : Cand) : Bool := a.x = b.x && a.y = b.y

/-- The best candidate and the best of a different vector. -/
def bestTwo (cs : List Cand) : List Cand :=
  match bestOf cs with
  | none => []
  | some a => a :: (bestOf (cs.filter (fun c => !c.same a))).toList

/-- The vectors within `r` of a centre in each component. -/
def around (cx cy : Int) (r : Nat) (step : Nat) : List (Int × Int) :=
  let n := 2 * (r / step) + 1
  ((List.range n).map (fun j => (List.range n).map (fun i =>
    (cx + ((i * step : Nat) : Int) - (r : Int), cy + ((j * step : Nat) : Int) - (r : Int))))).flatten

/-- Candidates A and B of a block against one reference (R106). -/
def searchSlot (cur ref : Plane) (bx by_ : Nat) : Option Cand × Option Cand :=
  let mk (l size : Nat) (v : Int × Int) : Cand :=
    { x := v.1, y := v.2, cost := sadAt cur ref l size bx by_ v.1 v.2 + v.1.natAbs + v.2.natAbs }
  let s2 := bestTwo ((around 0 0 32 1).map (mk 2 4))
  let s1 := bestTwo ((s2.map (fun c => (around (2 * c.x) (2 * c.y) 2 1).map (mk 1 8))).flatten)
  let mkQ (q : Int × Int) : Cand :=
    { x := q.1, y := q.2, cost := sadQuarter cur ref bx by_ q.1 q.2 + (q.1.natAbs + q.2.natAbs) / 4 }
  let ints := (s1.map (fun d => (around (2 * d.x) (2 * d.y) 2 1).map (fun v => mkQ (4 * v.1, 4 * v.2)))).flatten
  match bestOf ints with
  | none => (none, none)
  | some q =>
    let h := ints ++ (around q.x q.y 2 2).map mkQ
    match bestOf h with
    | none => (none, none)
    | some q2 =>
      let all := h ++ (around q2.x q2.y 1 1).map mkQ
      match bestOf all with
      | none => (none, none)
      | some a => (some a, bestOf (all.filter (fun b => 4 < (b.x - a.x).natAbs || 4 < (b.y - a.y).natAbs)))

/-! ### Block and picture measures (R107, R108, R119, R122) -/

/-- The significant bits of a number. -/
def sigBits (n : Nat) : Nat := if n = 0 then 0 else Nat.log2 n + 1

/-- The automatic ROI class of a block (R122). -/
def autoClass (static : Bool) (complex : Nat) : Nat := b2n static * 8 + min 7 (sigBits complex - 6)

/-- The class of the last rectangle in force that contains a block's centre (R119). -/
def rectClass (rects : List (Nat × Nat × Nat × Nat × Nat)) (bx by_ : Nat) : Option Nat :=
  (rects.filter (fun r => r.1 ≤ 16 * bx + 8 && 16 * bx + 8 < r.2.2.1 && r.2.1 ≤ 16 * by_ + 8 &&
    16 * by_ + 8 < r.2.2.2.1)).getLast?.map (fun r => r.2.2.2.2)

/-- The ROI class of a block (R119). -/
def roiClass (src : Nat) (rects : List (Nat × Nat × Nat × Nat × Nat)) (bx by_ : Nat) (static : Bool) (cx : Nat) : Nat :=
  match src with
  | 0 => 0
  | 1 => (rectClass rects bx by_).getD 0
  | 2 => autoClass static cx
  | _ => (rectClass rects bx by_).getD (autoClass static cx)

/-- The record of one block (R107, R110, R119). -/
def blockRecord (cur : Plane) (r1 r2 r4 : Option Plane) (ana : Word) (rects : List (Nat × Nat × Nat × Nat × Nat))
    (bx by_ : Nat) : BlockRec :=
  let at_ (i j : Nat) : Nat := sampleAt cur (bx * 16 + i : Nat) (by_ * 16 + j : Nat)
  let mean := (sumTo 16 (fun j => sumTo 16 (fun i => at_ i j)) + 128) / 256
  let intra := sumTo 16 (fun j => sumTo 16 (fun i => absDiff (at_ i j) mean))
  let slot (r : Option Plane) : Option Cand × Option Cand :=
    match r with
    | none => (none, none)
    | some p => searchSlot cur p bx by_
  let vecs (c : Option Cand × Option Cand) : List (Option (Int × Int)) :=
    [c.1.map (fun c => (c.x, c.y)), c.2.map (fun c => (c.x, c.y))]
  let s1 := slot r1
  let inter : Option Nat :=
    match r1, s1.1 with
    | some p, some a => some (sadQuarter cur p bx by_ a.x a.y)
    | _, _ => none
  let cx := min 65535 (match inter with
    | none => intra / 4
    | some v => min intra v / 4)
  let static := match r1 with
    | none => false
    | some p => sadAt cur p 0 16 bx by_ 0 0 ≤ 256 * fld ana 19 16
  { mv1 := vecs s1
    mv2 := vecs (slot r2)
    mv4 := vecs (slot r4)
    complex := cx
    roi := roiClass (fld ana 21 20) rects bx by_ static cx
    static := static
    intra := match inter with
      | none => true
      | some v => intra < v
    edge := cur.w < bx * 16 + 16 || cur.h < by_ * 16 + 16
    mean := mean }

/-- MEAN of a picture (R108). -/
def pictureMean (p : Plane) : Nat := (p.px.foldl (fun a v => a + v) 0 + p.w * p.h / 2) / max 1 (p.w * p.h)

/-- The analysis field of a frame (R104 to R110). The references and means are those of frames of the current slice. -/
def analyse (k bands : Nat) (cur : Plane) (r1 r2 r4 : Option Plane) (m1 m2 : Option Nat) (ana : Word)
    (rects : List (Nat × Nat × Nat × Nat × Nat)) (roiSeq : Word) : Field :=
  let bw := (cur.w + 15) / 16
  let bh := (cur.h + 15) / 16
  let blocks := ((List.range bh).map (fun y => (List.range bw).map (fun x => blockRecord cur r1 r2 r4 ana rects x y))).flatten
  let mean := pictureMean cur
  let fmin := fld ana 15 8
  let up (a b : Nat) : Bool := b + fmin ≤ a
  let rising := match m1, m2 with
    | some a, some b => up mean a && up a b
    | _, _ => false
  let falling := match m1, m2 with
    | some a, some b => up a mean && up b a
    | _, _ => false
  let fade := fmin ≠ 0 && (rising || falling)
  let m := m1.getD 0
  let gain := if m = 0 || !fade then 256 else min 65535 ((mean * 256 + m / 2) / m)
  let nIntra := (blocks.filter (fun b => b.intra)).length
  { bw := bw
    bh := bh
    bands := bands
    frame := k
    sceneCut := fld ana 7 0 ≠ 0 && r1.isSome && !fade && fld ana 7 0 * bw * bh ≤ 256 * nIntra
    fade := fade
    fadeDown := fade && falling
    slots := [r1.isSome, r2.isSome, r4.isSome]
    mean := mean
    gain := gain
    nIntra := nIntra
    sumCx := blocks.foldl (fun a b => a + b.complex) 0
    nStatic := (blocks.filter (fun b => b.static)).length
    roiSeq := roiSeq
    blocks := blocks }

/-! ### The field as bytes (R109, R110) -/

/-- A vector as 4 bytes; an invalid vector is -32,768 in both (R110). -/
def vecBytes (v : Option (Int × Int)) : List Byte :=
  match v with
  | none => leInt 2 (-32768) ++ leInt 2 (-32768)
  | some (x, y) => leInt 2 x ++ leInt 2 y

/-- A block record (R110). -/
def blockBytes (b : BlockRec) : List Byte :=
  ((b.mv1 ++ b.mv2 ++ b.mv4).map vecBytes).flatten ++ leBytes 2 b.complex ++
    leBytes 1 (b.roi + 16 * b2n b.static + 32 * b2n b.intra + 64 * b2n b.edge) ++ leBytes 1 0 ++ leBytes 2 b.mean ++ leBytes 2 0

/-- The header's first 60 bytes, with a BANDS byte (R109). -/
def fieldHead (f : Field) (bands : Nat) : List Byte :=
  leBytes 2 0x0401 ++ leBytes 2 f.bw ++ leBytes 2 f.bh ++ leBytes 1 bands ++
    leBytes 1 (b2n f.sceneCut + 2 * b2n f.fade + 4 * b2n f.fadeDown + 8 * b2n (f.slots.getD 0 false) +
      16 * b2n (f.slots.getD 1 false) + 32 * b2n (f.slots.getD 2 false)) ++
    leBytes 8 f.frame ++ leBytes 2 f.mean ++ leBytes 2 f.gain ++ leBytes 4 f.nIntra ++ leBytes 8 f.sumCx ++
    leBytes 4 f.nStatic ++ wordBytes f.roiSeq ++ zeros 20

/-- CRC of a field: over the block records and the header with BANDS taken as 0 (R109). -/
def fieldCrc (f : Field) : Word := crc32c ((f.blocks.map blockBytes).flatten ++ fieldHead f 0)

/-- The bytes of a field (R109). -/
def fieldBytes (f : Field) : List Byte :=
  fieldHead f f.bands ++ wordBytes (fieldCrc f) ++ (f.blocks.map blockBytes).flatten

/-! ### The codecs' figures (R87, R90, R126, R133, R152) -/

/-- The coding-tree size of a codec (R133): 1 HEVC, 2 AV1, 3 VVC. -/
def ctSize (codec : Nat) : Nat := if codec = 3 then 128 else 64
/-- The codec cost in Q8 (R87). -/
def codecCost (codec : Nat) : Nat := if codec = 1 then 256 else if codec = 2 then 333 else 436
/-- The Q8 factor of an effort level (R87). -/
def effQ8 (e : Nat) : Nat := [116, 141, 175, 213, 256, 303, 354, 410].getD e 410
/-- The bound on a last-resort block in bits (R152). -/
def lrBits (codec : Nat) : Nat := if codec = 3 then 192 else 160
/-- The greatest number of tile columns (R126). -/
def tileMax (codec : Nat) : Nat := if codec = 2 then 64 else 20

/-- The coding-tree columns of a rendition (R126). -/
def ctCols (r : RendPlan) : Nat := (r.w + ctSize r.codec - 1) / ctSize r.codec
/-- The coding-tree rows of a rendition. -/
def ctRows (r : RendPlan) : Nat := (r.h + ctSize r.codec - 1) / ctSize r.codec
/-- T_r: the column tiles of a rendition on a number of engines (R126). -/
def tileCount (engines : Nat) (r : RendPlan) : Nat := min (min engines (tileMax r.codec)) (min (r.w / 256) (ctCols r))
/-- The coding-tree column at which tile `i` starts (R126). -/
def tileStart (t : Nat) (r : RendPlan) (i : Nat) : Nat := i * ctCols r / max 1 t

/-- The luma width of tile `i`. -/
def tileWidth (t : Nat) (r : RendPlan) (i : Nat) : Nat :=
  min (tileStart t r (i + 1) * ctSize r.codec) r.w - tileStart t r i * ctSize r.codec
/-- The luma height of coding-tree row `j`. -/
def rowHeight (r : RendPlan) (j : Nat) : Nat := min ((j + 1) * ctSize r.codec) r.h - j * ctSize r.codec

/-! ### The field mapped to a rendition (R112, R113, R115, R173) -/

/-- The coding-tree row a block row belongs to (R115). -/
def rowOfBlock (H : Nat) (r : RendPlan) (by_ : Nat) : Nat :=
  min ((16 * by_ + 8) * r.h / H / ctSize r.codec) (ctRows r - 1)
/-- The coding-tree column a block column belongs to (R173). -/
def colOfBlock (W : Nat) (r : RendPlan) (bx : Nat) : Nat :=
  min ((16 * bx + 8) * r.w / W / ctSize r.codec) (ctCols r - 1)

/-- The complexity of coding-tree row `j` of tile `i` of `t` (R173). -/
def cxTile (f : Field) (W H t : Nat) (r : RendPlan) (i j : Nat) : Nat :=
  let lo := tileStart t r i
  let hi := tileStart t r (i + 1)
  let one (n : Nat) (b : BlockRec) : Nat :=
    let c := colOfBlock W r (n % f.bw)
    if rowOfBlock H r (n / f.bw) = j && lo ≤ c && c < hi then b.complex else 0
  ((f.blocks.zipIdx).map (fun p => one p.2 p.1)).foldl (fun a v => a + v) 0

/-- The top block a rendition's block takes its field values from (R112). -/
def mappedBlock (f : Field) (W H : Nat) (r : RendPlan) (bx by_ : Nat) : Nat × Nat :=
  (min ((16 * bx + 8) * W / r.w / 16) (f.bw - 1), min ((16 * by_ + 8) * H / r.h / 16) (f.bh - 1))

/-- A component scaled by num/den with the rounding of R113: half away from zero. -/
def scaleHalfAway (x : Int) (num den : Nat) : Int := x.sign * (((2 * x.natAbs * num + den) / (2 * den) : Nat) : Int)

/-- The analysis slot of a reference at distance `d` (R113). -/
def slotOfDistance (d : Nat) : Nat := if d ≤ 1 then 1 else if d ≤ 3 then 2 else 4

/-- A vector of a mapped block scaled to a rendition and to a reference at distance `d` (R113). -/
def scaledVector (W H : Nat) (r : RendPlan) (d : Nat) (v : Int × Int) : Int × Int :=
  let x := scaleHalfAway v.1 r.w W
  let y := scaleHalfAway v.2 r.h H
  let sl := slotOfDistance d
  if d = sl then (x, y) else (scaleHalfAway x d sl, scaleHalfAway y d sl)

/-! ### Last-resort blocks (R148, R152, R167)

The forced splits at a picture edge are those of the codecs' own syntax, which the manual does not restate: PRESUMED (log
entry 10). -/

/-- Quad splits of a square that crosses an edge (HEVC). -/
def quadBlocks (w h : Nat) : Nat → Nat → Nat → Nat → Nat
  | 0, _, x, y => b2n (x < w && y < h)
  | n + 1, size, x, y =>
    if w ≤ x || h ≤ y then 0
    else if x + size ≤ w && y + size ≤ h then 1
    else
      let s := size / 2
      quadBlocks w h n s x y + quadBlocks w h n s (x + s) y + quadBlocks w h n s x (y + s) + quadBlocks w h n s (x + s) (y + s)

/-- Forced partitions of an AV1 square: one block where either half is inside in one direction. -/
def av1Blocks (w h : Nat) : Nat → Nat → Nat → Nat → Nat
  | 0, _, x, y => b2n (x < w && y < h)
  | n + 1, size, x, y =>
    let s := size / 2
    if w ≤ x || h ≤ y then 0
    else if x + s < w || y + s < h then 1
    else av1Blocks w h n s x y + av1Blocks w h n s (x + s) y + av1Blocks w h n s x (y + s) + av1Blocks w h n s (x + s) (y + s)

/-- Forced splits of a VVC block: binary across one crossed edge, quad across two. -/
def vvcBlocks (w h : Nat) : Nat → Nat → Nat → Nat → Nat → Nat
  | 0, _, _, x, y => b2n (x < w && y < h)
  | n + 1, bw, bh, x, y =>
    if w ≤ x || h ≤ y then 0
    else if x + bw ≤ w && y + bh ≤ h then 1
    else if x + bw ≤ w then vvcBlocks w h n bw (bh / 2) x y + vvcBlocks w h n bw (bh / 2) x (y + bh / 2)
    else if y + bh ≤ h then vvcBlocks w h n (bw / 2) bh x y + vvcBlocks w h n (bw / 2) bh (x + bw / 2) y
    else vvcBlocks w h n (bw / 2) (bh / 2) x y + vvcBlocks w h n (bw / 2) (bh / 2) (x + bw / 2) y +
      vvcBlocks w h n (bw / 2) (bh / 2) x (y + bh / 2) + vvcBlocks w h n (bw / 2) (bh / 2) (x + bw / 2) (y + bh / 2)

/-- A length rounded up to a multiple of 8 (R134). -/
def up8 (n : Nat) : Nat := (n + 7) / 8 * 8

/-- The last-resort blocks of one coding-tree unit (R148). -/
def ctuBlocks (r : RendPlan) (idr : Bool) (col row : Nat) : Nat :=
  let w := up8 r.w
  let h := up8 r.h
  let s := ctSize r.codec
  let x := col * s
  let y := row * s
  match r.codec with
  | 2 => av1Blocks w h 4 s x y
  | 3 =>
    if idr then
      2 * (vvcBlocks w h 8 64 64 x y + vvcBlocks w h 8 64 64 (x + 64) y + vvcBlocks w h 8 64 64 x (y + 64) +
        vvcBlocks w h 8 64 64 (x + 64) (y + 64))
    else vvcBlocks w h 10 s s x y
  | _ => quadBlocks w h 4 s x y

/-- The last-resort blocks of tile `i` of `t` in rows `lo` to the last (R173). -/
def lrBlocks (t : Nat) (r : RendPlan) (idr : Bool) (i lo : Nat) : Nat :=
  let c0 := tileStart t r i
  let c1 := tileStart t r (i + 1)
  sumTo (ctRows r - lo) (fun dj => sumTo (c1 - c0) (fun dc => ctuBlocks r idr (c0 + dc) (lo + dj)))

/-- res(t, j): the bits that rows `lo` to the last of a tile can take in last-resort mode (R173). -/
def resBits (t : Nat) (r : RendPlan) (idr : Bool) (i lo : Nat) : Nat := lrBlocks t r idr i lo * lrBits r.codec + 8

/-- The bound on the last-resort bits of one row of a tile. -/
def lrRowBits (t : Nat) (r : RendPlan) (idr : Bool) (i j : Nat) : Nat :=
  (lrBlocks t r idr i j - lrBlocks t r idr i (j + 1)) * lrBits r.codec

/-- LR_MAX of a rendition, for the picture type with the most blocks (R167). -/
def lrMaxOf (t : Nat) (r : RendPlan) : Nat :=
  sumTo t (fun i => max (resBits t r true i 0) (resBits t r false i 0))

end Sys2Proof.Machine
end

