-- ==== Sys2Proof/Machine/Time.lean ====
section
/-!
DEFINITION. Device time: the corrected time of R295, adjustments and rebases, comparators, transmit stamps and the
reference monitor (spec/11_time.md).
-/
namespace Sys2Proof.Machine

/-! ### Corrected time (R295) -/

/-- The parameter set in force. -/
structure TimeSet where
  offset : Int
  sub : Nat
  anchor : Raw
  res : Nat
  rate : Int
  deriving DecidableEq, Repr

/-- The parameter set in force, as CUR_OFFSET, CUR_ANCHOR, CUR_RES and CUR_RATE show it (R295, R313). -/
def timeSet (s : State) : TimeSet :=
  { offset := (BitVec.ofNat 64 (rd64 s TIM_CUR_OFFSET_LO TIM_CUR_OFFSET_HI)).toInt
    sub := rdFld s TIM_CUR_ANCHOR_HI 31 16
    anchor := BitVec.ofNat 48 ((rd s TIM_CUR_ANCHOR_LO).toNat + rdFld s TIM_CUR_ANCHOR_HI 15 0 * 2 ^ 32)
    res := rd64 s TIM_CUR_RES_LO TIM_CUR_RES_HI
    rate := (BitVec.ofNat 40 (rd64 s TIM_CUR_RATE_LO TIM_CUR_RATE_HI)).toInt }

/-- Put a parameter set in force. -/
def putTimeSet (s : State) (t : TimeSet) : State :=
  let s := wr64 s TIM_CUR_OFFSET_LO TIM_CUR_OFFSET_HI (BitVec.ofInt 64 t.offset).toNat
  let s := wr s TIM_CUR_ANCHOR_LO (wordOf t.anchor.toNat)
  let s := wr s TIM_CUR_ANCHOR_HI (mkWord [(15, 0, t.anchor.toNat / 2 ^ 32), (31, 16, t.sub)])
  let s := wr64 s TIM_CUR_RES_LO TIM_CUR_RES_HI t.res
  wr64 s TIM_CUR_RATE_LO TIM_CUR_RATE_HI (BitVec.ofInt 40 t.rate).toNat

/-- The numerator of R295's division at a raw count. -/
def timeNum (t : TimeSet) (r : Raw) : Int := t.res + sdiff r t.anchor * 262144 * (2 ^ 40 + t.rate)

/-- T16, the corrected time in units of 2^-16 ns, at a raw count (R295). -/
def t16Of (t : TimeSet) (r : Raw) : Int := t.offset * 65536 + t.sub + (timeNum t r).fdiv (5 * 2 ^ 40)

/-- The corrected time in units of 2^-16 ns now. -/
def t16 (s : State) : Int := t16Of (timeSet s) s.raw

/-- N, the corrected nanoseconds since the PTP epoch, now (R295). -/
def nowN (s : State) : Int := (t16 s).fdiv 65536

/-- N at another raw count under the set in force. -/
def nAt (s : State) (r : Raw) : Int := (t16Of (timeSet s) r).fdiv 65536

/-- The launch-time form of now (R18). -/
def now40 (s : State) : BitVec 40 := BitVec.ofInt 40 (nowN s)

/-- Seconds, nanoseconds and sub-nanoseconds of a T16 (R295); the seconds, by floor division, as two's complement of 64 bits. -/
def ptpForm (t : Int) : Nat × Nat × Nat :=
  let n := t.fdiv 65536
  ((BitVec.ofInt 64 (n.fdiv 1000000000)).toNat, (n.fmod 1000000000).toNat, (t.fmod 65536).toNat)

/-- Whether a corrected-time instant has come: the signed 64-bit difference target - N is not positive (R19, R301). -/
def reached (s : State) (target : Int) : Bool := (BitVec.ofInt 64 (target - nowN s)).toInt ≤ 0

/-- The count congruent to a timestamp of `w` bits that lies nearest a count (R191). -/
def nearestCount (w : Nat) (na ts : Int) : Int := na + (BitVec.ofInt w (ts - na)).toInt

/-- The media time of a 90 kHz count: its first nanosecond (R191). -/
def mediaTime (n : Int) : Int := -((-(n * 100000)).fdiv 9)

/-- The 90 kHz count of a corrected time. -/
def count90 (t : Int) : Int := (t * 9).fdiv 100000

/-- The corrected time that a 90 kHz RTP timestamp received now maps to: R191's rule, which R77 and R286 name for video and ANC (log entry
63). -/
def rtpTime (s : State) (ts : BitVec 32) : Int := mediaTime (nearestCount 32 (count90 (nowN s)) ts.toNat)

/-- Ticks of a number of microseconds. -/
def usTicks (n : Nat) : Nat := n * 1250
/-- Ticks of a number of milliseconds. -/
def msTicks (n : Nat) : Nat := n * 1250000
/-- Ticks of a number of seconds. -/
def secTicks (n : Nat) : Nat := n * 1250000000

/-- Whether at least `k` ticks have passed since a raw count (R19). -/
def ticksSince (s : State) (t : Raw) (k : Nat) : Bool := k ≤ (sdiff s.raw t)

/-- Whether at least `k` ticks have passed since a raw count that may not have been taken; never taken counts as passed. -/
def passed (s : State) (t : Option Raw) (k : Nat) : Bool :=
  match t with
  | none => true
  | some t => ticksSince s t k

/-- A raw count of 48 bits in two registers, the higher bits of the second left as they are. -/
def wrRaw (s : State) (lo hi : Reg) (r : Raw) : State :=
  wrFld (wr s lo (wordOf r.toNat)) hi 15 0 (r.toNat / 2 ^ 32)

/-! ### Rebase and adjustment (R297 to R299) -/

/-- Rebase at a tick: the anchor becomes the raw count, the base takes the quotient, RES the remainder; the corrected
time of no tick changes (R297). -/
def rebasedSet (t : TimeSet) (r : Raw) : TimeSet :=
  let num := timeNum t r
  let base := t.offset * 65536 + t.sub + num.fdiv (5 * 2 ^ 40)
  { t with offset := base.fdiv 65536, sub := (base.fmod 65536).toNat, anchor := r, res := (num.fmod (5 * 2 ^ 40)).toNat }

/-- Rebase now and count it in REBASE_CNT (R297). -/
def rebaseNow (s : State) : State := count (putTimeSet s (rebasedSet (timeSet s) s.raw)) TIM_REBASE_CNT

/-- A rebase due at the tick of an adjustment applies first (R312). -/
def rebaseDue (s : State) : State := if 2 ^ 46 ≤ sdiff s.raw (timeSet s).anchor then rebaseNow s else s

/-- Whether any channel is running or stopping (R299). -/
def anyRunning (s : State) : Bool :=
  (List.range 16).any (fun n => rdBit s (CH_STAT n) 1 || rdBit s (CH_STAT n) 2)

/-- The key of a master's own copy of a staged value, beside its stage (R11, R298). -/
def ownKey (m : Master) (r : Reg) : Nat := (m.index + 8) * 0x2000000 + r.addr

/-- The value a master has committed to a register of which each master keeps its own stage (R298). -/
def ownVal (s : State) (m : Master) (r : Reg) : Word := (mget s.stages (ownKey m r)).getD r.reset

/-- ADJ_VAL as a master staged it. -/
def adjVal (s : State) (m : Master) : Int :=
  (BitVec.ofNat 64 ((ownVal s m TIM_ADJ_VAL_LO).toNat + (ownVal s m TIM_ADJ_VAL_HI).toNat * 2 ^ 32)).toInt
/-- ADJ_SUB as a master staged it. -/
def adjSub (s : State) (m : Master) : Nat := fld (ownVal s m TIM_ADJ_SUB) 15 0
/-- ADJ_RATE as a master staged it. -/
def adjRateVal (s : State) (m : Master) : Int :=
  (BitVec.ofNat 40 ((ownVal s m TIM_ADJ_RATE_LO).toNat + (ownVal s m TIM_ADJ_RATE_HI).toNat * 2 ^ 32)).toInt

/-- Whether a master is the servo that SERVO_CTL.OWNER names (R298). -/
def ownsServo (s : State) (m : Master) : Bool := rdBit s TIM_SERVO_CTL 0 == (m = .host : Bool)

/-- Report an adjustment: ADJ_STAT takes the tag and the result, the event is set, a refusal is counted (R298, R299). -/
def adjReport (s : State) (tag : Byte) (code : Nat) : State :=
  let s := wr s TIM_ADJ_STAT (mkWord [(7, 0, code), (15, 8, tag.toNat)])
  if code = 0 then setEvt s TIM_EVT 11 else setEvt (count s TIM_ADJ_REJ) TIM_EVT 12

/-! ### Transmit stamps (R307, R308) -/

/-- The whole ticks of a latency in picoseconds. The manual does not say how the fraction of a tick is rounded, so the
rounding is free (log entry 7). -/
def latencyTicks (s : State) (ps : Nat) : Nat := (ps + Config.freeNat s.free 0 % 800) / 800

/-- Queue a transmit stamp of a port, or discard it when the queue holds 64 (R307, R308). Answers whether it was
discarded. -/
def captureTxts (s : State) (p : Nat) (id : BitVec 16) : State × Bool :=
  let q := portOf s p
  if 64 ≤ q.txts.length then
    let s := count s (TXP_TXTS_DROP p)
    let s := wrBit s (TXP_TXTS_STAT p) 8 true
    (modPort (setEvt s TIM_EVT 14) p (fun q => { q with txtsGap := true }), true)
  else
    let at_ := s.raw + BitVec.ofNat 48 (latencyTicks s (rd s (TXP_LAT_TX p)).toNat)
    let s := { s with free := s.free + 1 }
    let f := ptpForm (t16Of (timeSet s) at_)
    let w0 := mkWord [(15, 0, id.toNat), (16, 16, b2n q.txtsGap), (17, 17, b2n (rdBit s TIM_STAT 1)), (31, 31, 1)]
    let ws := [w0, wordOf f.2.1, wordOf f.1, mkWord [(15, 0, f.1 / 2 ^ 32 % 65536), (31, 16, f.2.2)]]
    let s := if q.txts.isEmpty then setEvt s TIM_EVT 13 else s
    let s := modPort s p (fun q => { q with txts := q.txts ++ [ws], txtsGap := false })
    (wrFld s (TXP_TXTS_STAT p) 6 0 (q.txts.length + 1), false)

/-- The key of a master's latch of a higher word (R11). -/
def latchKey (m : Master) (r : Reg) : Nat := m.index * 0x2000000 + r.addr

/-- Latch a higher word for a master (R11). -/
def latch (s : State) (m : Master) (r : Reg) (v : Word) : State := { s with latches := mput s.latches (latchKey m r) v }

/-! ### Trims take effect (R473) -/

/-- The pending values of trims [lo, lo + n) take effect. -/
def takeTrims (s : State) (lo n : Nat) : State :=
  { s with cal := { s.cal with trims := s.cal.trims.mapIdx (fun i t =>
      if lo ≤ i && i < lo + n then { t with cur := t.pend.getD t.cur, pend := none } else t) } }

/-! ### The reference monitor (R309 to R311) -/

/-- Whether the reference is in use. -/
def refInUse (s : State) : Bool := rdFld s TIM_REF_STAT 1 0 = 2

/-- REF_STAT.STATE out of use: 0 until the first good window, 3 at a count of 0 after one (R311). -/
def refOut (s : State) : State :=
  let s := if rdFld s TIM_REF_STAT 1 0 = 0 then s else wrFld s TIM_REF_STAT 1 0 3
  wrFld s TIM_REF_STAT 15 8 0

end Sys2Proof.Machine
end

