-- ==== Sys2Proof/Machine/Goose.lean ====
section
/-!
DEFINITION. The Goose: fault windows (R409 to R412), the event ledger (R413 to R416), and the check-value units (R423 to
R427) (spec/16_faults_ordering.md).
-/
namespace Sys2Proof.Machine

/-! ### The event ledger -/

/-- The CHANNEL field of an entry that affects a list of channels: 0xFF none, 0xFE several (R414). -/
def channelCode (chs : List Nat) : Nat :=
  match chs with
  | [] => 0xFF
  | [n] => n
  | _ => 0xFE

/-- Enter something in the ledger; it is released 5,000 ticks after its stamp (R413). -/
def enter (s : State) (kind unit : Nat) (chs : List Nat) (lasting : Bool) (time : Raw) (data : Word) : State :=
  { s with waiting := s.waiting ++
      [{ kind := kind, unit := unit, channel := channelCode chs, lasting := lasting, time := time, data := data }] }

/-- An entry as its 32 bytes (R414). -/
def entryBytes (seq : Nat) (e : LedgerEntry) : List Byte :=
  withCrc (leBytes 2 0x1001 ++ leBytes 2 e.kind ++ leBytes 2 e.unit ++ leBytes 1 e.channel ++
    leBytes 1 (b2n e.lasting) ++ leBytes 8 seq ++ leBytes 8 e.time.toNat ++ wordBytes e.data)

/-- Whether entry `a` is released before entry `b`: by stamp, then by UNIT (R413). -/
def entryBefore (a b : LedgerEntry) : Bool :=
  let d := sdiff a.time b.time
  d < 0 || (d == 0 && a.unit < b.unit)

/-- The entry of a list that is released first; equal stamps and units keep the order of their reports (R413). -/
def firstEntry : List LedgerEntry → Option LedgerEntry
  | [] => none
  | e :: es =>
    match firstEntry es with
    | none => some e
    | some f => if entryBefore f e then some f else some e

/-- The number of entries held: the ring's 65,536 while it is in service, else the 1,024 on die (R416). -/
def ledgerRoom (s : State) : Nat := if rdBit s GOOSE_STAT 0 then 65536 else 1024

/-- Show LEDGER_NEXT and LEDGER_FIRST (R416). -/
def showLedger (s : State) : State :=
  let first := match s.ledger with
    | [] => s.ledgerNext
    | (q, _) :: _ => q
  let s := wr64 s GOOSE_LEDGER_NEXT_LO GOOSE_LEDGER_NEXT_HI s.ledgerNext
  wr64 s GOOSE_LEDGER_FIRST_LO GOOSE_LEDGER_FIRST_HI first

/-- Keep the newest entries that the store has room for (R416). -/
def trimLedger (s : State) : State :=
  let room := ledgerRoom s
  showLedger { s with ledger := s.ledger.drop (s.ledger.length - room) }

/-- Give an entry the next sequence number and hold it (R413, R416). -/
def holdEntry (s : State) (e : LedgerEntry) : State :=
  trimLedger { s with ledger := s.ledger ++ [(s.ledgerNext, e)], ledgerNext := s.ledgerNext + 1 }

/-- The entry that LEDGER_SEL selects, as words; all 0 when it is not held (R416). -/
def ledgerWindow (s : State) (sel : Nat) : List Word :=
  match s.ledger.find? (fun e => e.1 = sel) with
  | some e => bytesWords (entryBytes e.1 e.2)
  | none => List.replicate 8 0

/-- The ring enters or leaves service (R416). -/
def setLedgerValid (s : State) (v : Bool) : State := trimLedger (wrBit s GOOSE_STAT 0 v)

/-! ### Fault windows -/

/-- W of a class in ticks (R409, R410, R428). -/
def classTicks (s : State) (c : Nat) : Nat := rdFld s (GOOSE_CLASS_CFG c) 31 16 * 125000000
/-- N of a class. -/
def classN (s : State) (c : Nat) : Nat := rdFld s (GOOSE_CLASS_CFG c) 15 0

/-- The windows of a class between two wraps of the counter: the last ends at 2^48 (R410). -/
def windowsPerWrap (s : State) (c : Nat) : Nat := (2 ^ 48 + classTicks s c - 1) / max 1 (classTicks s c)

/-- The window of a stamp, counted from the counter's last wrap; a stamp before the wrap lies in a negative window
(R410). -/
def windowOf (s : State) (c : Nat) (stamp : Raw) : Int :=
  let j : Nat := stamp.toNat / max 1 (classTicks s c)
  if s.raw.toNat < stamp.toNat && sdiff stamp s.raw < 0 then (j : Int) - windowsPerWrap s c else j

/-- The instance of a class, or a fresh one. -/
def instOf (s : State) (c i : Nat) : InstSt :=
  (s.insts.find? (fun x => x.cls = c && x.inst = i)).getD
    { cls := c, inst := i, win := 0, cur := 0, prev := 0, reached := false, reachedPrev := false, lasting := 0 }

/-- Put an instance back. -/
def putInst (s : State) (x : InstSt) : State :=
  { s with insts := x :: s.insts.filter (fun y => !(y.cls = x.cls && y.inst = x.inst)) }

/-- Move an instance on to a window. -/
def rollInst (x : InstSt) (j : Int) : InstSt :=
  if j ≤ x.win then x
  else if j = x.win + 1 then { x with win := j, prev := x.cur, cur := 0, reachedPrev := x.reached, reached := false }
  else { x with win := j, prev := 0, cur := 0, reachedPrev := false, reached := false }

/-- Count one event of an instance in the window of its stamp; answers whether the count reached N for the first time in
that window (R411). -/
def countInst (n : Nat) (x : InstSt) (j : Int) : InstSt × Bool :=
  let x := rollInst x j
  if j = x.win then
    let hit := x.cur + 1 = n && !x.reached
    ({ x with cur := x.cur + 1, reached := x.reached || hit, lasting := x.lasting + b2n hit }, hit)
  else if j = x.win - 1 then
    let hit := x.prev + 1 = n && !x.reachedPrev
    ({ x with prev := x.prev + 1, reachedPrev := x.reachedPrev || hit, lasting := x.lasting + b2n hit }, hit)
  else (x, false)

/-- Whether a class counts an event of this stamp: after an image changed its W or N only stamps at or after that instant
(R409). -/
def classCounts (s : State) (c : Nat) (stamp : Raw) : Bool :=
  match mget s.classSince c with
  | none => true
  | some t => 0 ≤ sdiff stamp t

/-- The DATA of an event's entry: 0 for the classes whose events have none (R415). -/
def eventData (c : Nat) (data : Word) : Word := if c = 1 || c = 5 then 0 else data

/-- The Goose counts an event and enters it, and at the threshold enters that and sets the class's event bit. Answers
whether the threshold was reached (R411). -/
def countEvent (s : State) (c i : Nat) (stamp : Raw) (data : Word) (chs : List Nat) : State × Bool :=
  let s := count s (GOOSE_CLASS_EVENTS c)
  let s := enter s (0x0100 + c) i chs false stamp (eventData c data)
  if classCounts s c stamp then
    let j := windowOf s c stamp
    let r := countInst (classN s c) (instOf s c i) j
    let s := putInst s r.1
    if r.2 then
      let idx := if j < 0 then j + windowsPerWrap s c else j
      let s := enter s (0x0200 + c) i chs (decide (c ≤ 4)) stamp (BitVec.ofInt 32 idx)
      (setEvt (count s (GOOSE_CLASS_LASTING c)) GOOSE_EVT c, true)
    else (s, false)
  else (s, false)

/-- The counter wraps: every instance's window number is counted from the new wrap (R410). -/
def wrapWindows (s : State) : State :=
  { s with insts := s.insts.map (fun x => { x with win := x.win - windowsPerWrap s x.cls }) }

/-- The number of instances of a class (R409, R429). -/
def classInsts (c : Nat) : Nat :=
  match c with
  | 0 | 1 => 96
  | 2 => 24
  | 3 => 128
  | 4 => 1
  | 5 => 16
  | _ => 0

/-- The instance INST_SEL selects, moved on to the window of now; none where it selects nothing (R429). -/
def shownInst (s : State) : Option InstSt :=
  let c := rdFld s GOOSE_INST_SEL 2 0
  let i := rdFld s GOOSE_INST_SEL 14 8
  if i < classInsts c then some (rollInst (instOf s c i) (windowOf s c s.raw)) else none

/-- A full image sets W and N of every class; a changed class counts afresh from now (R409). -/
def loadClasses (s : State) (cfg : List (Nat × Nat × Nat)) : State :=
  forEach (List.range 6) s (fun c s =>
    let d := (GOOSE_CLASS_CFG c).reset
    let w := match cfg.find? (fun x => x.1 = c) with
      | some x => mkWord [(15, 0, x.2.2), (31, 16, x.2.1)]
      | none => d
    if w = rd s (GOOSE_CLASS_CFG c) then s
    else
      let s := wr s (GOOSE_CLASS_CFG c) w
      let s := { s with classSince := mput s.classSince c s.raw }
      { s with insts := s.insts.map (fun x =>
          if x.cls = c then { x with win := windowOf s c s.raw, cur := 0, prev := 0, reached := false, reachedPrev := false } else x) })

/-! ### Check-value units (R423 to R427) -/

/-- The POLY of the message in hand (R423: a write to CK_CTL changes nothing until the next START). -/
def ckPoly (s : State) (i : Nat) : Nat := fld (ckOf s i).ctl 1 0

/-- Feed bytes to the open message; ignored while no message is open (R423). RUNNING is the unit's register. -/
def ckFeed (s : State) (i : Nat) (bs : List Byte) : State :=
  if (ckOf s i).isOpen then
    countBy (wr s (CK_RUNNING i) (bs.foldl (crcStep (ckPoly s i)) (rd s (CK_RUNNING i)))) (CK_BYTES i) bs.length
  else s

/-- START: take CK_CTL, load the initial value of its POLY and clear the byte count (R423); the first message after ALIVE_EN
is set accepts any counter (R426). -/
def ckOpen (s : State) (i : Nat) : State :=
  let c := rd s (CK_CTL i)
  let s := onlyIf (tbit c 3 && !tbit (ckOf s i).ctl 3) s (fun s => wrBit s (CK_STAT i) 4 true)
  let s := modCk s i (fun _ => { isOpen := true, ctl := c })
  wr (wr s (CK_RUNNING i) (crcInit (fld c 1 0))) (CK_BYTES i) 0

/-- ALIVE_RESET: the next counter is accepted without comparison (R426, R431). -/
def ckAlive (s : State) (i : Nat) : State := wrBit s (CK_STAT i) 4 true

/-- The alive judgement of FINISH: 0 accepted, 1 repeat, 2 jump (R426). -/
def aliveJudge (s : State) (i a : Nat) : Nat :=
  let last := rdFld s (CK_STAT i) 15 8
  if rdBit s (CK_STAT i) 4 then 0
  else if a = (last + 1) % 256 then 0
  else if a = last then 1
  else 2

/-- FINISH: RESULT, the comparison of R425 and the alive judgement of R426; a mismatch, repeat or jump enters the ledger. A
FINISH with no START since the last FINISH gives the final XOR of the initial value (R423). -/
def ckClose (s : State) (i : Nat) : State :=
  let k := ckOf s i
  let p := ckPoly s i
  let v := if k.isOpen then rd s (CK_RUNNING i) else crcInit p
  let res := crcFinal p v
  let msk : Word := BitVec.ofNat 32 (2 ^ crcWidth p - 1)
  let mis := tbit k.ctl 2 && (res &&& msk != rd s (CK_EXPECT i) &&& msk)
  let aliveOn := tbit k.ctl 3
  let a := rdFld s (CK_ALIVE_IN i) 7 0
  let j := if aliveOn then aliveJudge s i a else 0
  let s := modCk s i (fun k => { k with isOpen := false })
  let s := bump (wr s (CK_RESULT i) res) (CK_MSG_CNT i)
  let s := setEvt s (CK_EVT i) 0
  let s := wrBit (wrBit (wrBit s (CK_STAT i) 1 mis) (CK_STAT i) 2 (j == 1)) (CK_STAT i) 3 (j == 2)
  let s := onlyIf mis s (fun s => setEvt (count s (CK_MISMATCH_CNT i)) (CK_EVT i) 1)
  let s := onlyIf (j == 1) s (fun s => setEvt (count s (CK_REPEAT_CNT i)) (CK_EVT i) 2)
  let s := onlyIf (j == 2) s (fun s => setEvt (count s (CK_JUMP_CNT i)) (CK_EVT i) 3)
  let s := onlyIf aliveOn s (fun s => wrBit (wrFld s (CK_STAT i) 15 8 a) (CK_STAT i) 4 false)
  onlyIf (mis || j != 0) s (fun s =>
    enter s 0x0600 i [] false s.raw (mkWord [(0, 0, b2n mis), (1, 1, b2n (j == 1)), (2, 2, b2n (j == 2))]))

/-- A write of CK_CMD: FINISH, then ALIVE_RESET, then START (R423); a unit bound to the Mule link ignores it (R427). -/
def ckCommand (s : State) (i : Nat) (v : Word) : State :=
  if rdBit s (CK_CTL i) 4 then s
  else
    let s := onlyIf (tbit v 1) s (fun s => ckClose s i)
    let s := onlyIf (tbit v 2) s (fun s => ckAlive s i)
    onlyIf (tbit v 0) s (fun s => ckOpen s i)

/-- A write of one of the DATA registers (R423, R427). -/
def ckData (s : State) (i n : Nat) (v : Word) : State :=
  if rdBit s (CK_CTL i) 4 then s else ckFeed s i (leBytes n v.toNat)

/-- Run a whole Mule message through CK[6] or CK[7] (R427, R438). -/
def ckMessage (s : State) (i : Nat) (bs : List Byte) (expect : Word) (alive : Byte) : State :=
  let s := wr (wr s (CK_EXPECT i) expect) (CK_ALIVE_IN i) (wordOf alive.toNat)
  ckClose (ckFeed (ckOpen s i) i bs) i

end Sys2Proof.Machine
end

