-- ==== Sys2Proof/Machine/Mule.lean ====
section
/-!
DEFINITION. The Mule link and control of a pair: message frames, sending and acceptance, divergence, HEALTH, giving up
control, and the lasting faults of R412 that lead to it (spec/17_pairing.md, spec/16_faults_ordering.md).
-/
namespace Sys2Proof.Machine

/-- Change the pairing state. -/
def modPair (s : State) (f : PairSt → PairSt) : State := { s with pair := f s.pair }

/-- PAIR_STAT.ROLE: 0 unpaired, 1 Bellwether, 2 standby (R432, R466). -/
def role (s : State) : Nat := rdFld s MULE_PAIR_STAT 1 0
/-- Whether the image in force enables pairing (R432). -/
def isPaired (s : State) : Bool := rdBit s MULE_PAIR_CTL 0
/-- Whether the Mule link is up (R437). -/
def linkUp (s : State) : Bool := rdBit s MULE_PAIR_STAT 4
/-- Whether the device drives BW_HOLD (R433). -/
def holdDrive (s : State) : Bool := rdBit s MULE_PAIR_STAT 2

/-- The level of the BW_HOLD net follows both devices' drives; the time it has read low is kept; a drive or a low net ends
HOLD_HIGH (R433, R496). -/
def showHold (s : State) : State :=
  let lvl := holdDrive s || s.pair.peerDriving
  let s := wrBit (wrBit s MULE_PAIR_STAT 3 lvl) GLB_PIN_STAT 2 false
  { s with pins := { s.pins with holdLowSince :=
      if lvl then none else (match s.pins.holdLowSince with | none => some s.raw | some t => some t) } }

/-- Drive or release BW_HOLD; a paired device is Bellwether exactly while it drives the net (R432, R433). -/
def setDrive (s : State) (b : Bool) : State :=
  let s := wrBit s MULE_PAIR_STAT 2 b
  let s := wrFld s MULE_PAIR_STAT 1 0 (if isPaired s then (if b then 1 else 2) else 0)
  showHold s

/-! ### Frames (R438) -/

/-- The bytes a message's check value covers: 0 to LEN - 5 (R438). -/
def muleCovered (type ch : Byte) (lseq rxSeq epoch : Word) (body : List Byte) (alive : Byte) : List Byte :=
  let b := padUp 8 body
  [type, ch, 0, 0] ++ leBytes 4 (b.length + 32) ++ wordBytes lseq ++ wordBytes rxSeq ++ wordBytes epoch ++ zeros 4 ++ b ++
    [alive, 0, 0, 0]

/-- Whether a body fits a message: LEN is at most 262,144 (R438). -/
def muleFits (body : List Byte) : Bool := (padUp 8 body).length + 32 ≤ 262144

/-- A transmission of a message: its alive counter and check value by CK[6], counted and stamped; it leaves as its frame (R427, R438,
R439). -/
def transmit (s : State) (m : MuleMsg) : State :=
  let alive := s.pair.txAlive
  let covered := muleCovered m.type m.channel m.lseq s.pair.rxSeq (rd s MULE_EPOCH) m.body alive
  let s := wr s (CK_ALIVE_IN 6) (wordOf alive.toNat)
  let s := ckClose (ckFeed (ckOpen s 6) 6 covered) 6
  emit (modPair s (fun p => { p with txAlive := alive + 1, lastTx := some s.raw })) (.mule m alive (withCrc covered))

/-- Send a new message where the link lets it; the last 1,024 are kept (R439). A body that fits no message is not sent (DESIGN CHOICE,
log entry 62). -/
def sendWhere (ok : Bool) (s : State) (type ch : Byte) (body : List Byte) : State :=
  if ok && muleFits body then
    let m : MuleMsg := { type := type, channel := ch, lseq := s.pair.txSeq, body := body }
    let s := modPair s (fun p => { p with
      txSeq := p.txSeq + 1
      store := (p.store ++ [m]).drop ((p.store ++ [m]).length - 1024) })
    transmit (bump s MULE_TX_MSG) m
  else s

/-- Send a message while the link is up; nothing else leaves while it is down (R437). -/
def sendMule (s : State) (type ch : Byte) (body : List Byte) : State := sendWhere (linkUp s) s type ch body

/-- Send an IDLE or a NAK, which a link that comes up needs too (R437, R439; log entry 53). -/
def sendBringUp (s : State) (type : Byte) (body : List Byte) : State := sendWhere (linkUp s || s.pair.aligned) s type 0xFF body

/-- Send a NAK carrying the sequence expected (R439). -/
def sendNak (s : State) : State := count (sendBringUp s 0x02 (wordBytes s.pair.rxSeq ++ zeros 4)) MULE_NAK_CNT

/-! ### Eligibility and HEALTH (R448, R458) -/

/-- DIV_CAUSE of a channel. -/
def divCause (s : State) (n : Nat) : Nat :=
  if n < 8 then rdFld s MULE_DIV_CAUSE_LO (4 * n + 3) (4 * n)
  else rdFld s MULE_DIV_CAUSE_HI (4 * (n - 8) + 3) (4 * (n - 8))

/-- Set DIV_CAUSE of a channel. -/
def putCause (s : State) (n c : Nat) : State :=
  if n < 8 then wrFld s MULE_DIV_CAUSE_LO (4 * n + 3) (4 * n) c
  else wrFld s MULE_DIV_CAUSE_HI (4 * (n - 8) + 3) (4 * (n - 8)) c

/-- The own half of ELIG: the channels with cause 0x0, none while the device is stale; a Bellwether shows through it the channels whose join
it refuses (R436, R448, R459). -/
def putElig (s : State) : State :=
  let out (n : Nat) : Bool := rdBit s MULE_PAIR_STAT 5 || (role s = 1 && s.pair.refused.contains n)
  let m := (List.range 16).foldl (fun m n => if divCause s n = 0 && !out n then m + 2 ^ n else m) 0
  wrFld s MULE_ELIG 15 0 m

/-- Whether the last HEALTH received names another image than the one in force (R445, R458). -/
def otherImage (s : State) : Bool :=
  rd s GOOSE_HR_RX != 0 && (List.range 4).any (fun w => rd s (IMG_CUR_ID w) != rd s (GOOSE_HR_LAST (w + 2)))

/-- The engines in service: neither unassigned, withdrawn nor down (R153). -/
def enginesInService (s : State) : Nat :=
  ((List.range 128).filter (fun e => [1, 2, 3, 6].contains (rdFld s (ENG_STAT e) 2 0))).length

/-- The sum of PATROL_PASS over the controllers (R458). -/
def patrolSum (s : State) : Nat := (List.range 10).foldl (fun a i => a + (rd s (OX_PATROL_PASS i)).toNat) 0

/-- The body of a HEALTH message (R458). -/
def healthBody (s : State) : List Byte :=
  leBytes 1 (role s) ++
  leBytes 1 (b2n (holdDrive s) + 2 * b2n (rdBit s MULE_PAIR_STAT 3) + 4 * b2n (linkUp s)) ++
  leBytes 2 (rdFld s MULE_ELIG 15 0) ++ leBytes 2 (rdFld s GOOSE_CH_FAULT 15 0) ++
  leBytes 2 (rdFld s IMG_CH_DEFINED 15 0) ++
  ((List.range 4).map (fun w => wordBytes (rd s (IMG_CUR_ID w)))).flatten ++
  wordBytes (rd s GOOSE_ST_PASS) ++ wordBytes (rd s GOOSE_ST_FAIL) ++ leBytes 4 (patrolSum s) ++
  leBytes 1 s.pair.eyeLeast.1 ++ leBytes 1 s.pair.eyeLeast.2 ++ leBytes 2 (enginesInService s) ++
  leBytes 8 s.raw.toNat ++ zeros 16

/-- Send HEALTH (R458). -/
def sendHealth (s : State) : State :=
  let s := sendMule s 0x30 0xFF (healthBody s)
  modPair (onlyIf (linkUp s) s (fun s => bump s GOOSE_HR_TX)) (fun p => { p with lastHealthTx := some s.raw })

/-- The own half of ELIG follows; a paired device whose eligible set changes sends HEALTH at once (R448, R458). -/
def showElig (s : State) : State :=
  let t := putElig s
  onlyIf (isPaired t && rdFld s MULE_ELIG 15 0 != rdFld t MULE_ELIG 15 0) t sendHealth

/-- A standby whose epoch differs from the Bellwether's is stale (R436); so is one whose full image does (R445). DEDUCED (log entry
22): R445 does not say how a forced load is seen, so HEALTH's IMAGE_ID shows it. -/
def showStale (s : State) : State :=
  if role s = 2 && s.pair.peerDriving then
    showElig (wrBit s MULE_PAIR_STAT 5 (rd s MULE_EPOCH != rd s MULE_PEER_EPOCH || otherImage s))
  else s

/-- A channel of the standby becomes diverged, or a later cause replaces the code (R448). -/
def diverge (s : State) (n c : Nat) : State :=
  if role s = 2 then
    if divCause s n = 0 then
      let s := putElig (putCause s n c)
      let s := setEvt (enter s 0x0502 n [n] false s.raw (wordOf c)) MULE_EVT 4
      sendHealth s
    else putElig (putCause s n c)
  else s

/-- Every channel of a list diverges with one cause. -/
def divergeAll (s : State) (c : Nat) : State := forEach (List.range 16) s (fun n s => diverge s n c)

/-- A channel of the standby becomes eligible (R448, R461). -/
def becomeEligible (s : State) (n : Nat) (k : Nat) : State :=
  if role s = 2 && divCause s n != 0 then
    let s := putElig (putCause s n 0)
    let s := setEvt (enter s 0x0503 n [n] false s.raw (wordOf k)) MULE_EVT 5
    sendHealth s
  else s

/-! ### Giving up control (R452, R453) -/

/-- The entries of an ACK: the last datagram launched of each stream that launched since the last ACK (R449). -/
def ackBody (due : List (Nat × Nat × Nat)) : List Byte :=
  ((due.take 1024).map (fun e => leBytes 2 e.1 ++ zeros 2 ++ leBytes 4 e.2.1 ++ leBytes 8 e.2.2)).flatten

/-- Send an ACK of entries and remember it until it is confirmed (R449). -/
def ackNow (s : State) (due : List (Nat × Nat × Nat)) : State :=
  let q := s.pair.txSeq
  let s := sendMule s 0x20 0xFF (ackBody due)
  modPair s (fun p => { p with
    ackDue := []
    lastAck := some s.raw
    ackSent := p.ackSent ++ due.map (fun e => (q, e.1, e.2.1, e.2.2)) })

/-- Send an ACK of what is due; while the link is down it stays due (R449, R450). -/
def sendAck (s : State) : State := if s.pair.ackDue.isEmpty || !linkUp s then s else ackNow s s.pair.ackDue

/-- The last datagram that each stream has launched (R453). -/
def allLaunches (s : State) : List (Nat × Nat × Nat) :=
  s.streams.filterMap (fun st => ((st.held.filter (fun u => 0 < u.sent)).getLast?).map (fun u => (st.id, u.sent - 1, u.seq)))

/-- The final ACK of a Bellwether that gives up covers every datagram launched (R453, R463). -/
def finalAck (s : State) : State := if linkUp s then ackNow s (allLaunches s) else s

/-- A Bellwether gives up control: the final ACK, GIVE_UP when `notice` is set, the net released, standby with every
channel diverged with cause 0xB (R453, R496). Launching stops with the drive of the net (R434). -/
def giveUpNow (s : State) (reason : Nat) (notice : Bool) : State :=
  let s := onlyIf notice s finalAck
  let s := onlyIf notice s (fun s => sendMule s 0x32 0xFF (leBytes 4 reason ++ leBytes 2 (rdFld s GOOSE_CH_FAULT 15 0) ++ zeros 2))
  let s := setDrive s false
  let s := divergeAll s 0xB
  let s := modPair s (fun p => { p with deferred := [] })
  let s := setEvt (count s MULE_GIVEUP_CNT) MULE_EVT 3
  enter s 0x0500 0 [] false s.raw (wordOf reason)

/-- The conditions on which causes 1 and 2 make a Bellwether give up (R452). -/
def mayGiveUp (s : State) : Bool :=
  rdBit s MULE_PAIR_CTL 2 && linkUp s &&
    (rd s GOOSE_CH_FAULT &&& 0xFFFF &&& ~~~(rd s MULE_ELIG >>> 16) == 0)

/-- A cause of giving up occurs on the Bellwether: it gives up, or defers and tests again at each HEALTH (R452). -/
def giveUpCause (s : State) (reason : Nat) : State :=
  if role s = 1 then
    if mayGiveUp s then giveUpNow s reason true
    else
      let s := setEvt (count s MULE_GIVEUP_DEFER) MULE_EVT 6
      let s := enter s 0x0507 0 [] false s.raw (rd s GOOSE_CH_FAULT)
      modPair s (fun p => { p with deferred := p.deferred.filter (fun r => r ≠ reason) ++ [reason] })
  else s

/-- The deferred causes are tested again at each HEALTH; a lasting fault whose CH_FAULT bits software has cleared is waived
(R452; log entry 8). -/
def retestGiveUp (s : State) : State :=
  let s := modPair s (fun p => { p with deferred := p.deferred.filter (fun r => r ≠ 1 || rdFld s GOOSE_CH_FAULT 15 0 ≠ 0) })
  match s.pair.deferred with
  | [] => s
  | r :: _ => if role s = 1 && mayGiveUp s then giveUpNow s r true else s

/-- A lasting fault sets the bit of each channel it affects; on the Bellwether of a pair that is a cause to give up, on
the standby the channels diverge with cause 0xA (R412, R448, R452). -/
def lastingFault (s : State) (chs : List Nat) : State :=
  let s := forEach chs s (fun n s => wrBit s GOOSE_CH_FAULT n true)
  if chs.isEmpty then s
  else if role s = 1 then giveUpCause s 1
  else forEach chs s (fun n s => diverge s n 0xA)

/-- A fault that is lasting at once: entered, counted in IMM_CNT, EVT.IMMEDIATE (R412). -/
def immediateFault (s : State) (kind unit : Nat) (chs : List Nat) (data : Word) : State :=
  let s := enter s kind unit chs true s.raw data
  lastingFault (setEvt (count s GOOSE_IMM_CNT) GOOSE_EVT 6) chs

/-- The Mule link goes down with a cause: 0 detector, 1 timeout, 2 class 4, 3 NAK beyond the buffer (R437, R448, R464). What
is under way is no longer bounded by the window (R450). -/
def muleDown (s : State) (cause : Word) : State :=
  if linkUp s then
    let s := setEvt (count (wrBit s MULE_PAIR_STAT 4 false) MULE_LINK_DOWN_CNT) MULE_EVT 1
    let s := enter s 0x0504 0 [] false s.raw cause
    let s := modPair s (fun p => { p with
      restartAt := some (s.raw + BitVec.ofNat 48 (msTicks 1))
      aligned := false
      skipping := false
      ackSent := [] })
    let s := { s with streams := s.streams.map (fun x => { x with held := x.held.map (fun u => { u with acked := u.sent }) }) }
    divergeAll s 0x9
  else s

/-! ### Receiving (R436, R438, R439) -/

/-- What becomes of a received message that passed its check value. -/
inductive Delivery where
  | accepted | discarded
  deriving DecidableEq, Repr

/-- An ACK entry is confirmed: the datagrams of its stream up to it are (R449). -/
def confirmEntry (s : State) (e : Nat × Nat × Nat) : State :=
  modStream s e.1 (fun x => { x with held := x.held.map (fun u =>
    if u.seq < e.2.2 then { u with acked := u.sent }
    else if u.seq = e.2.2 then { u with acked := max u.acked (min u.sent (e.2.1 + 1)) }
    else u) })

/-- The peer's RX_SEQ confirms every ACK sent before it (R449). -/
def confirm (s : State) (rx : Word) : State :=
  let done := s.pair.ackSent.filter (fun e => sdiff e.1 rx < 0)
  let s := forEach done s (fun e s => confirmEntry s e.2)
  modPair s (fun p => { p with ackSent := p.ackSent.filter (fun e => 0 ≤ sdiff e.1 rx) })

/-- The link comes up (R437, R464). -/
def muleUp (s : State) : State :=
  let s := setEvt (wrBit s MULE_PAIR_STAT 4 true) MULE_EVT 0
  enter s 0x0505 0 [] false s.raw 0

/-- A valid message has arrived on locked and deskewed lanes: where it shows that the peer has received one too, the link is up (R437; log
entry 53). -/
def noteBringUp (s : State) (rx : Word) : State :=
  match s.pair.firstTx with
  | some q => if s.pair.aligned && !linkUp s && decide (0 < sdiff rx q) then muleUp s else s
  | none => s

/-- A message arrives with a good check value: out of sequence it is discarded (and asked for again), else CK[7] judges
its alive counter, and a message of a lower epoch is discarded and counted (R436, R439). -/
def receive (s : State) (type ch : Byte) (h : MuleHdr) (body : List Byte) : State × Delivery :=
  if !isPaired s || !muleFits body then (s, .discarded)
  else if h.lseq ≠ s.pair.rxSeq then
    if s.pair.skipping || sdiff h.lseq s.pair.rxSeq < 0 then (s, .discarded)
    else (sendNak (modPair s (fun p => { p with skipping := true })), .discarded)
  else
    let cov := muleCovered type ch h.lseq h.rxSeq h.epoch body h.alive
    let jumps := aliveJudge (ckOpen s 7) 7 h.alive.toNat
    let s := ckMessage s 7 cov (crc32c cov) h.alive
    let s := onlyIf (jumps != 0) s (fun s => reportFault (setEvt s MULE_EVT 7) 4 0 (wordOf type.toNat))
    let s := modPair s (fun p => { p with rxSeq := p.rxSeq + 1, skipping := false, lastRx := some s.raw })
    let s := noteBringUp (confirm s h.rxSeq) h.rxSeq
    if h.epoch.toNat < (rd s MULE_EPOCH).toNat then
      (setEvt (count s MULE_OLD_EPOCH) MULE_EVT 8, .discarded)
    else
      let s := bump (wr s MULE_PEER_EPOCH h.epoch) MULE_RX_MSG
      (showStale s, .accepted)

/-- Act on a message where it is accepted. -/
def onMessage (s : State) (type ch : Byte) (h : MuleHdr) (body : List Byte) (f : State → State) : State :=
  match receive s type ch h body with
  | (s, .accepted) => f s
  | (s, .discarded) => s

end Sys2Proof.Machine
end

