-- ==== Sys2Proof/Machine/Flow.lean ====
section
/-!
DEFINITION. The merge record of a receive flow and its miss counters (spec/12_lanes_ports.md R330, R331, R335).
-/
namespace Sys2Proof.Machine

/-- RXF_CFG.KIND of a flow (R336). -/
def flowKind (s : State) (f : Nat) : Nat := rdFld s (RXF_CFG f) 2 0

/-- The channel a flow serves. -/
def flowChannel (s : State) (f : Nat) : Nat := rdFld s (RXF_CFG f) 17 14

/-- Count the values from `first` to `last` in MISS_A, MISS_B and LOST by the copies received (R331, R335). -/
def countMisses (s : State) (f : Nat) (first last : BitVec 32) : State :=
  let total := (last - first).toNat + 1
  let seen := (flowOf s f).got.filter (fun g => (g.1 - first).toNat < total)
  let onlyB := (seen.filter (fun g => g.2.2.1 && !g.2.1)).length
  let onlyA := (seen.filter (fun g => g.2.1 && !g.2.2.1)).length
  let lost := total - seen.length
  let s := countBy (countBy (countBy s (RXF_MISS_A f) onlyB) (RXF_MISS_B f) onlyA) (RXF_LOST f) lost
  onlyIf (lost != 0) s (fun s => setEvt s (RXF_EVT f) 2)

/-- The highest value not yet counted whose timestamp the reading unit has passed. -/
def passedTop (x : FlowSt) (passed : BitVec 32 → Bool) : Option (BitVec 32) :=
  match x.counted with
  | none => none
  | some c => (x.got.filter (fun g => 0 ≤ (g.1 - c).toInt && passed g.2.2.2.1)).foldl (fun best g =>
      match best with
      | none => some g.1
      | some b => if 0 < (g.1 - b).toInt then some g.1 else some b) none

/-- The reading unit of a positional flow passes its cut-off or closes its block: the values up to the highest that it has passed are
counted; `passed` tells by the RTP timestamp (R331, R335). -/
def closeFlow (s : State) (f : Nat) (passed : BitVec 32 → Bool) : State :=
  let x := flowOf s f
  match x.counted, passedTop x passed with
  | some c, some h =>
    let s := countMisses s f c h
    modFlow s f (fun x => { x with
      counted := some (h + 1)
      got := x.got.filter (fun g => 0 < (g.1 - h).toInt || -32768 < (g.1 - x.high.getD h).toInt) })
  | _, _ => s

/-- The flows of a channel of a kind. -/
def flowsOf (s : State) (n kind : Nat) : List Nat :=
  (List.range 128).filter (fun f => flowKind s f = kind && flowChannel s f = n)

end Sys2Proof.Machine
end

