-- ==== Sys2Proof/Machine/Queue.lean ====
section
/-!
DEFINITION. The queue engine: rings, doorbells, fetching, completions, event records, moderation, held completions and
resets (spec/14_host_queues.md R366 to R387, R507).
-/
namespace Sys2Proof.Machine

/-! ### The system region in device memory (R339, R342) -/

/-- Whether a controller drives DDR-5 (R337). -/
def oxDdr (i : Nat) : Bool := 2 ≤ i
/-- The device address at which a controller's memory begins (R339). -/
def oxBase (i : Nat) : Nat := if oxDdr i then 0x10000000000 + (i - 2) * 0x4000000000 else i * 0x900000000
/-- The controllers that hold a copy of the system region. -/
def systemCopies (s : State) : List Nat := s.systemPair.filter (fun i => rdBit s (OX_STAT i) 4)

/-- Half a sector of the system region as one copy holds it: a ring in device memory holds its entries over what lies below (R366). -/
def systemHalf (s : State) (i off : Nat) : List Byte := (mget s.rings off).getD (bytesAt s.dev (oxBase i + off) 32)

/-! ### Rings -/

/-- The entries of a ring (R367, R390: sizes other than 4 to 15 are treated as 4). -/
def qSize (s : State) (q : Nat) : Nat :=
  let l := rdFld s (Q_QCTL q) 7 4
  2 ^ (if 4 ≤ l then l else 4)

/-- QCFG.KIND of a queue (R366). -/
def qKind (s : State) (q : Nat) : Nat := rdFld s (Q_QCFG q) 2 0
/-- QCTL.EN of a queue. -/
def qEn (s : State) (q : Nat) : Bool := rdBit s (Q_QCTL q) 0
/-- QSTAT.ERR of a queue. -/
def qErr (s : State) (q : Nat) : Bool := rdBit s (Q_QSTAT q) 1
/-- QSTAT.DRAINING of a queue. -/
def qDraining (s : State) (q : Nat) : Bool := rdBit s (Q_QSTAT q) 2
/-- The head of a queue. -/
def qHead (s : State) (q : Nat) : Nat := rdFld s (Q_HEAD q) 15 0
/-- The tail of a queue. -/
def qTail (s : State) (q : Nat) : Nat := rdFld s (Q_TAIL q) 15 0
/-- The queue a submission or egress queue is bound to. -/
def qBound (s : State) (q : Nat) : Nat := rdFld s (Q_QBIND q) 14 0
/-- The group a completion queue is bound to. -/
def qGroup (s : State) (q : Nat) : Nat := rdFld s (Q_QBIND q) 7 0
/-- Where an entry of a ring in device memory lies, from the start of the system region: BASE counts from there (log entry 62). -/
def ringAt (s : State) (q size slot : Nat) : Nat := (rd s (Q_BASE_HI q)).toNat * 2 ^ 32 + (rd s (Q_BASE_LO q)).toNat + size * slot

/-- Write halves of sectors from an offset of the system region on. -/
def putHalves (s : State) (off : Nat) : Nat → List Byte → State
  | 0, _ => s
  | n + 1, bs => putHalves { s with rings := mput s.rings off (bs.take 32) } (off + 32) n (bs.drop 32)

/-- An entry of a ring in device memory is written, in both copies of the system region (R342, R384). -/
def putRing (s : State) (q size slot : Nat) (bs : List Byte) : State :=
  if rdBit s (Q_QCFG q) 3 then putHalves s (ringAt s q size slot) (bs.length / 32) bs else s

/-- The descriptor in a slot of a ring in device memory, read from the lower-numbered copy (R342). -/
def ringEntry (s : State) (q slot : Nat) : Option (List Byte) :=
  ((systemCopies s).head?).map (fun i => systemHalf s i (ringAt s q 64 slot) ++ systemHalf s i (ringAt s q 64 slot + 32))

/-- Whether a queue's ring lies in host memory and the host serves it (R366, R386). -/
def qHostMem (s : State) (q : Nat) : Bool := !rdBit s (Q_QCFG q) 3 && !rdBit s (Q_QCFG q) 4

/-- How a write to a queue's ring goes out: as a posted write where the ring lies in host memory (R365). -/
def tlpTo (s : State) (q : Nat) : Option Posted := if rdBit s (Q_QCFG q) 3 then none else some posted

/-- The entries between head and tail. -/
def qUsed (s : State) (q : Nat) : Nat := (qTail s q + qSize s q - qHead s q % qSize s q) % qSize s q

/-- A queue's working state; a queue with none yet has no descriptors and phase 1. -/
def queueSt (s : State) (q : Nat) : QueueSt :=
  (queueOf s q).getD { qid := q, outst := [], phase := true, nextSlot := 0, eseq := 0 }

/-- Put a queue's working state back. -/
def putQueue (s : State) (x : QueueSt) : State :=
  { s with queues := x :: s.queues.filter (fun y => y.qid ≠ x.qid) }

/-- Show ACTIVE and OUTST of a queue, and OUTSTANDING device-wide (R370, R390, R391). -/
def showQueue (s : State) (q : Nat) : State :=
  let o := (queueSt s q).outst.length
  let s := wrFld s (Q_QSTAT q) 22 16 o
  let s := wrBit s (Q_QSTAT q) 0 (qEn s q || qDraining s q || o != 0)
  let tot := s.queues.foldl (fun a x => a + x.outst.length) 0
  let held := s.queues.foldl (fun a x => a + (x.outst.filter (fun d => d.held)).length) 0
  wrFld (wrFld s QUE_OUTSTANDING 16 0 tot) QUE_HELD 16 0 held

/-- The completion of a queue's oldest descriptor becomes writable once it is ready and every earlier one of the queue is written or held
(R379, R386): it takes its place behind those that became writable before it. Entries of descriptors that are gone leave. -/
def noteWritable (s : State) (q : Nat) : State :=
  let l := (queueSt s q).outst
  let kept := s.writable.filter (fun w => w.1 ≠ q || l.any (fun o => o.slot = w.2))
  match l.find? (fun o => !o.held) with
  | some o => { s with writable := if o.done.isSome && !kept.contains (q, o.slot) then kept ++ [(q, o.slot)] else kept }
  | none => { s with writable := kept }

/-- Change the descriptors outstanding in a queue. -/
def modOutst (s : State) (q : Nat) (f : List Outst → List Outst) : State :=
  let x := queueSt s q
  noteWritable (showQueue (putQueue s { x with outst := f x.outst }) q) q

/-- Whether nothing that became writable before it and goes to the same completion queue stands before a queue's oldest completion
(R379). -/
def firstWritable (s : State) (q : Nat) : Bool :=
  ((s.writable.find? (fun w => qBound s w.1 = qBound s q)).map (fun w => decide (w.1 = q))).getD true

/-- The queues that have a working state and are bound to a completion queue. -/
def boundTo (s : State) (cq : Nat) : List Nat :=
  (s.queues.map (fun x => x.qid)).filter (fun q => (qKind s q = 1 || qKind s q = 3) && qBound s q = cq)

/-- The completion queues of a group. -/
def groupQueues (s : State) (g : Nat) : List Nat :=
  (s.queues.map (fun x => x.qid)).filter (fun q => qKind s q = 2 && qGroup s q = g)

/-! ### Held state (R386) -/

/-- The function is in D3hot, or in D0 with Bus Master Enable clear (R386, R401). -/
def hostHeld (s : State) : Bool := rdFld s HOST_STAT 9 8 = 3 || !rdBit s HOST_STAT 11

/-- Send PM_PME and count it (R386). -/
def sendPme (s : State) : State := emit (count { s with pmeAt := some s.raw } HOST_PME_CNT) .pme

/-- Something waits for the host in D3hot: PME_Status is set and PM_PME sent, when PME_En is set (R364, R386). -/
def pmeWake (s : State) : State :=
  if rdFld s HOST_STAT 9 8 = 3 && s.pmeEn && !rdBit s HOST_STAT 12 then sendPme (wrBit s HOST_STAT 12 true) else s

/-- A write to the host is due: the link leaves L1 first, counted (R385). -/
def leaveL1 (s : State) : State :=
  if rdBit s HOST_STAT 10 then bump (wrBit s HOST_STAT 10 false) HOST_L1_EXIT_CNT else s

/-! ### Groups and moderation (R383) -/

/-- A group's working state. -/
def groupSt (s : State) (g : Nat) : GroupSt :=
  (s.groups.find? (fun x => x.g = g)).getD { g := g, e := 0, start := 0 }
/-- Put a group's working state back. -/
def putGroup (s : State) (x : GroupSt) : State := { s with groups := x :: s.groups.filter (fun y => y.g ≠ x.g) }

/-- U: the entries written to a group's completion queues and not consumed (R383). -/
def groupU (s : State) (g : Nat) : Nat :=
  (groupQueues s g).foldl (fun a q => a + (if qEn s q || qDraining s q then qUsed s q else 0)) 0

/-- Show U, and leave for IDLE where it is 0 (R383). -/
def groupCheck (s : State) (g : Nat) : State :=
  let u := groupU s g
  let s := wrFld s (GRP_STAT g) 31 16 (min u 65535)
  if u = 0 then wrFld s (GRP_STAT g) 1 0 0 else s

/-- Moderation evaluates a counting group (R383). -/
def groupEval (s : State) (g : Nat) : State :=
  if rdFld s (GRP_STAT g) 1 0 = 1 then
    let x := groupSt s g
    if max (rdFld s (GRP_MOD g) 15 0) 1 ≤ x.e || ticksSince s x.start (rdFld s (GRP_MOD g) 31 16 * 1250) then
      wrFld s (GRP_STAT g) 1 0 2
    else s
  else s

/-- An entry has been written to a completion queue of a group (R383, R384). -/
def groupEntry (s : State) (g : Nat) : State :=
  let x := groupSt s g
  let s := wrFld s (GRP_STAT g) 31 16 (min (groupU s g) 65535)
  match rdFld s (GRP_STAT g) 1 0 with
  | 0 => groupEval (wrFld (putGroup s { x with e := 1, start := s.raw }) (GRP_STAT g) 1 0 1) g
  | 1 => groupEval (putGroup s { x with e := x.e + 1 }) g
  | _ => s

/-- Whether a group's source is held: FIRED, or a queue error with ERR_EN (R383). -/
def groupHeld (s : State) (g : Nat) : Bool :=
  rdFld s (GRP_STAT g) 1 0 = 2 ||
  (rdBit s (GRP_CTL g) 0 && (groupQueues s g).any (fun q => qErr s q || (boundTo s q).any (fun b => qErr s b)))

/-! ### Errors, enabling, draining -/

/-- A queue error: ERR and CODE are set, fetching stops, the event is counted (R369). -/
def queueError (s : State) (q code : Nat) : State :=
  count (wrFld (wrBit s (Q_QSTAT q) 1 true) (Q_QSTAT q) 15 8 code) QUE_QERR_CNT

/-- Disabled completion queues whose bound queues have all become inactive stop draining (R370). -/
def settleDrains (s : State) : State :=
  forEach (s.queues.map (fun x => x.qid)) s (fun q s =>
    if qKind s q = 2 && qDraining s q && !(boundTo s q).any (fun b => rdBit s (Q_QSTAT b) 0) then
      groupCheck (showQueue (wrBit s (Q_QSTAT q) 2 false) q) (qGroup s q)
    else s)

/-- LOG2_SIZE of a host-memory queue is accepted while the queue is disabled and no drain uses its ring (R367). -/
def acceptSize (s : State) (q : Nat) (v : Word) : State :=
  if qEn s q || qDraining s q || rdBit s (Q_QCFG q) 3 then s else wrFld s (Q_QCTL q) 7 4 (fld v 7 4)

/-- A write of QCTL with EN = 1: the ring is reset and the queue enabled, unless it is still active or draining (R367,
R369, R370). -/
def enableQueue (s : State) (q : Nat) (v : Word) : State :=
  if qEn s q then s
  else
    let s := acceptSize s q v
    let active := (qKind s q = 1 || qKind s q = 3) && (queueSt s q).outst.length != 0
    if active || qDraining s q then s
    else
      let s := wrBit s (Q_QCTL q) 0 true
      let s := wr (wr s (Q_HEAD q) 0) (Q_TAIL q) 0
      let s := wrFld (wrBit s (Q_QSTAT q) 1 false) (Q_QSTAT q) 15 8 0
      let x := queueSt s q
      let s := showQueue (putQueue s { x with phase := true }) q
      if qKind s q = 2 then groupCheck s (qGroup s q) else s

/-- A write of QCTL with EN = 0: EN reads 0 at once; a completion queue drains until every queue bound to it is inactive
(R370). -/
def disableQueue (s : State) (q : Nat) (v : Word) : State :=
  if qEn s q then
    let busy := qKind s q = 2 && (boundTo s q).any (fun b => rdBit s (Q_QSTAT b) 0)
    let s := wrBit s (Q_QCTL q) 0 false
    let s := onlyIf busy s (fun s => wrBit s (Q_QSTAT q) 2 true)
    let s := showQueue s q
    let s := onlyIf (qKind s q = 2) s (fun s => groupCheck s (qGroup s q))
    settleDrains s
  else acceptSize s q v

/-! ### Doorbells (R368, R369) -/

/-- Whether a queue is enabled for doorbells: a completion queue whose disable has not taken effect still is (R368, R370). -/
def qOpen (s : State) (q : Nat) : Bool := qEn s q || (qKind s q = 2 && qDraining s q)

/-- A doorbell to BAR2. -/
def ringDoorbell (s : State) (q : Nat) (sizeOk : Bool) (v : Word) : State :=
  if !sizeOk then count s HOST_BAD_ACC
  else if rdBit s (Q_QCFG q) 4 || !qOpen s q || qKind s q = 0 then count s QUE_DB_REJ
  else
    let idx := fld v 15 0
    if qSize s q ≤ idx then queueError s q 0x01
    else if qKind s q = 1 || qKind s q = 3 then wr s (Q_TAIL q) (wordOf idx)
    else if qUsed s q < (idx + qSize s q - qHead s q) % qSize s q then queueError s q 0x02
    else
      let s := wr s (Q_HEAD q) (wordOf idx)
      if qKind s q = 2 then groupCheck s (qGroup s q) else s

/-! ### Fetching (R370, R371, R377) -/

/-- The descriptors that hold a reservation in a completion queue (R370). -/
def reserved (s : State) (cq : Nat) : Nat :=
  (boundTo s cq).foldl (fun a q => a + (queueSt s q).outst.length) 0

/-- Whether the queue engine may fetch from a queue (R370, R386, R507). -/
def mayFetch (s : State) (q : Nat) : Bool :=
  let cq := qBound s q
  (qKind s q = 1 || qKind s q = 3) && qEn s q && !qErr s q && qHead s q != qTail s q &&
    qKind s cq = 2 && qOpen s cq && qUsed s cq + reserved s cq < qSize s cq - 1 &&
    (queueSt s q).outst.length < 64 && rdFld s QUE_OUTSTANDING 16 0 < 65536 &&
    !(qHostMem s q && hostHeld s) && s.img.forced.isNone

/-- The least payload of a command: the fixed part of its layout (R120, R212, R283, R286, R288, R373 to R375). A shorter PLEN is out of
range: the manual names that without the ranges (log entry 62). -/
def leastPayload (op : Nat) : Nat :=
  match op with
  | 4 => 24
  | 7 => 40
  | 8 => 48
  | _ => 16

/-- The form of a command descriptor: none where it is well formed, else its queue-engine status (R371, R373, R377). An
unknown opcode is left to UNKNOWN_OPCODE. -/
def descStatus (steward : Bool) (d : List Byte) (payload : Option (List Byte)) : Option Byte :=
  let op := leAt d 0 1
  let flags := leAt d 1 1
  let ch := leAt d 2 1
  let plen := leAt d 6 2
  let inl := flags % 2 = 1
  if op = 0 || 8 < op then none
  else if steward && !Config.stewardAllows op then some 0x83
  else if 2 ≤ flags || leAt d 3 1 ≠ 0 then some 0x81
  else if (if op = 2 || op = 3 then 15 < ch else ch ≠ 0xFF) then some 0x81
  else if (if inl then 48 else 4096) < plen || plen < leastPayload op then some 0x81
  else if !inl && leAt d 8 8 % 8 ≠ 0 then some 0x81
  else if op = 1 && plen ≠ 16 then some 0x81
  else
    match (if inl then some ((d.drop 16).take plen) else payload) with
    | none => some 0x82
    | some p =>
      if op = 1 && ((leAt p 12 1 ≠ 1 && leAt p 12 1 ≠ 2) || 1 < leAt p 13 1 || leAt p 15 1 ≠ 0) then some 0x81 else none

/-- The payload of a descriptor: inline or read from memory (R371). -/
def descPayload (d : List Byte) (payload : Option (List Byte)) : Option (List Byte) :=
  if leAt d 1 1 % 2 = 1 then some ((d.drop 16).take (leAt d 6 2)) else payload.map (fun p => p.take (leAt d 6 2))

/-- The form of an egress launch descriptor (R377, R380). -/
def egressStatus (d : List Byte) (packet : Option (List Byte)) : Option Byte :=
  if 4 ≤ leAt d 0 1 || leAt d 1 1 ≠ 0 || leAt d 6 2 < 60 || 9212 < leAt d 6 2 || 2 ^ 40 ≤ leAt d 8 8 ||
      leAt d 24 20 ≠ 0 || leAt d 44 20 ≠ 0 then some 0x81
  else match packet with
    | none => some 0x82
    | some _ => none

/-- Fetch the next descriptor of a queue (R369 to R371, R377, R380). `desc` is what the read of a ring in host memory returns, none on a
DMA error; `payload` what the read of the payload or packet returns. -/
def fetchDescriptor (s : State) (q : Nat) (desc payload : Option (List Byte)) : State :=
  if !mayFetch s q then s
  else match if rdBit s (Q_QCFG q) 3 then ringEntry s q (qHead s q) else desc with
    | none => queueError s q 0x03
    | some d0 =>
      let d := padTo 64 d0
      let head := (qHead s q + 1) % qSize s q
      let s := bump (wr s (Q_HEAD q) (wordOf head)) (Q_ENTRIES q)
      let x := queueSt s q
      let egress := qKind s q = 3
      let st := if egress then egressStatus d payload else descStatus (rdBit s (Q_QCFG q) 4) d payload
      let o : Outst := { slot := x.nextSlot, opcode := if egress then 0x40 else leAt d 0 1
                         cid := if egress then leAt d 2 2 else leAt d 4 2, desc := d
                         payload := if egress then payload else descPayload d payload
                         handed := st.isSome || egress
                         done := st.map (fun b => (b, zeros 24)), headAfter := head, held := false, dead := false }
      let s := noteWritable (showQueue (putQueue s { x with outst := x.outst ++ [o], nextSlot := x.nextSlot + 1 }) q) q
      if egress && st.isNone then
        modPort s (rdFld s (Q_QCFG q) 9 5) (fun p => { p with hostQ := p.hostQ ++
          [{ q := q, slot := x.nextSlot, ts := leAt d 0 1 % 2 = 1, now := leAt d 0 1 / 2 % 2 = 1
             id := BitVec.ofNat 16 (leAt d 4 2), bytes := (payload.getD []).take (leAt d 6 2), launch := BitVec.ofNat 40 (leAt d 8 8)
             past := leAt d 0 1 / 2 % 2 = 0 && (BitVec.ofNat 40 (leAt d 8 8) - now40 s).toInt < 0 }] })
      else s

/-! ### Handing over and completing (R372, R377 to R379) -/

/-- The next descriptor of a queue to hand to a unit: descriptors are handed over in order (R372). -/
def nextUnhanded (s : State) (q : Nat) : Option Outst := (queueSt s q).outst.find? (fun o => !o.handed)

/-- A descriptor is handed to its unit. -/
def markHanded (s : State) (q slot : Nat) : State :=
  modOutst s q (fun l => l.map (fun o => if o.slot = slot then { o with handed := true } else o))

/-- A descriptor finishes with a status and a RESULT (R377, R378). -/
def finish (s : State) (q slot : Nat) (status : Nat) (result : List Byte) : State :=
  modOutst s q (fun l => l.map (fun o =>
    if o.slot = slot && o.done.isNone then { o with done := some (BitVec.ofNat 8 status, padTo 24 result) } else o))

/-- Take the next un-handed descriptor of a queue when it carries an opcode, and act on it. -/
def onCommand (s : State) (q op : Nat) (f : Outst → List Byte → State → State) : State :=
  match nextUnhanded s q with
  | none => s
  | some o => if o.opcode = op then f o (o.payload.getD []) (markHanded s q o.slot) else s

/-- RESULT of a command that binds or is refused: FRAME and CMD_SEQ (R378). -/
def bindResult (frame : Nat) (seq : Word) : List Byte := leBytes 8 frame ++ wordBytes seq

/-- RESULT of a refused binding command (R378). -/
def refusedResult : List Byte := bindResult 0 0xFFFFFFFF

/-- The 32 bytes of a completion entry (R377). -/
def completionBytes (q : Nat) (phase : Bool) (o : Outst) : List Byte :=
  let d := o.done.getD (0, zeros 24)
  leBytes 2 o.cid ++ leBytes 2 (q + 32768 * b2n phase) ++ leBytes 2 o.headAfter ++ leBytes 1 o.opcode ++ [d.1] ++ d.2

/-- Write one completion to the queue it is bound to: the entry first, then U and E (R377, R379, R384). A completion of a
disabled queue is not written (R387). -/
def writeEntry (s : State) (q : Nat) (o : Outst) : State :=
  let cq := qBound s q
  if o.dead || !qOpen s cq then s
  else
    let s := if qHostMem s cq then leaveL1 s else s
    let t := qTail s cq
    let x := queueSt s cq
    let s := putRing (emit s (.completion cq t (tlpTo s cq) (completionBytes q x.phase o))) cq 32 t (completionBytes q x.phase o)
    let t' := (t + 1) % qSize s cq
    let s := bump (wr s (Q_TAIL cq) (wordOf t')) (Q_ENTRIES cq)
    let s := if t' = 0 then putQueue s { x with phase := !x.phase } else s
    groupEntry s (qGroup s cq)

/-- Take a descriptor off a queue. -/
def retire (s : State) (q slot : Nat) : State :=
  settleDrains (modOutst s q (fun l => l.filter (fun o => o.slot ≠ slot)))

/-- The oldest descriptor of a queue, when its completion is ready and none of its completion queue's became writable before, is written; in
the held state it goes to the completion store instead (R379, R386). -/
def writeCompletion (s : State) (q : Nat) : State :=
  match (queueSt s q).outst with
  | [] => s
  | o :: _ =>
    if o.done.isNone then s
    else if !o.dead && qHostMem s (qBound s q) && hostHeld s then
      match (queueSt s q).outst.find? (fun o => !o.held) with
      | none => s
      | some h =>
        if h.done.isNone then s
        else pmeWake (modOutst s q (fun l => l.map (fun o => if o.slot = h.slot then { o with held := true } else o)))
    else if firstWritable s q then retire (writeEntry s q o) q o.slot
    else s

/-- Write the completions that are held, in the order in which they became writable (R379, R386). -/
def writeHeld (s : State) : State :=
  forEach s.writable s (fun w s =>
    match (queueSt s w.1).outst.find? (fun o => o.slot = w.2 && o.held) with
    | some o => retire (writeEntry s w.1 o) w.1 o.slot
    | none => s)

/-! ### Event records (R381, R382) -/

/-- One entry of an event queue: header, record, padding to whole slots (R381). -/
def recordBytes (len slots : Nat) (phase pad : Bool) (eseq : Word) (bs : List Byte) : List Byte :=
  padTo (64 * slots) (leBytes 2 len ++ leBytes 1 slots ++ leBytes 1 (b2n phase + 2 * b2n pad) ++ wordBytes eseq ++ bs)

/-- Whether an event queue takes records: an enabled event queue without error, not in held host memory (R382, R386). -/
def recordOpen (s : State) (q : Nat) : Bool :=
  qKind s q = 4 && qEn s q && !qErr s q && !(qHostMem s q && hostHeld s)

/-- Write one entry at the tail of an event queue. -/
def putSlots (s : State) (q len slots : Nat) (pad : Bool) (bs : List Byte) : State :=
  let x := queueSt s q
  let t := qTail s q
  let bytes := recordBytes len slots x.phase pad x.eseq bs
  let s := putRing (emit s (.record q t (tlpTo s q) bytes)) q 64 t bytes
  let t' := (t + slots) % qSize s q
  let s := wr s (Q_TAIL q) (wordOf t')
  let s := wr s (Q_ENTRIES q) (rd s (Q_ENTRIES q) + wordOf slots)
  putQueue s { x with eseq := x.eseq + 1, phase := if t' = 0 then !x.phase else x.phase }

/-- A producer writes a record, or drops it where the queue is full; answers whether it was written (R381, R382). -/
def putRecord (s : State) (q : Nat) (bs : List Byte) : State × Bool :=
  let slots := (bs.length + 8 + 63) / 64
  let toEnd := qSize s q - qTail s q
  let pad := if slots ≤ toEnd then 0 else toEnd
  if recordOpen s q && slots + pad + qUsed s q < qSize s q then
    let s := if qHostMem s q then leaveL1 s else s
    let s := if pad = 0 then s else putSlots s q 0 pad true []
    (putSlots s q bs.length slots false bs, true)
  else (count s (Q_EVQ_DROP q), false)

/-! ### Power states and resets (R386, R387) -/

/-- The host-memory queues that have a working state. -/
def hostQueues (s : State) : List Nat := (s.queues.map (fun x => x.qid)).filter (fun q => qHostMem s q)

/-- Disable a queue at once and empty its ring. -/
def clearRing (s : State) (q : Nat) : State :=
  let s := wrBit s (Q_QCTL q) 0 false
  let s := wr (wr s (Q_HEAD q) 0) (Q_TAIL q) 0
  wr s (Q_QSTAT q) 0

/-- Reset the host-memory side of the queue engine: queues disabled, held completions discarded, descriptors still running
complete with nothing written (R387). -/
def resetHostQueues (s : State) : State :=
  let s := forEach (hostQueues s) s (fun q s =>
    let s := modOutst s q (fun l => (l.filter (fun o => o.done.isNone)).map (fun o => { o with dead := true }))
    showQueue (clearRing s q) q)
  settleDrains (forEach (List.range 256) s (fun g s => if (groupQueues s g).isEmpty then s else groupCheck s g))

/-! ### A full image takes effect (R507) -/

/-- Every outstanding descriptor completes with 0x84 in descriptor order; held completions are discarded (R507 step 2). -/
def withdrawAll (s : State) : State :=
  forEach (s.queues.map (fun x => x.qid)) s (fun q s =>
    let s := modOutst s q (fun l => (l.filter (fun o => !o.held)).map (fun o =>
      if o.done.isNone then { o with done := some (0x84, zeros 24), handed := true } else o))
    forEach (queueSt s q).outst s (fun o s =>
      if qHostMem s (qBound s q) && hostHeld s then retire s q o.slot else retire (writeEntry s q o) q o.slot))

/-- Load every queue's kind and bindings from the DEVICE section (R507 steps 3 and 4). -/
def loadQueues (s : State) (plan : List QueuePlan) : State :=
  let olds := s.queues.map (fun x => x.qid)
  let s := forEach olds s (fun q s => clearRing (wr (wr s (Q_QCFG q) 0) (Q_QBIND q) 0) q)
  let s := { s with queues := s.queues.map (fun x => { x with outst := [], phase := true }), writable := [] }
  let s := forEach plan s (fun p s =>
    let q := p.qid
    let s := wr s (Q_QCFG q) (mkWord [(2, 0, p.kind), (3, 3, b2n p.devmem), (4, 4, b2n p.steward), (9, 5, p.port)])
    let s := wr s (Q_QBIND q) (wordOf (if p.kind = 2 then p.bind % 256 else if p.kind = 4 then 0 else p.bind % 32768))
    let s := putQueue s { queueSt s q with outst := [], phase := true }
    let s := clearRing s q
    let s := if p.devmem then
        wrBit (wrFld (wr64 s (Q_BASE_LO q) (Q_BASE_HI q) p.base) (Q_QCTL q) 7 4 p.log2) (Q_QCTL q) 0 true
      else s
    showQueue s q)
  let s := wr (wr s QUE_OUTSTANDING 0) QUE_HELD 0
  forEach (s.groups.map (fun x => x.g)) s (fun g s => wr s (GRP_STAT g) 0)

end Sys2Proof.Machine
end

