-- ==== Sys2Proof/Machine/Frames.lean ====
section
/-!
DEFINITION. The frame schedule of a channel pipe (R77, R85, R506), input binding (R78, R81, R82), frame sets (R79, R83, R84),
the governor (R89, R90), the IDR decision (R117) and the metadata record (R97, R98).
-/
namespace Sys2Proof.Machine

/-! ### The grid and its instants (R77, R85, R506) -/

/-- Grid point `i` (R77). -/
def gAt (g : Grid) (i : Nat) : Int := g.g0 + (((i - g.j0) * g.num / max 1 g.den : Nat) : Int)

/-- B of grid point `i`: g + A (R79). -/
def boundaryAt (g : Grid) (i : Nat) : Int := gAt g i + 500000
/-- The latch instant of grid point `i` (R79). -/
def latchAt (g : Grid) (i : Nat) : Int := boundaryAt g i - 100000
/-- The cut-off of grid point `i` (R81). -/
def cutoffAt (g : Grid) (i : Nat) : Int := boundaryAt g (i + 1)

/-- The capture time g_k of a frame. -/
def FrameSt.g (f : FrameSt) : Int := gAt f.grid f.j
/-- S_k (R85, R506). -/
def FrameSt.start (f : FrameSt) : Int := gAt f.grid (f.j + f.plan.delay - 1) + 1100000
/-- G_k. -/
def FrameSt.gov (f : FrameSt) : Int := f.start - 100000
/-- The rescue instant: S_k + floor(9 TF_NUM / (10 TF_DEN)) (R506). -/
def FrameSt.rescueAt (f : FrameSt) : Int := f.start + ((9 * f.grid.num / (10 * max 1 f.grid.den) : Nat) : Int)
/-- T_k. -/
def FrameSt.deadline (f : FrameSt) : Int := gAt f.grid (f.j + f.plan.delay) + 1100000
/-- The launch time (R36). -/
def FrameSt.launch (f : FrameSt) : Int := gAt f.grid (f.j + f.plan.delay) + 1500000
/-- The presentation offset of the channel (R271). -/
def FrameSt.presentOffset (f : FrameSt) : Int :=
  ((((f.plan.delay + 1) * f.grid.num + max 1 f.grid.den - 1) / max 1 f.grid.den : Nat) : Int) + 1500000 + f.plan.hold

/-- Whether a capture time lies in the window of grid point `i`: [g - Tf/2, g + Tf/2) (R78). -/
def inWindow (g : Grid) (i : Nat) (c : Int) : Bool :=
  let d := 2 * (g.den : Int) * (c - gAt g i)
  0 ≤ d + g.num && d < g.num

/-- The grid point in whose window a capture time lies; the lower one where two windows meet in it. -/
def pointOf (g : Grid) (c : Int) : Option Nat :=
  let i := g.j0 + ((c - g.g0) * g.den / max 1 g.num).toNat
  [i - 1, i, i + 1, i + 2].find? (fun i => g.j0 ≤ i && inWindow g i c)

/-! ### Access to frames and sets -/

/-- The frame of a channel at a grid point. -/
def frameAt (s : State) (n j : Nat) : Option FrameSt := (chan s n).frames.find? (fun f => f.j = j)

/-- Change the frame of a channel at a grid point. -/
def modFrame (s : State) (n j : Nat) (g : FrameSt → FrameSt) : State :=
  modChan s n (fun c => { c with frames := c.frames.map (fun f => if f.j = j then g f else f) })

/-- The oldest frame of a channel with a property. -/
def oldest (s : State) (n : Nat) (p : FrameSt → Bool) : Option FrameSt := (chan s n).frames.find? p

/-- The value of an RWF register in a frame's set (R83). -/
def FrameSt.reg (f : FrameSt) (r : Reg) : Word := (mget f.set r.addr).getD r.reset

/-- Field [hi:lo] of an RWF register in a frame's set. -/
def FrameSt.fld (f : FrameSt) (r : Reg) (hi lo : Nat) : Nat := Sys2Proof.Machine.fld (f.reg r) hi lo

/-- The channel whose set an RWF register belongs to (R12, R99, R228). -/
def rwfOwner (s : State) (a : Nat) : Option Nat :=
  if 0x400000 ≤ a && a < 0x500000 then some ((a - 0x400000) / 0x10000)
  else if 0x300000 ≤ a && a < 0x340000 then some ((a - 0x300000) / 0x4000)
  else if 0x340100 ≤ a && a < 0x400000 then
    let j := (a - 0x340000) / 0x4000
    let o := ((a - 0x340000) % 0x4000 - 0x100) / 0x40
    if rdBit s (OUT_CFG j o) 0 then some (rdFld s (OUT_CFG j o) 7 4) else none
  else none

/-- The values in force of a channel's RWF registers that differ from reset. -/
def forceOf (s : State) (n : Nat) : WordMap := s.force.filter (fun e => rwfOwner s e.1 = some n)

/-- The RWF bits of the register at an offset. -/
def rwfMask (a : Nat) : Word :=
  match rowAt a with
  | some r => wordOf r.rwf
  | none => 0

/-- The RWF part of a register's reset value, in force until an image or a set gives another. -/
def forceAt (s : State) (a : Nat) : Word := (mget s.force a).getD (resetAt a)

/-! ### Writes accepted at or after a latch instant (R13, R84) -/

/-- The latch instant of a channel's next boundary has come and RWF_LATCH has still to carry it out. -/
def latchDue (s : State) (n : Nat) : Bool :=
  let c := chan s n
  match c.grid with
  | some g => c.bound.isNone && reached s (latchAt g c.j)
  | none => false

/-- Before a register is written: where the write comes at or after the latch instant, the value that the latch takes is kept; `none`
where it takes none. -/
def noteLate (s : State) (n a : Nat) (old : Option Word) : State :=
  if latchDue s n && !(chan s n).late.any (fun x => x.1 = a) then
    modChan s n (fun c => { c with late := c.late ++ [(a, old)] })
  else s

/-- Whether a register was written at or after the latch instant. -/
def Chan.lateAt (c : Chan) (a : Nat) : Bool := c.late.any (fun x => x.1 = a)

/-- The value of a register as the latch takes it; none where it takes none. -/
def latchValue (s : State) (n : Nat) (r : Reg) : Option Word :=
  match (chan s n).late.find? (fun x => x.1 = r.addr) with
  | some x => x.2
  | none => some (rd s r)

/-- The value of a register that is in force when written, as it was at the latch instant (R84, R111). -/
def wordAtLatch (s : State) (n : Nat) (r : Reg) : Word := (latchValue s n r).getD (rd s r)

/-- A latch is carried out: what came at or after its instant waits for the next one. -/
def latchCarried (s : State) (n : Nat) : State :=
  modChan s n (fun c => { c with
    late := []
    cmds := c.cmds.map (fun x => { x with late := false })
    pend := c.pend.map (fun x => { x with late := false }) })

/-- Make an RWF register read what is in force: its pending value is discarded (R14, R227). -/
def dropPending (s : State) (a : Nat) : State :=
  let r := regAt a
  let m := rwfMask a
  wr s r ((rd s r &&& ~~~m) ||| (forceAt s a &&& m))

/-- Discard every pending RWF write of a channel (R14). -/
def discardPending (s : State) (n : Nat) : State :=
  let s := forEach (chan s n).dirty s (fun a s => dropPending s a)
  modChan s n (fun c => { c with
    dirty := []
    late := [] })

/-- The scaler outputs that follow a channel's boundaries: its ladder's and its mosaic tiles' (R228). -/
def channelOutputs (s : State) (n : Nat) : List (Nat × Nat) :=
  let lad := match (chan s n).plan with
    | none => []
    | some p => p.outs.map (fun o => (o.scl, o.out))
  let dev := match s.img.inForce with
    | none => []
    | some i => match i.reading.device with
      | none => []
      | some d => (d.tiles.filter (fun t => t.channel = n)).map (fun t => (t.scl, t.out))
  lad ++ dev

/-- Discard the RWF writes that are pending at a latch; those accepted after its instant stay (R14, R63). OUT_STAT.REFUSED of the channel's
outputs ends with it (R227). -/
def discardAtLatch (s : State) (n : Nat) : State :=
  let c := chan s n
  let s := forEach (channelOutputs s n) s (fun jo s => wrBit s (OUT_STAT jo.1 jo.2) 0 false)
  let s := forEach (c.dirty.filter (fun a => !c.lateAt a)) s (fun a s => dropPending s a)
  modChan s n (fun c => { c with dirty := c.dirty.filter (fun a => c.lateAt a) })

/-- Whether a waiting command is a splice. -/
def PendCmd.isSplice (c : PendCmd) : Bool :=
  match c.kind with
  | .splice _ _ => true
  | _ => false

/-! ### Input (R78, R81, R82) -/

/-- Whether a run lies inside the raster (R82). -/
def runInside (p : ChannelPlan) (r : Srd) : Bool := r.row < p.height && r.offset + r.y.length ≤ p.width

/-- The luma a run gives a position. -/
def runLuma (r : Srd) (x y : Nat) : Option Nat :=
  if r.row = y && r.offset ≤ x && x < r.offset + r.y.length then some (r.y.getD (x - r.offset) 0) else none

/-- The chroma a run gives a 4:2:2 chroma position. -/
def runChroma (cs : List Nat) (r : Srd) (x y : Nat) : Option Nat :=
  if r.row = y && r.offset / 2 ≤ x && x < r.offset / 2 + cs.length then some (cs.getD (x - r.offset / 2) 0) else none

/-- The last value that a list of runs gives a position. -/
def lastRun (rs : List Srd) (f : Srd → Option Nat) : Option Nat :=
  rs.foldl (fun a r => match f r with
    | some v => some v
    | none => a) none

/-- A plane whose positions take the received samples, else those of a base plane; and whether any was not received. -/
def fillPlane (base : Plane) (got : Nat → Nat → Option Nat) : Plane × Bool :=
  let cells := base.px.zipIdx.map (fun p =>
    match got (p.2 % max 1 base.w) (p.2 / max 1 base.w) with
    | some v => (v, false)
    | none => (p.1, true))
  ({ base with px := cells.map (fun c => c.1) }, cells.any (fun c => c.2))

/-- A plane of one value. -/
def flatPlane (w h v : Nat) : Plane := { w := w, h := h, px := List.replicate (w * h) v }

/-- The black of R82 in the programme format. -/
def blackPicture (p : ChannelPlan) : Picture :=
  { y := flatPlane p.width p.height 64
    cb := flatPlane (p.width / 2) p.height 512
    cr := flatPlane (p.width / 2) p.height 512 }

/-- The picture that runs make over a base, and whether a position holds no received sample (R81). -/
def placeRuns (base : Picture) (rs : List Srd) : Picture × Bool :=
  let y := fillPlane base.y (fun x y => lastRun rs (fun r => runLuma r x y))
  let cb := fillPlane base.cb (fun x y => lastRun rs (fun r => runChroma r.cb r x y))
  let cr := fillPlane base.cr (fun x y => lastRun rs (fun r => runChroma r.cr r x y))
  ({ y := y.1, cb := cb.1, cr := cr.1 }, y.2 || cb.2 || cr.2)

/-- A plane brought to a size: its samples where it has them, elsewhere a value. -/
def fitPlane (w h v : Nat) (p : Plane) : Plane :=
  if p.w = w && p.h = h then p
  else { w := w, h := h, px := (List.range (w * h)).map (fun i =>
    if i % w < p.w && i / w < p.h then p.px.getD (i / w * p.w + i % w) v else v) }

/-- The input of the frame before in the raster of a plan. A re-plan without RESTART may change the raster; a position that the old raster
does not have is black (R81; DESIGN CHOICE, log entry 62: the manual gives no sample for it). -/
def fitPicture (p : ChannelPlan) (x : Picture) : Picture :=
  { y := fitPlane p.width p.height 64 x.y
    cb := fitPlane (p.width / 2) p.height 512 x.cb
    cr := fitPlane (p.width / 2) p.height 512 x.cr }

/-- The input of the frame before, black at the first frame of a grid (R78, R81). -/
def inputBefore (s : State) (n : Nat) (p : ChannelPlan) : Picture := ((chan s n).lastInput.map (fitPicture p)).getD (blackPicture p)

/-- CRC-32C of a frame's programme samples. The manual does not state the order of the samples' bytes, so the bytes are free
(R97; log entry 6). -/
def inputCrcOf (p : Picture) : Word := crc32c (Config.sampleBytes p)

/-- Whether a slice composes 4:2:0: a channel with a 4:2:2 rendition composes 4:2:2 (R208). -/
def composes420 (p : ChannelPlan) : Bool := p.c420 && !p.rends.any (fun r => r.c422)

/-- The first source frame fixes g_0: the grid starts and RUNNING is set (R77, R101). -/
def bindGrid (s : State) (n : Nat) (p : ChannelPlan) (g0 : Int) : State :=
  let s := modChan s n (fun c => { c with
    grid := some { g0 := g0, j0 := c.j, num := p.tfNum, den := max 1 p.tfDen }
    k := 0
    bound := none
    lastInput := none })
  wrBit (wr64 s (CH_G0_LO n) (CH_G0_HI n) (BitVec.ofInt 64 g0).toNat) (CH_STAT n) 1 true

/-- Add received samples to the source frame of a capture time. -/
def addSource (l : List SourceFrame) (c : Int) (rs : List Srd) (full : Option Picture) : List SourceFrame :=
  if l.any (fun x => x.capture = c) then
    l.map (fun x => if x.capture = c then { x with srds := x.srds ++ rs, full := if full.isSome then full else x.full } else x)
  else l ++ [{ capture := c, srds := rs, full := full, late := false }]

/-- A source frame begins to arrive, or goes on (R77). -/
def sourceBegins (s : State) (n : Nat) (c : Int) : State :=
  modChan s n (fun x => { x with begun := if x.begun.contains c then x.begun else c :: x.begun })

/-- A part of a source frame arrives: before the grid exists the first source frame that begins after TIME_SET binds it (R77, R489);
after the cut-off of its frame it is late (R78, R81). `late` counts it. A channel that has stopped or pauses takes no input, but what
comes late for a frame it had accepted is counted (R59, R65, R81). -/
def receiveSource (s : State) (n : Nat) (p : ChannelPlan) (c : Int) (rs : List Srd) (full : Option Picture)
    (late : State → State) : State :=
  let ch := chan s n
  let s := sourceBegins s n c
  if ch.stopped || ch.gap.isSome then
    match ch.grid.bind (fun g => (pointOf g c).filter (fun i => i < ch.heldFrom && reached s (cutoffAt g i))) with
    | some _ => late s
    | none => s
  else
    let s := match ch.grid with
      | some _ => s
      | none =>
        if rdBit s TIM_STAT 0 && !ch.begun.contains c then bindGrid s n p c else s
    match (chan s n).grid with
    | none => s
    | some g =>
      match pointOf g c with
      | none => s
      | some i =>
        if reached s (cutoffAt g i) then late s
        else modChan s n (fun x => { x with sources := addSource x.sources c rs full })

/-! ### The governor (R90) -/

/-- R90's U_Q8. -/
def govU : Nat := 218
/-- R90's S_FLOOR. -/
def govFloor : Nat := 81920
/-- R90's RAISE_MAX. -/
def raiseMax : Nat := 4

/-- work(r, e) (R90). -/
def govWork (r : RendPlan) (e : Nat) : Nat := r.w * r.h * codecCost r.codec * effQ8 e / 65536

/-- The effort of a rendition in a list. -/
def effortOf (es : List (Nat × Nat)) (r d : Nat) : Nat := (mget es r).getD d

/-- predict(e) (R90). -/
def govPredict (rs : List RendPlan) (sUse : Nat) (es : List (Nat × Nat)) : Nat :=
  (rs.foldl (fun a r => a + govWork r (effortOf es r.id 0)) 0) * sUse / 65536

/-- PRIO of a rendition, values above 39 as 39 (R101). -/
def prioOf (f : FrameSt) (n r : Nat) : Nat := min 39 (f.fld (CH_REN_EFF n r) 17 12)

/-- Insert a rendition in priority order: lower PRIO first, then lower ID (R90). -/
def prioInsert (key : RendPlan → Nat) (r : RendPlan) : List RendPlan → List RendPlan
  | [] => [r]
  | x :: xs => if key r < key x || (key r = key x && r.id < x.id) then r :: x :: xs else x :: prioInsert key r xs

/-- The renditions of a frame in priority order, most important first. -/
def byPriority (f : FrameSt) (n : Nat) : List RendPlan :=
  f.plan.rends.foldl (fun l r => prioInsert (fun x => prioOf f n x.id) r l) []

/-- lo[r] (R90). -/
def govLo (f : FrameSt) (n r : Nat) : Nat := max (f.fld (CH_GOV_CTL n) 2 0) (f.fld (CH_REN_EFF n r) 6 4)
/-- hi[r]; never below lo[r] (R90). -/
def govHi (f : FrameSt) (n r : Nat) : Nat :=
  max (govLo f n r) (min (f.fld (CH_GOV_CTL n) 6 4) (f.fld (CH_REN_EFF n r) 10 8))

/-- What the governor holds while it lowers: the efforts, the prediction, the steps taken, whether it is done. -/
structure GovRun where
  es : List (Nat × Nat)
  pred : Nat
  steps : Nat
  done : Bool
  deriving DecidableEq, Repr

/-- Lower one rendition by one level where it is above lo[r] and the prediction does not fit (R90). -/
def govLowerOne (f : FrameSt) (n sUse cap : Nat) (x : GovRun) (r : RendPlan) : GovRun :=
  if x.done then x
  else
    let e := effortOf x.es r.id 0
    if govLo f n r.id < e then
      let es := mput x.es r.id (e - 1)
      let p := govPredict f.plan.rends sUse es
      { es := es, pred := p, steps := x.steps + 1, done := p ≤ cap }
    else x

/-- Lower, least important first, until the prediction fits or every rendition is at lo[r] (R90). -/
def govLower (f : FrameSt) (n sUse cap : Nat) (x : GovRun) : GovRun :=
  (List.range 8).foldl (fun x _ => (byPriority f n).reverse.foldl (govLowerOne f n sUse cap) x) x

/-- Raise at most four renditions by one level, most important first (R90). -/
def govRaise (f : FrameSt) (n sUse cap : Nat) (x : GovRun) : GovRun :=
  (byPriority f n).foldl (fun x r =>
    let e := effortOf x.es r.id 0
    if x.steps < raiseMax && e < govHi f n r.id then
      let es := mput x.es r.id (e + 1)
      let p := govPredict f.plan.rends sUse es
      if p ≤ cap * 15 / 16 then { x with es := es, pred := p, steps := x.steps + 1 } else x
    else x) x

/-- The engines of a channel in service (R153, R158). -/
def engineCount (s : State) (n : Nat) : Nat :=
  ((List.range 128).filter (fun e =>
    rdBit s (CL_STAT (e / 8)) 4 && rdFld s (CL_STAT (e / 8)) 3 0 = n && !(chan s n).releasing.contains (e / 8) &&
      [1, 2, 3, 6].contains (rdFld s (ENG_STAT e) 2 0))).length

/-- cap (R90). -/
def govCap (engines : Nat) (g : Grid) : Nat := engines * (g.num * 5 / (max 1 g.den * 4)) * govU / 256

/-- What one run of the governor decides (R90). -/
structure GovResult where
  sNew : Nat
  sUse : Nat
  cap : Nat
  es : List (Nat × Nat)
  pred : Nat
  lowered : Nat
  raised : Nat
  atFloor : Bool
  deriving DecidableEq, Repr

/-- The governor's procedure at G_k (R90). -/
def governor (f : FrameSt) (n engines sOld : Nat) (meas : Option Measured) (prev : List (Nat × Nat)) : GovResult :=
  let m? : Option Nat := match meas with
    | some m => if 0 < m.work then some (m.busy * 65536 / m.work) else none
    | none => none
  let sNew := match m? with
    | some m => ((sOld : Int) + ((m : Int) - sOld).fdiv 4).toNat
    | none => sOld
  let sUse := match m? with
    | some m => max sNew m
    | none => sOld
  let cap := govCap engines f.grid
  let rs := f.plan.rends
  let start := rs.foldl (fun es r => mput es r.id (min (max (effortOf prev r.id 4) (govLo f n r.id)) (govHi f n r.id))) []
  let fixedEn := tbit (f.reg (CH_GOV_CTL n)) 7
  let fixed := rs.foldl (fun es r => mput es r.id (f.fld (CH_GOV_CTL n) 10 8)) []
  let floorOf (es : List (Nat × Nat)) : Bool := rs.all (fun r => effortOf es r.id 0 = govLo f n r.id)
  if fixedEn then
    let p := govPredict rs sUse fixed
    { sNew := sNew, sUse := sUse, cap := cap, es := fixed, pred := p, lowered := 0, raised := 0
      atFloor := cap < p && floorOf fixed }
  else
    let p := govPredict rs sUse start
    let x0 : GovRun := { es := start, pred := p, steps := 0, done := false }
    if cap < p then
      let x := govLower f n sUse cap x0
      { sNew := sNew, sUse := sUse, cap := cap, es := x.es, pred := x.pred, lowered := x.steps, raised := 0
        atFloor := cap < x.pred && floorOf x.es }
    else if (match meas with
        | none => true
        | some m => !m.rescued) then
      let x := govRaise f n sUse cap x0
      { sNew := sNew, sUse := sUse, cap := cap, es := x.es, pred := x.pred, lowered := 0, raised := x.steps, atFloor := false }
    else { sNew := sNew, sUse := sUse, cap := cap, es := start, pred := p, lowered := 0, raised := 0, atFloor := false }

/-! ### The GOP (R116, R117, R142) -/

/-- The trailing zero bits of a number below 8. -/
def trailZeros (n : Nat) : Nat := if n % 2 = 1 then 0 else if n % 4 = 2 then 1 else if n % 8 = 4 then 2 else 3

/-- The temporal layer of a frame `p` frames after the last IDR with `t` layers (R116). -/
def temporalLayer (t p : Nat) : Nat :=
  let m := p % 2 ^ (t - 1)
  if m = 0 then 0 else t - 1 - trailZeros m

/-- Whether a picture at a layer is a non-reference picture (R142). -/
def isNonRef (t layer : Nat) : Bool := 1 < t && layer = t - 1

/-- The reference window after a picture: frames with their layers, oldest first (R142). -/
def nextWindow (w : List (Nat × Nat)) (idr nonRef : Bool) (k layer : Nat) : List (Nat × Nat) :=
  if idr then [(k, layer)]
  else if nonRef then w
  else (w ++ [(k, layer)]).drop ((w ++ [(k, layer)]).length - 4)

/-- The AV1 slot that a picture refreshes: of a reference picture the slot of the one that leaves the window, or the lowest empty one (R142). -/
def refreshSlot (w : List (Nat × Nat)) (slots : List (Nat × Nat)) : Nat :=
  if 4 ≤ w.length then (w.head?.bind (fun x => mget slots x.1)).getD 0
  else ((List.range 4).find? (fun i => !slots.any (fun x => x.2 = i))).getD 0

/-- refresh_frame_flags of a picture and the slots of the window after it: an IDR refreshes all eight and stands in slot 0 (R142). -/
def refreshOf (w : List (Nat × Nat)) (slots : List (Nat × Nat)) (idr nonRef : Bool) (k : Nat) : Nat × List (Nat × Nat) :=
  if idr then (0xFF, [(k, 0)])
  else if nonRef then (0, slots)
  else
    let i := refreshSlot w slots
    (2 ^ i, slots.filter (fun x => x.2 ≠ i) ++ [(k, i)])

/-- The references of a picture at a layer, nearest first (R142). -/
def refsOf (w : List (Nat × Nat)) (layer : Nat) : List Nat :=
  ((w.filter (fun r => r.2 ≤ layer)).map (fun r => r.1)).reverse

/-- The IDR decision of a frame: (idr, pos, suppressed) (R117). -/
def idrDecision (f : FrameSt) (n pos : Nat) (prevSeq : Option (BitVec 8)) (splice scene : Bool) : Bool × Nat × Bool :=
  let p := if f.k = 0 then 0 else pos + 1
  let seq := BitVec.ofNat 8 (f.fld (CH_IDR_REQ n) 7 0)
  let req := f.k = 0 || (match prevSeq with
    | some q => f.k ≠ 0 && q ≠ seq
    | none => false) || splice
  let len := f.fld (CH_GOP_CTL n) 10 0
  let cad := len ≠ 0 && (if tbit (f.reg (CH_GOP_CTL n)) 11 then f.k % len = 0 else len ≤ p)
  let scn := tbit (f.reg (CH_GOP_CTL n)) 12 && scene
  let supp := scn && !req && !cad && p < f.fld (CH_GOP_CTL n) 25 16
  let idr := req || cad || (scn && !supp)
  (idr, if idr then 0 else p, supp)

/-! ### The token (R441) -/

/-- Every address of a row whose first index is `i`, or of a row without indices. -/
def rowAddrs (r : RegRow) (i : Nat) : List Nat :=
  let rec go : List (Nat × Nat) → List Nat
    | [] => [0]
    | (c, st) :: rest => ((List.range c).map (fun k => (go rest).map (fun d => k * st + d))).flatten
  match r.dims with
  | [] => [r.base]
  | (_, st) :: rest => (go rest).map (fun d => r.base + i * st + d)

/-- The RWF registers of a channel in increasing offset: its compositor, its ladder scalers, its CH block (R441). -/
def rwfAddrs (n : Nat) (scls : List Nat) : List Nat :=
  let pick (rows : List RegRow) (i : Nat) : List Nat :=
    ((rows.filter (fun r => r.rwf ≠ 0)).map (fun r => rowAddrs r i)).flatten
  let all := pick (rowsCMP ++ rowsLY ++ rowsCH ++ rowsRC) n ++ (scls.map (fun j => pick (rowsSCL ++ rowsOUT) j)).flatten
  (all.foldl (fun (m : List (Nat × Unit)) a => mput m a ()) []).map (fun e => e.1)

/-- SET_CRC of a frame (R441). -/
def setCrc (f : FrameSt) (n : Nat) : Word :=
  let scls := (f.plan.outs.map (fun o => o.scl)).eraseDups
  crc32c ((rwfAddrs n scls).map (fun a =>
    wordBytes (if a = (CH_IDR_REQ n).addr then 0 else (f.reg (regAt a)) &&& rwfMask a))).flatten

/-- The body of a TOKEN of a decided frame (R441). -/
def tokenBytes (f : FrameSt) (n : Nat) : List Byte :=
  leBytes 8 f.k ++ wordBytes f.rwfGen ++ wordBytes (setCrc f n) ++ wordBytes f.cmdFirst ++ leBytes 2 f.cmdCount ++ zeros 2 ++
    wordBytes f.cmdCrc ++ leBytes 4 f.gopPos ++ leBytes 1 (b2n f.idr + 2 * b2n f.joinIdr) ++ leBytes 1 f.plan.rends.length ++
    zeros 6 ++ padUp 8 ((f.efforts.map (fun e => leBytes 1 (e.2 % 8))).flatten)

/-! ### The metadata record (R97, R98) -/

/-- A row number, 0xFFFF for none. -/
def rowOrNone (r : Option Nat) : Nat := r.getD 0xFFFF

/-- A rendition entry (R98). -/
def rendEntry (idr : Bool) (r : RendPic) : List Byte :=
  leBytes 1 r.id ++
    leBytes 1 (r.effort % 8 + 8 * b2n r.rescue.isSome + 16 * b2n r.stop.isSome + 32 * b2n r.late + 64 * b2n idr) ++
    leBytes 2 (rowOrNone r.rescue) ++ leBytes 2 (rowOrNone r.stop) ++ zeros 2

/-- The renditions of a frame in ID order. -/
def FrameSt.inIdOrder (f : FrameSt) : List RendPic :=
  (f.rends.foldl (fun m r => mput m r.id r) ([] : List (Nat × RendPic))).map (fun e => e.2)

/-- The metadata record of a frame (R97). -/
def metaRecord (f : FrameSt) (n : Nat) : List Byte :=
  let rs := f.inIdOrder
  let flags := b2n f.substituted + 2 * b2n f.partialIn + 4 * b2n f.idr +
    8 * b2n ((f.field.map (fun x => x.sceneCut)).getD false) + 16 * b2n ((f.field.map (fun x => x.fade)).getD false) +
    32 * b2n (rs.any (fun r => r.late)) + 64 * b2n (rs.any (fun r => r.rescue.isSome)) + 128 * b2n f.preparedLate
  withCrc (leBytes 2 0x0301 ++ leBytes 2 (72 + 8 * rs.length) ++ leBytes 1 n ++ leBytes 1 rs.length ++ leBytes 2 flags ++
    leBytes 8 f.k ++ leInt 8 f.g ++ leInt 8 f.launch ++ wordBytes f.rwfGen ++ wordBytes f.cmdFirst ++
    leBytes 2 f.cmdCount ++ zeros 2 ++ leBytes 4 f.sliceSeq ++ wordBytes f.inputCrc ++ wordBytes (f.ledgerSeq.getD 0) ++
    leBytes 4 f.sUse ++ zeros 4 ++ (rs.map (rendEntry f.idr)).flatten ++ zeros 4)

end Sys2Proof.Machine
end

