-- ==== Sys2Proof/Machine/Audio.lean ====
section
/-!
DEFINITION. The audio grid, serial ports, network flows and programmes (spec/09_audio.md).
-/
namespace Sys2Proof.Machine

/-! ### The grid (R243) -/

/-- fs. -/
def audioFs (r96 : Bool) : Nat := if r96 then 96000 else 48000

/-- The time of a grid sample. -/
def sampleTime (r96 : Bool) (n : Nat) : Int := ((n * 1000000000 + audioFs r96 - 1) / audioFs r96 : Nat)

/-- t_b. -/
def blockTime (r96 : Bool) (b : Nat) : Int := sampleTime r96 (48 * b)

/-- The last block whose t_b has come (R243). -/
def blockNow (s : State) (r96 : Bool) : Nat := (nowN s * audioFs r96).toNat / 48000000000

/-- A sample as a signed magnitude. -/
def magnitude (x : BitVec 24) : Nat := x.toInt.natAbs

/-- Channel `c` of a sample time. -/
def chanAt (x : AudioFrame) (c : Nat) : BitVec 24 := x.getD c 0

/-! ### Non-PCM patterns and mutes (R252, R253) -/

/-- Whether a sample is Pa of a carriage. -/
def isPa (k : Nat) (x : BitVec 24) : Bool :=
  match k with
  | 0 => x.toNat / 256 = 0xF872
  | 1 => x.toNat / 16 = 0x6F872
  | _ => x.toNat = 0x96F872

/-- Whether a sample is Pb of a carriage. -/
def isPb (k : Nat) (x : BitVec 24) : Bool :=
  match k with
  | 0 => x.toNat / 256 = 0x4E1F
  | 1 => x.toNat / 16 = 0x54E1F
  | _ => x.toNat = 0xA54E1F

/-- Whether Pa of a pattern of channels 2j and 2j + 1 stands in a sample time, given the next one. -/
def patternAt (mask : BitVec 16) (j : Nat) (x : AudioFrame) (next : Option AudioFrame) : Bool :=
  let on (c : Nat) : Bool := mask.getLsbD c
  (List.range 3).any (fun k =>
    (match next with
      | none => false
      | some y => [2 * j, 2 * j + 1].any (fun c => on c && isPa k (chanAt x c) && isPb k (chanAt y c))) ||
    (on (2 * j) && on (2 * j + 1) && isPa k (chanAt x (2 * j)) && isPb k (chanAt x (2 * j + 1))))

/-- The last place of Pa in the sample times of a block, -1 for the sample time before it. -/
def lastHit (mask : BitVec 16) (j : Nat) (prev : Option AudioFrame) (xs : List AudioFrame) (next : Option AudioFrame) :
    Option Int :=
  let before : Option Int := match prev, xs with
    | some p, x :: _ => if patternAt mask j p (some x) then some (-1) else none
    | _, _ => none
  (xs.zipIdx).foldl (fun (a : Option Int) (x : AudioFrame × Nat) =>
    let nx := match xs[x.2 + 1]? with
      | some y => some y
      | none => next
    if patternAt mask j x.1 nx then some x.2 else a) before

/-- What the mutes of a source are for a block: the mutes carried on, the channels muted, whether a mute began. -/
structure MuteRun where
  carry : List (Nat × Nat)
  muted : BitVec 16
  began : Bool
  deriving DecidableEq, Repr

/-- Both channels of a pair as a mask. -/
def pairMask (j : Nat) : BitVec 16 := BitVec.ofNat 16 (3 * 2 ^ (2 * j))

/-- The mutes of a block of `len` sample times (R252). -/
def muteRun (mute : List (Nat × Nat)) (mask : BitVec 16) (prev : Option AudioFrame) (xs : List AudioFrame)
    (next : Option AudioFrame) : MuteRun :=
  (List.range 8).foldl (fun (a : MuteRun) j =>
    match lastHit mask j prev xs next, mget mute j with
    | some i, m => { carry := a.carry ++ [(j, ((xs.length : Int) - 1 - i).toNat)], muted := a.muted ||| pairMask j
                     began := a.began || m.isNone }
    | none, some c =>
      if 16384 ≤ c then a
      else { a with carry := a.carry ++ [(j, c + xs.length)], muted := a.muted ||| pairMask j }
    | none, none => a) { carry := [], muted := 0, began := false }

/-- The channels of the pairs whose pattern a block completes that began with the last sample time of the block before it (R252). -/
def backMask (mask : BitVec 16) (prev : Option AudioFrame) (xs : List AudioFrame) : BitVec 16 :=
  match prev, xs with
  | some p, x :: _ => (List.range 8).foldl (fun m j =>
      if patternAt mask j p none then m else if patternAt mask j p (some x) then m ||| pairMask j else m) 0
  | _, _ => 0

/-- A block with further channels muted. -/
def muteChannels (m : BitVec 16) (b : AudioBlock) : AudioBlock :=
  (b.1, b.2.map (fun x => (x.1.zipIdx.map (fun v => if m.getLsbD v.2 then 0 else v.1), x.2 ||| m)))

/-- A mask widened to both channels of each stream it names (R253). -/
def bothOf (m : BitVec 16) : BitVec 16 := m ||| ((m &&& 0x5555) <<< 1) ||| ((m &&& 0xAAAA) >>> 1)

/-- A sample time with its disabled and muted channels 0. -/
def maskFrame (mask muted : BitVec 16) (n : Nat) (x : AudioFrame) : AudioFrame × BitVec 16 :=
  ((List.range n).map (fun c => if mask.getLsbD c && !muted.getLsbD c then chanAt x c else 0), muted)

/-- A block of sample times that are all 0. -/
def zeroBlock (n : Nat) (muted : BitVec 16) : List (AudioFrame × BitVec 16) :=
  List.replicate 48 (List.replicate n 0, muted)

/-! ### Slips (R248) -/

/-- score(i). -/
def score (mask : BitVec 16) (x : AudioFrame) : Nat :=
  ((List.range 16).filter (fun c => mask.getLsbD c)).foldl (fun a c => a + magnitude (chanAt x c)) 0

/-- The lowest i in 1 .. hi with minimal score. -/
def slipPoint (mask : BitVec 16) (hi : Nat) (xs : List (AudioFrame × Bool)) : Nat :=
  let sc (i : Nat) : Nat := score mask ((xs.getD i ([], false)).1)
  ((List.range hi).map (fun i => i + 1)).foldl (fun b i => if sc i < sc b then i else b) 1

/-- The 48 sample times of a block from those taken. -/
def slipped (mask : BitVec 16) (xs : List (AudioFrame × Bool)) : List (AudioFrame × Bool) :=
  if xs.length = 49 then xs.eraseIdx (slipPoint mask 47 xs)
  else if xs.length = 47 then
    let i := slipPoint mask 45 xs
    xs.take (i + 1) ++ [xs.getD i ([], false)] ++ xs.drop (i + 1)
  else xs

/-- How many samples a block takes at a fill. -/
def takeCount (fill : Nat) : Nat := if 80 < fill then 49 else if fill < 48 then 47 else 48

/-! ### Serial ports -/

/-- AP_STAT.STATE. -/
def apState (s : State) (p : Nat) : Nat := rdFld s (AP_STAT p) 1 0
/-- AP_CFG.MODE. -/
def apMode (s : State) (p : Nat) : Nat := rdFld s (AP_CFG p) 1 0
/-- The channels of a port. -/
def apChans (s : State) (p : Nat) : Nat := if apMode s p = 3 then 2 else rdFld s (AP_CFG p) 7 4 + 1
/-- Whether a port is assigned. -/
def apAssigned (s : State) (p : Nat) : Bool := rdBit s (AP_CFG p) 20
/-- The channel a port serves. -/
def apChannel (s : State) (p : Nat) : Nat := rdFld s (AP_CFG p) 19 16
/-- The mask in force. -/
def apMask (s : State) (p : Nat) : BitVec 16 := BitVec.ofNat 16 (rdFld s (AP_SLOT_MASK_ACT p) 15 0)

/-- The last blocks kept of a source. -/
def keepBlocks (l : List AudioBlock) (b : AudioBlock) : List AudioBlock := (l ++ [b]).drop (l.length + 1 - 400)

/-- The mask last accepted before t_b comes into force for block b (R255). -/
def applyMask (s : State) (p : Nat) (t : Int) : State :=
  let due := (apOf s p).masks.filter (fun m => m.1 < t)
  match due.getLast? with
  | none => s
  | some m =>
    let s := modAp s p (fun a => { a with masks := a.masks.filter (fun x => !(x.1 < t)) })
    if m.2 = apMask s p then s
    else setEvt (count (wr s (AP_SLOT_MASK_ACT p) (wordOf m.2.toNat)) (AP_MASK_CHG p)) (AP_EVT p) 4

/-- Free sample times, for those a block takes that the FIFO does not hold (log entry 17). -/
def freeFrames (i n k : Nat) : List (AudioFrame × Bool) :=
  (List.range k).map (fun t => ((List.range n).map (fun c => BitVec.setWidth 24 (Config.freeWord i (t * 16 + c))), false))

/-- A port forms a block from its FIFO (R248, R252, R253); only samples it received are scanned. Only a port that is locked slips: one in
RELOCK takes 48 sample times (log entry 17). -/
def readBlock (s : State) (p : Nat) (slips : Bool) : State × List (AudioFrame × BitVec 16) :=
  let a := apOf s p
  let n := apChans s p
  let mask := apMask s p
  let fill := a.fifo.length
  let k := if slips then takeCount fill else 48
  let short := k - fill
  let raw := a.fifo.take k ++ freeFrames s.free n short
  let s := if short = 0 then s else { s with free := s.free + 1 }
  let next := (a.fifo[k]?).map (fun x => x.1)
  let m := muteRun a.mute mask (a.past.getLast?.map (fun x => x.1)) ((a.fifo.take k).map (fun x => x.1)) next
  let na := raw.any (fun x => x.2)
  let lastNa := (raw.getLast?.map (fun x => x.2)).getD false
  let frames := (slipped mask raw).map (fun x => maskFrame mask (m.muted ||| (if x.2 then 3 else 0)) n x.1)
  let s := onlyIf (decide (k = 49)) s (fun s => count s (AP_SLIP_DROP p))
  let s := onlyIf (decide (k = 47)) s (fun s => count s (AP_SLIP_REP p))
  let s := onlyIf (m.muted != 0 || na) s (fun s => count s (AP_NPCM_CNT p))
  let s := onlyIf (m.began || (na && !a.nonAudio)) s (fun s => setEvt s (AP_EVT p) 3)
  let s := wrFld s (AP_STAT p) 31 16 (m.muted ||| (if lastNa then 3 else 0)).toNat
  let past := a.past ++ a.fifo.take k
  (modAp s p (fun a => { a with
    fifo := a.fifo.drop k
    readAt := a.readAt + (min k fill : Nat)
    past := past.drop (past.length - 1024)
    mute := m.carry
    nonAudio := lastNa }), frames)

/-- A port's block at t_b, whatever its state: a port in RELOCK goes on reading and scanning its samples, and what it gives is muted
(R247 to R249, R252; log entry 17). -/
def portBlock (s : State) (p : Nat) : State × List (AudioFrame × BitVec 16) :=
  let a := apOf s p
  let n := apChans s p
  let s := wrFld s (AP_STAT p) 15 8 (min 255 a.fifo.length)
  let st := apState s p
  if st = 2 || st = 3 then
    let r := if a.silent && a.fifo.length < 64 then (count s (AP_SILENT_BLK p), zeroBlock n 0)
      else readBlock (modAp s p (fun a => { a with silent := false })) p (st = 2)
    if st = 3 then (r.1, zeroBlock n 0xFFFF) else r
  else (s, zeroBlock n 0)

/-- The samples of a block alone. -/
def blockSamples (b : AudioBlock) : List AudioFrame := b.2.map (fun x => x.1)

/-- The body of an AUDIO message (R444). -/
def audioBytes (p : Nat) (mask : BitVec 16) (b : AudioBlock) : List Byte :=
  let cs := (List.range 16).filter (fun c => mask.getLsbD c)
  leBytes 1 p ++ leBytes 1 cs.length ++ leBytes 2 mask.toNat ++ zeros 4 ++ leBytes 8 b.1 ++
    ((blockSamples b).map (fun x => (cs.map (fun c => leBytes 4 (chanAt x c).toNat)).flatten)).flatten

/-- The read offsets tried, nearest first. -/
def offsets : List Int := ((List.range 64).map (fun i => [((i : Nat) : Int) + 1, -((i : Nat) : Int) - 1])).flatten

/-- The block that a port would have formed from a place of what its FIFO took on, taking 48, 49 or 47 sample times (R248, R260). -/
def blockFrom (a : ApSt) (mask : BitVec 16) (n : Nat) (at_ : Int) (take : Nat) : List AudioFrame :=
  let i := at_ - (a.readAt - a.past.length)
  if i < 0 then []
  else (slipped mask (((a.past ++ a.fifo).drop i.toNat).take take)).map (fun x => (maskFrame mask 0 n x.1).1)

/-- The offset from where a shadow block was read at which the received block would have been formed (R260). -/
def matchOffset (a : ApSt) (mask : BitVec 16) (n b : Nat) (got : List AudioFrame) : Option Int :=
  match a.starts.find? (fun x => x.1 = b) with
  | none => none
  | some x => offsets.find? (fun d => [48, 49, 47].any (fun k => blockFrom a mask n (x.2.1 + d) k == got))

/-- Move the read position of a port (R260). -/
def moveRead (a : ApSt) (d : Int) : ApSt :=
  let all := a.past ++ a.fifo
  let cut := ((a.past.length : Int) + d).toNat
  { a with past := all.take cut, fifo := all.drop cut, readAt := a.readAt + d, moved := a.moved + d }

/-- Compare a shadow block with the received one. The read position moves by the offset found, less what it has moved since the shadow block
was read, so that one offset moves it once (R260; DEDUCED, log entry 17). -/
def compareShadow (s : State) (p b : Nat) (mask : BitVec 16) (shadow got : List AudioFrame) : State :=
  if shadow = got then
    let s := modAp s p (fun a => { a with shadowRun := min 1000 (a.shadowRun + 1) })
    wrBit s (AP_STAT p) 2 (1000 ≤ (apOf s p).shadowRun)
  else
    let s := setEvt (count s (AP_SHADOW_MISS p)) (AP_EVT p) 5
    let s := wrBit (modAp s p (fun a => { a with shadowRun := 0 })) (AP_STAT p) 2 false
    match matchOffset (apOf s p) mask (apChans s p) b got with
    | none => s
    | some d => modAp s p (fun a =>
        moveRead a (d - (a.moved - ((a.starts.find? (fun x => x.1 = b)).map (fun x => x.2.2)).getD a.moved)))

/-- A shadow block of the standby; a block received before it is compared now. -/
def keepShadow (s : State) (p : Nat) (b : AudioBlock) : State :=
  let a := apOf s p
  let s := modAp s p (fun a => { a with shadows := keepBlocks (a.shadows.drop (a.shadows.length - 15)) b })
  match a.early.find? (fun x => x.1 = b.1) with
  | none => s
  | some x =>
    compareShadow (modAp s p (fun a => { a with early := a.early.filter (fun y => y.1 ≠ b.1) })) p b.1 (apMask s p)
      (blockSamples b) (blockSamples x)

/-- The frames of a channel with a block given to the one it belongs to (R244). -/
def giveBlock (s : State) (n : Nat) (t : Int) (give : FrameSt → FrameSt) : State :=
  modChan s n (fun c => { c with frames := c.frames.map (fun x => if x.g ≤ t && t < gAt x.grid (x.j + 1) then give x else x) })

/-- A port's block is in use: its channel's audio reads it and the frame it belongs to holds it (R244, R248, R260). -/
def usePortBlock (s : State) (p : Nat) (b : AudioBlock) : State :=
  giveBlock (modAp s p (fun a => { a with blocks := keepBlocks a.blocks b })) (apChannel s p)
    (blockTime (rdBit s (AP_CFG p) 2) b.1) (fun x => { x with portAud := x.portAud ++ [(p, b)] })

/-- Channels of the last block of a port are muted after the fact: its last sample time held Pa of a pattern whose Pb had not come. In a
pair the block stays as it was sent (R252; DEDUCED, log entry 17). -/
def muteLastOfPort (s : State) (p : Nat) (m : BitVec 16) : State :=
  match (apOf s p).blocks.getLast? with
  | none => s
  | some b =>
    if m = 0 || role s ≠ 0 then s
    else
      let s := onlyIf (!b.2.any (fun x => x.2 != 0)) s (fun s => count s (AP_NPCM_CNT p))
      let s := modAp s p (fun a => { a with blocks := a.blocks.dropLast ++ [muteChannels m b] })
      giveBlock s (apChannel s p) (blockTime (rdBit s (AP_CFG p) 2) b.1) (fun x => { x with
        portAud := x.portAud.map (fun y => if y.1 = p && y.2.1 = b.1 then (p, muteChannels m b) else y) })

/-- Form a port's block b at t_b: in use, sent to the peer, or kept as shadow (R248, R255, R260, R444). -/
def formBlock (s : State) (p b : Nat) : State :=
  let s := applyMask s p (blockTime (rdBit s (AP_CFG p) 2) b)
  let a := apOf s p
  let back := if apState s p = 2 && !a.silent then backMask (apMask s p) (a.past.getLast?.map (fun x => x.1)) (a.fifo.map (fun x => x.1)) else 0
  let s := modAp s p (fun a => { a with starts := (a.starts ++ [(b, a.readAt, a.moved)]).drop (a.starts.length - 15) })
  let (s, fr) := portBlock (muteLastOfPort s p back) p
  let blk : AudioBlock := (b, fr)
  let s := wr64 s (AP_BLOCK_LO p) (AP_BLOCK_HI p) b
  match role s with
  | 2 => keepShadow s p blk
  | 1 => sendMule (usePortBlock s p blk) 0x21 (BitVec.ofNat 8 (apChannel s p)) (audioBytes p (apMask s p) blk)
  | _ => usePortBlock s p blk

/-! ### SERIAL_AUDIO_FRAME_RX, AP_LOCK, AP_UNLOCK, RATE_PERIOD_END (R247, R249) -/

/-- A FIFO that takes a frame: it holds 256 sample times, and which one a frame too many loses is free (log entry 17). -/
def fifoTakes (i : Nat) (fifo : List (AudioFrame × Bool)) (x : AudioFrame × Bool) : List (AudioFrame × Bool) :=
  if fifo.length < 256 then fifo ++ [x] else (fifo ++ [x]).eraseIdx (Config.freeNat i 0 % (fifo.length + 1))

/-- The 24-bit sample of a received slot: a 16- or 20-bit slot is padded with zeros below its LSB, a 32-bit slot keeps its upper 24
bits, an AES3 audio field has 24 (R246). -/
def slotSample (mode width : Nat) (v : BitVec 32) : BitVec 24 :=
  if mode = 3 then v.setWidth 24
  else match width with
  | 0 => BitVec.ofNat 24 (v.toNat * 256)
  | 1 => BitVec.ofNat 24 (v.toNat * 16)
  | 2 => v.setWidth 24
  | _ => BitVec.ofNat 24 (v.toNat / 256)

/-- A frame arrives on a port: the lock counts advance and its samples enter the FIFO. -/
def serialFrame (s : State) (p : Nat) (valid z : Bool) (xs : AudioFrame) (na : Bool) : State :=
  let st := apState s p
  let on : Bool := st = 2 || st = 3
  let (i, s) := if on && 256 ≤ (apOf s p).fifo.length then takeFree s else (s.free, s)
  modAp s p (fun a =>
    let a := { a with
      good := if valid then a.good + 1 else 0
      bad := if valid then 0 else a.bad + 1
      sawZ := valid && (a.sawZ || z)
      received := a.received + 1 }
    if on then { a with fifo := fifoTakes i a.fifo (xs, na) } else a)

/-- SERIAL_AUDIO_FRAME_RX. -/
def execSerialAudioFrameRx (p : Nat) (valid z : Bool) (slots : List (BitVec 32)) (na : Bool) (s : State) :
    Host.Outcome State Fault Refusal :=
  act (p < 8) s (fun s =>
    if apAssigned s p then
      serialFrame s p valid z (slots.map (slotSample (apMode s p) (rdFld s (AP_CFG p) 9 8))) na
    else s)

/-- A port locks: the FIFO is emptied and its blocks are silent (R248). -/
def lockPort (s : State) (p : Nat) : State :=
  let s := wrFld s (AP_STAT p) 1 0 2
  modAp (setEvt s (AP_EVT p) 0) p (fun a => { a with fifo := [], past := [], silent := true })

/-- The frames in a row with which a port locks (R247). -/
def lockReached (s : State) (p : Nat) : Bool :=
  let a := apOf s p
  match apMode s p with
  | 1 => 48 ≤ a.good
  | 3 => 192 ≤ a.good && a.sawZ
  | 2 => !rdBit s GLB_PIN_STAT 13
  | _ => false

/-- AP_LOCK. -/
def execApLock (p : Nat) (s : State) : Host.Outcome State Fault Refusal :=
  act (p < 8) s (fun s => if apState s p = 1 && lockReached s p then lockPort s p else s)

/-- The unlock count of a port is reached (R247); the port of mode 2, whose clocks the device drives, unlocks only while they are
shorted (R493; log entry 17). -/
def unlockReached (s : State) (p : Nat) : Bool :=
  match apMode s p with
  | 1 => 2 ≤ (apOf s p).bad
  | 2 => rdBit s GLB_PIN_STAT 13
  | _ => 4 ≤ (apOf s p).bad

/-- AP_UNLOCK. -/
def execApUnlock (p : Nat) (s : State) : Host.Outcome State Fault Refusal :=
  act (p < 8) s (fun s =>
    if (apState s p = 2 || apState s p = 3) && unlockReached s p then
      let s := setEvt (count (wrFld s (AP_STAT p) 1 0 1) (AP_LOCK_LOSS p)) (AP_EVT p) 1
      modAp s p (fun a => { a with fifo := [], past := [], lockedAll := false })
    else s)

/-- The measurement of a period of a port locked throughout (R249). -/
def ratePeriod (s : State) (p : Nat) : State :=
  let d : Int := (apOf s p).received - 48000
  let s := wr s (AP_RATE_PPM p) (BitVec.ofInt 32 ((d * 125).tdiv 6))
  if 48 < d.natAbs then
    setEvt (onlyIf (decide (apState s p = 2)) s (fun s => count (wrFld s (AP_STAT p) 1 0 3) (AP_RELOCK_CNT p))) (AP_EVT p) 2
  else if apState s p = 3 then lockPort s p
  else s

/-- RATE_PERIOD_END: acts once for each period of 1,000 grid blocks, when it has ended (R249, R300). -/
def execRatePeriodEnd (p : Nat) (s : State) : Host.Outcome State Fault Refusal :=
  act (p < 8) s (fun s =>
    let a := apOf s p
    if apAssigned s p && reached s (blockTime (rdBit s (AP_CFG p) 2) (1000 * (a.period + 1))) then
      let s := if a.lockedAll then ratePeriod s p else s
      let on := apState s p = 2 || apState s p = 3
      modAp s p (fun x => { x with period := a.period + 1, received := 0, lockedAll := on })
    else s)

/-! ### Network flows (R251) -/

/-- NF_CFG.ASSIGNED. -/
def nfAssigned (s : State) (f : Nat) : Bool := rdBit s (NF_CFG f) 18
/-- The channels of a flow. -/
def nfChans (s : State) (f : Nat) : Nat := rdFld s (NF_CFG f) 12 8 + 1
/-- The channel a flow serves. -/
def nfChannel (s : State) (f : Nat) : Nat := rdFld s (NF_CFG f) 17 14

/-- The grid position of a packet's first sample. -/
def nfPosition (s : State) (f : Nat) (ts : BitVec 32) : Int :=
  let na := (nowN s * audioFs (rdBit s (NF_CFG f) 6)).fdiv 1000000000
  na + (ts - BitVec.ofInt 32 na).toInt + rdFld s (NF_ALIGN f) 12 0

/-- A packet's samples take their places (R251). -/
def audioPacket (s : State) (f : Nat) (p : AudioPacket) : State :=
  let x := nfOf s f
  let at_ := nfPosition s f p.ts
  let ps := (p.samples.zipIdx).map (fun (v : AudioFrame × Nat) => ((at_ + v.2).toNat, v.1, p.nonAudio.getD v.2 0))
  let isLate (q : Nat) : Bool := match x.closed with
    | none => false
    | some c => q / 48 ≤ c
  let isDup (q : Nat) : Bool := x.got.any (fun g => g.1 = q)
  let s := onlyIf (ps.any (fun q => isLate q.1)) s (fun s => count s (NF_LATE_PKT f))
  let s := onlyIf (ps.any (fun q => !isLate q.1 && isDup q.1)) s (fun s => count s (NF_DUP_PKT f))
  let s := onlyIf (decide (rdFld s (NF_STAT f) 1 0 = 1)) s (fun s => setEvt (wrFld s (NF_STAT f) 1 0 2) (NF_EVT f) 0)
  let keep := ps.filter (fun q => !isLate q.1 && !isDup q.1)
  modNf s f (fun x => { x with got := x.got ++ keep })

/-- AUDIO_PACKET_RX. -/
def execAudioPacketRx (f : Nat) (p : AudioPacket) (s : State) : Host.Outcome State Fault Refusal :=
  act (f < 32) s (fun s => if nfAssigned s f then audioPacket s f p else s)

/-- A block of a flow goes to the frame it belongs to (R244). -/
def frameTakes (s : State) (f : Nat) (r96 : Bool) (b : AudioBlock) : State :=
  giveBlock s (nfChannel s f) (blockTime r96 b.1) (fun x => { x with flowAud := x.flowAud ++ [(f, b)] })

/-- Channels of the last block of a flow are muted after the fact: its last sample time held Pa of a pattern whose Pb had not come (R252;
DEDUCED, log entry 17). -/
def muteLastOfFlow (s : State) (f : Nat) (r96 : Bool) (m : BitVec 16) : State :=
  match (nfOf s f).blocks.getLast? with
  | none => s
  | some b =>
    if m = 0 then s
    else
      let s := onlyIf (!b.2.any (fun x => x.2 != 0)) s (fun s => count s (NF_NPCM_CNT f))
      let s := modNf s f (fun x => { x with blocks := x.blocks.dropLast ++ [muteChannels m b] })
      giveBlock s (nfChannel s f) (blockTime r96 b.1) (fun x => { x with
        flowAud := x.flowAud.map (fun y => if y.1 = f && y.2.1 = b.1 then (f, muteChannels m b) else y) })

/-- A flow closes block b. -/
def closeBlock (s : State) (f b : Nat) : State :=
  let x := nfOf s f
  let n := nfChans s f
  let r96 := rdBit s (NF_CFG f) 6
  let find (q : Nat) : Option (Nat × AudioFrame × BitVec 16) := x.got.find? (fun g => g.1 = q)
  let cells := (List.range 48).map (fun i => find (48 * b + i))
  let raw := cells.map (fun c => match c with
    | some g => g.2.1
    | none => List.replicate n 0)
  let nas := cells.map (fun c => match c with
    | some g => if rdBit s (NF_CFG f) 5 then bothOf g.2.2 else 0
    | none => 0)
  let back := backMask 0xFFFF x.prev raw
  let gaps := (cells.filter (fun c => c.isNone)).length
  let m := muteRun x.mute 0xFFFF x.prev raw ((find (48 * b + 48)).map (fun g => g.2.1))
  let na := nas.foldl (fun a v => a ||| v) 0
  let lastNa := nas.getLast?.getD 0
  let frames := (raw.zip nas).map (fun v => maskFrame 0xFFFF (m.muted ||| v.2) n v.1)
  let s := onlyIf (gaps != 0) s (fun s => setEvt (countBy s (NF_GAP_SAMP f) gaps) (NF_EVT f) 1)
  let s := onlyIf (m.muted != 0 || na != 0) s (fun s => count s (NF_NPCM_CNT f))
  let s := onlyIf (m.began || (na &&& ~~~x.nonAudio) != 0) s (fun s => setEvt s (NF_EVT f) 2)
  let s := wrFld s (NF_STAT f) 31 16 (m.muted ||| lastNa).toNat
  let s := wr64 s (NF_BLOCK_LO f) (NF_BLOCK_HI f) b
  let s := muteLastOfFlow s f r96 back
  let s := modNf s f (fun x => { x with
    got := x.got.filter (fun g => 48 * b + 48 ≤ g.1)
    closed := some b
    mute := m.carry
    nonAudio := lastNa
    prev := raw.getLast?
    blocks := keepBlocks x.blocks (b, frames) })
  frameTakes s f r96 (b, frames)

/-! ### Programmes (R256 to R259, R268) -/

/-- A sample of a programme's source at a grid position, and whether it is muted. -/
def sourceSample (s : State) (src : Nat × Nat × Nat) (pos : Nat) : BitVec 24 × Bool :=
  let look (bs : List AudioBlock) (q : Nat) : BitVec 24 × Bool :=
    match bs.find? (fun b => b.1 = q / 48) with
    | none => (0, false)
    | some b => match b.2[q % 48]? with
      | none => (0, false)
      | some x => (chanAt x.1 src.2.2, x.2.getLsbD src.2.2)
  match src.1 with
  | 1 => look (apOf s src.2.1).blocks (pos - rdFld s (AP_ALIGN src.2.1) 12 0)
  | 2 => look (nfOf s src.2.1).blocks pos
  | _ => (0, false)

/-- The sample times of a programme over a run of grid positions, and whether any sample is muted; a channel with no source is silence. -/
def programmeRun (s : State) (p : PrgPlan) (pos len : Nat) : List AudioFrame × Bool :=
  let cs := (List.range p.chans).map (fun c => p.src.getD c (0, 0, 0))
  let xs := (List.range len).map (fun i => cs.map (fun c => sourceSample s c (pos + i)))
  (xs.map (fun x => x.map (fun v => v.1)), xs.any (fun x => x.any (fun v => v.2)))

/-- The grid samples of an access unit or packet. -/
def auLength (p : PrgPlan) : Nat :=
  match p.codec with
  | 1 => 1024
  | 2 | 3 => 2048
  | _ => if p.rate96 then 96 else 48

/-- U in whole nanoseconds (R258, R506). -/
def auDuration (p : PrgPlan) : Nat := auLength p * 1000000000 / 48000

/-- The first access unit that begins at or after a time (R257). -/
def firstAu (p : PrgPlan) (t : Int) : Nat :=
  let k := (t * audioFs p.rate96).toNat / (auLength p * 1000000000)
  if t ≤ sampleTime p.rate96 (auLength p * k) then k else k + 1

/-- The next access unit of a programme, once its channel has a grid (R257). -/
def nextAuOf (s : State) (g : Nat) : Option Nat :=
  let x := prgOf s g
  match x.nextAu, x.plan with
  | some j, _ => some j
  | none, some (n, p) =>
    (match x.since with
      | some t => some t
      | none => (chan s n).grid.map Grid.g0).map (firstAu p)
  | none, none => none

/-- The stream slot of a programme: 40 and its place among the channel's programmes (R268). -/
def programmeStream (s : State) (n g : Nat) : Nat :=
  let gs := (List.range 32).filter (fun x => match (prgOf s x).plan with
    | some (m, _) => m = n && x < g
    | none => false)
  n * 64 + 40 + gs.length

/-- The streams that carry a programme. -/
def programmeStreams (s : State) (n g : Nat) (p : PrgPlan) : List Nat :=
  (if p.form = 0 then [] else [programmeStream s n g]) ++ p.mux.map (fun r => n * 64 + r)

/-- The launch time of an access unit or packet whose first sample has time t (R258, R259, R506). -/
def auLaunch (c : ChannelPlan) (p : PrgPlan) (t : Int) : Int :=
  let d : Int := (c.delay * c.tfNum / max 1 c.tfDen : Nat)
  if 4 ≤ p.codec then t + d + 1500000 + 1000000 else t + d + 1500000 + auDuration p + 2000000

/-- The place of a programme among its channel's (R268). -/
def programmeIndex (s : State) (n g : Nat) : Nat := programmeStream s n g - (n * 64 + 40)

/-- An access unit or packet is queued for its streams. -/
def queueAu (s : State) (g n : Nat) (p : PrgPlan) (j : Nat) (muted : Bool) (bytes : List Byte) : State :=
  match (chan s n).plan with
  | none => s
  | some c =>
    let pos := auLength p * j
    let t := sampleTime p.rate96 pos
    let s := bump s (PRG_AU_CNT g)
    let s := onlyIf muted s (fun s => count s (PRG_MUTED_AU g))
    let s := modPrg s g (fun x => { x with nextAu := some (j + 1) })
    forEach (programmeStreams s n g p) s (fun i s =>
      modStream s i (fun x => { x with audio := x.audio ++
        [{ t := t, launch := auLaunch c p t, bytes := bytes, pos := pos, idx := programmeIndex s n g, prg := p, plan := c, slice := (chan s n).sliceSeq }] }))

/-- The payload of a PCM packet: L24 or L16, highest byte first, sample by sample (R259). -/
def pcmPayload (l16 : Bool) (xs : List AudioFrame) : List Byte :=
  (xs.map (fun x => (x.map (fun v => if l16 then beBytes 2 (v.toNat / 256) else beBytes 3 v.toNat)).flatten)).flatten

/-- A PCM programme queues its next packet once the blocks before a grid block have closed. -/
def pcmPacket (s : State) (g b : Nat) : State :=
  match (prgOf s g).plan, nextAuOf s g with
  | some (n, p), some j =>
    if (p.codec = 4 || p.codec = 5) && auLength p * (j + 1) ≤ 48 * b then
      let r := programmeRun s p (auLength p * j) (auLength p)
      queueAu s g n p j r.2 (pcmPayload (p.codec = 5) r.1)
    else s
  | _, _ => s

/-- The PCM packets that still wait for launch hold what their blocks hold now: a block muted after the fact is muted in them (R252, R254). -/
def refreshPcm (s : State) (g : Nat) : State :=
  match (prgOf s g).plan with
  | some (n, p) =>
    if p.codec = 4 || p.codec = 5 then
      forEach (programmeStreams s n g p) s (fun i s => modStream s i (fun x => { x with
        audio := x.audio.map (fun e =>
          if e.prg = p && auLength p * ((prgOf s g).nextAu.getD 0) ≤ e.pos + 2 * auLength p then
            { e with bytes := pcmPayload (p.codec = 5) (programmeRun s p e.pos (auLength p)).1 }
          else e) }))
    else s
  | none => s

/-- The frame of an access unit's last block, and every later one until another unit, keeps what R446 copies of it. -/
def seeAu (s : State) (g n : Nat) (p : PrgPlan) (j : Nat) : State :=
  let t := blockTime p.rate96 ((auLength p * (j + 1) - 1) / 48)
  let x := prgOf s g
  modChan s n (fun c => { c with frames := c.frames.map (fun f =>
    if t < gAt f.grid (f.j + 1) then
      { f with prgSeen := mput f.prgSeen g (rd s (PRG_AU_CNT g), crc32c x.encState, x.auCrc) }
    else f) })

/-- AUDIO_AU_ENCODED: the encoder has finished the programme's next access unit, whose last block has closed; what it makes of the unit's
samples is the steward firmware's (R256). -/
def execAudioAuEncoded (g : Nat) (s : State) : Host.Outcome State Fault Refusal :=
  act (g < 32) s (fun s =>
    match (prgOf s g).plan, nextAuOf s g, s.lastBlock48 with
    | some (n, p), some j, some b =>
      if 1 ≤ p.codec && p.codec ≤ 3 && auLength p * (j + 1) ≤ 48 * b then
        let late := match (chan s n).plan with
          | none => false
          | some c => auLaunch c p (sampleTime p.rate96 (auLength p * j)) < nowN s
        let run := programmeRun s p (auLength p * j) (auLength p)
        let au := Config.encodeAudio p (prgOf s g).encState run.1
        let s := onlyIf late s (fun s => count s (PRG_ENC_LATE g))
        let s := modPrg s g (fun x => { x with encState := au.2, auCrc := crc32c au.1 })
        seeAu (queueAu s g n p j run.2 au.1) g n p j
      else s
    | _, _, _ => s)

/-! ### AUDIO_BLOCK (R248, R251, R331) -/

/-- The next grid block whose instant is due, given the last one handled: none is skipped and none comes again (R300). -/
def dueBlock (s : State) (r96 : Bool) (last : Option Nat) : Option Nat :=
  match last with
  | none => some (blockNow s r96)
  | some b => if reached s (blockTime r96 (b + 1)) then some (b + 1) else none

/-- Whether the blocks before block `b` hold the sample of an RTP timestamp of a receive flow: by the ALIGN of the audio flow on its port
(R251, R331). -/
def blocksHold (s : State) (n x b : Nat) (r96 : Bool) (ts : BitVec 32) : Bool :=
  let on (f : Nat) : Bool := nfAssigned s f && nfChannel s f = n && rdFld s (NF_CFG f) 4 0 = rdFld s (RXF_CFG x) 7 3 &&
    rdBit s (NF_CFG f) 5 == (flowKind s x = 4 : Bool)
  let align := (((List.range 32).find? on).map (fun f => rdFld s (NF_ALIGN f) 12 0)).getD 0
  let na := (nowN s * audioFs r96).fdiv 1000000000
  na + (ts - BitVec.ofInt 32 na).toInt + align < 48 * b

/-- Everything that happens at t_b: ports form block b, flows close block b - 1, PCM programmes queue packets. -/
def gridBlock (s : State) (r96 : Bool) (b : Nat) : State :=
  let s := forEach (List.range 8) s (fun p s => if apAssigned s p && rdBit s (AP_CFG p) 2 == r96 then formBlock s p b else s)
  let fs := (List.range 32).filter (fun f => nfAssigned s f && rdBit s (NF_CFG f) 6 == r96)
  let s := if b = 0 then s else forEach fs s (fun f s => closeBlock s f (b - 1))
  let s := forEach ((fs.map (fun f => nfChannel s f)).eraseDups) s (fun n s =>
    forEach (flowsOf s n 3 ++ flowsOf s n 4) s (fun x s => closeFlow s x (blocksHold s n x b r96)))
  forEach (List.range 32) s (fun g s =>
    match (prgOf s g).plan with
    | some (_, p) => if p.rate96 == r96 then pcmPacket (refreshPcm s g) g b else s
    | none => s)

/-- AUDIO_BLOCK: acts at the next grid block instant of a rate. -/
def execAudioBlock (r96 : Bool) (s : State) : Host.Outcome State Fault Refusal :=
  act true s (fun s =>
    match dueBlock s r96 (if r96 then s.lastBlock96 else s.lastBlock48) with
    | none => s
    | some b =>
      let s := gridBlock s r96 b
      if r96 then { s with lastBlock96 := some b } else { s with lastBlock48 := some b })

end Sys2Proof.Machine
end

