-- ==== Sys2Proof/Machine/Bitstream.lean ====
section
/-!
DEFINITION. The framing of contribution streams that R190 names: TS packets and PES headers (ISO/IEC 13818-1), HEVC payloads of RFC 7798,
the byte stream of H.265, and the units of an access unit with whether a gap marker breaks them. PRESUMED from those standards (log entry
64).
-/
namespace Sys2Proof.Machine

/-! ### Transport stream (carriage 1) -/

/-- A TS packet of the slot's PID: its continuity counter, whether transport_error_indicator is set, the PTS where a PES packet starts,
the bytes of the elementary stream. -/
structure TsIn where
  cc : BitVec 4
  error : Bool
  start : Option Nat
  bytes : List Byte
  deriving DecidableEq, Repr

/-- The PTS of a PES header. -/
def pesPts (b : List Byte) : Nat :=
  leAt b 9 1 / 2 % 8 * 2 ^ 30 + beAt b 10 2 / 2 * 2 ^ 15 + beAt b 12 2 / 2

/-- A TS packet read where it is one of a PID that carries payload. -/
def readTs (pid : Nat) (b : List Byte) : Option TsIn :=
  let afc := leAt b 3 1 / 16 % 4
  let body := if afc = 3 then b.drop (5 + leAt b 4 1) else b.drop 4
  let start := leAt b 1 1 / 64 % 2 = 1
  if leAt b 0 1 = 0x47 && beAt b 1 2 % 2 ^ 13 = pid && (afc = 1 || afc = 3) then
    some { cc := BitVec.ofNat 4 (leAt b 3 1), error := 128 ≤ leAt b 1 1
           start := if start then some (pesPts body) else none
           bytes := if start then body.drop (9 + leAt body 8 1) else body }
  else none

/-- The TS packets of a PID in an RTP payload of `n` packets. -/
def tsPacketsIn (pid : Nat) (b : List Byte) : List TsIn :=
  (List.range (b.length / 188)).filterMap (fun i => readTs pid ((b.drop (188 * i)).take 188))

/-! ### Units of an access unit -/

/-- Pieces of a ring as its elements: bytes, and a gap marker where there is none. -/
def ringElements (ps : List (List Byte × Bool)) : List (Option Byte) :=
  ps.flatMap (fun p => p.1.map some ++ (if p.2 then [none] else []))

/-- nal_unit_type of an HEVC NAL unit. -/
def nalType (b : List Byte) : Nat := leAt b 0 1 / 2 % 64

/-- The NAL units of an aggregation packet, at most `n` of them; one that is cut short is broken. -/
def apUnits : Nat → List Byte → Bool → List (List Byte × Bool)
  | 0, _, _ => []
  | n + 1, b, gap =>
    if b.length < 2 then []
    else
      let k := beAt b 0 2
      ((b.drop 2).take k, gap && b.length < k + 3) :: apUnits n (b.drop (2 + k)) gap

/-- The NAL units of RFC 7798 payloads: those complete, each with whether it is broken, and the one whose fragments arrive. -/
structure NalRun where
  done : List (List Byte × Bool)
  part : Option (List Byte × Bool)

/-- Close the fragmented unit. -/
def NalRun.close (x : NalRun) (broken : Bool) : NalRun :=
  { done := x.done ++ (x.part.map (fun p => (p.1, p.2 || broken))).toList, part := none }

/-- A payload with whether a gap marker follows it. -/
def NalRun.take (x : NalRun) (p : List Byte × Bool) : NalRun :=
  let b := p.1
  if b.isEmpty then { x with part := x.part.map (fun y => (y.1, true)) }
  else if nalType b = 48 then
    let x := x.close true
    { x with done := x.done ++ apUnits b.length (b.drop 2) p.2 }
  else if nalType b = 49 then
    let h := leAt b 2 1
    let x := if 128 ≤ h then
        let x := x.close true
        { x with part := some (leBytes 1 (leAt b 0 1 / 128 * 128 + h % 64 * 2 + leAt b 0 1 % 2) ++ (b.drop 1).take 1 ++ b.drop 3, p.2) }
      else
        let y := x.part.getD (leBytes 1 (h % 64 * 2) ++ [0], true)
        { x with part := some (y.1 ++ b.drop 3, y.2 || p.2) }
    if h / 64 % 2 = 1 then x.close false else x
  else
    let x := x.close true
    { x with done := x.done ++ [(b, p.2)] }

/-- The NAL units of carriage 0; a unit whose last fragment has not come is broken once the access unit has ended. -/
def rtpUnits (ended : Bool) (ps : List (List Byte × Bool)) : List (List Byte × Bool) :=
  ((ps.foldl NalRun.take { done := [], part := none }).close ended).done

/-- Byte-stream segments between start codes, the first one what stands before the first start code: `cur` is the segment in hand in
reverse. -/
def splitStart : List (Option Byte) → Option (List (Option Byte)) → List (List (Option Byte))
  | [], cur => (cur.map List.reverse).toList
  | x :: r, cur =>
    match cur with
    | some (y :: z :: c) =>
      if x = some 1 && y = some 0 && z = some 0 then c.reverse :: splitStart r (some []) else splitStart r (some (x :: y :: z :: c))
    | some c => splitStart r (some (x :: c))
    | none => splitStart r none

/-- The NAL units of carriage 1: start codes and trailing zeros are taken off; a unit that holds a gap marker is broken. -/
def streamUnits (ps : List (List Byte × Bool)) : List (List Byte × Bool) :=
  ((splitStart (ringElements ps) (some [])).drop 1).map (fun u =>
    (((u.filterMap id).reverse.dropWhile (fun b => b == 0)).reverse, u.any (fun x => x.isNone)))

/-- The units of an access unit of an HEVC slot. -/
def hevcUnits (carriage : Nat) (ended : Bool) (ps : List (List Byte × Bool)) : List (List Byte × Bool) :=
  if carriage = 1 then streamUnits ps else rtpUnits ended ps

/-- Whether elements of a JPEG XS ring hold a gap marker, or are not there. -/
def rangeBroken (ps : List (List Byte × Bool)) (off len : Nat) : Bool :=
  let r := ((ringElements ps).drop off).take len
  r.length < len || r.any (fun x => x.isNone)

/-- VCL NAL units. -/
def isVcl (u : List Byte × Bool) : Bool := !u.1.isEmpty && nalType u.1 < 32

/-- The type of an access unit's picture: its first unbroken VCL NAL unit's, or where every one is broken the first one's header (R200). -/
def auType (us : List (List Byte × Bool)) : Option Nat :=
  let vs := us.filter isVcl
  ((vs.filter (fun u => !u.2) ++ vs).head?).map (fun u => nalType u.1)

/-- IDR, CRA and BLA pictures. -/
def isRapType (t : Nat) : Bool := 16 ≤ t && t ≤ 21

end Sys2Proof.Machine
end

