-- ==== Sys2Proof/Machine/Decoder.lean ====
section
/-!
DEFINITION. The decode slots: contribution packets, capture times, concealment, the states of output pictures and the decode
records (spec/07_contribution_decode.md). What the bits of a stream say and decode to is a function of them alone (R202): the codec
standards', `Config.parseUnit` and `Config.decodeSamples`.
-/
namespace Sys2Proof.Machine

/-- SLOT_STAT.STATE. -/
def slotState (s : State) (u k : Nat) : Nat := rdFld s (DS_SLOT_STAT u k) 2 0

/-- Whether a slot serves a channel. -/
def slotAssigned (s : State) (u k : Nat) : Bool := rdBit s (DS_SLOT_CFG u k) 8

/-- CARRIAGE of a slot. -/
def slotCarriage (s : State) (u k : Nat) : Nat := rdFld s (DS_SLOT_CFG u k) 3 2

/-! ### CONTRIB_PACKET_RX (R190 to R193, R199, R200) -/

/-- TS_ADJ as a signed 33-bit count. -/
def tsAdj (s : State) (u k : Nat) : Int :=
  (BitVec.ofNat 33 ((rd s (DS_TS_ADJ_LO u k)).toNat + rdFld s (DS_TS_ADJ_HI u k) 0 0 * 2 ^ 32)).toInt

/-- The capture time of an access unit whose first byte arrived at a corrected time (R191). -/
def captureTime (s : State) (u k : Nat) (t : Int) (ts : Nat) : Int :=
  let na := count90 t
  let n := if slotCarriage s u k = 1 then nearestCount 33 na (ts + tsAdj s u k) else nearestCount 32 na ts
  mediaTime n + (rd s (DS_CT_OFS u k)).toNat

/-- The capture time of an access unit of a ring. -/
def auCapture (s : State) (u k : Nat) (a : AuSt) : Int := captureTime s u k a.arrived a.ts

/-- Change the access unit that is arriving: the last of the ring. -/
def modArriving (s : State) (u k : Nat) (f : AuSt → AuSt) : State :=
  modSlot s u k (fun x => { x with ring := x.ring.modify (x.ring.length - 1) f })

/-- The access unit that is arriving. -/
def arriving (s : State) (u k : Nat) : Option AuSt := ((slotOf s u k).ring.getLast?).filter (fun a => !a.ended)

/-- Whether a slot decodes JPEG XS. -/
def slotXs (s : State) (u k : Nat) : Bool := rdFld s (DS_SLOT_CFG u k) 1 0 = 2

/-- The units of an access unit. -/
def unitsOfAu (s : State) (u k : Nat) (a : AuSt) : List (List Byte × Bool) := hevcUnits (slotCarriage s u k) a.ended a.pieces

/-- Whether an access unit is known to be a random-access point: an IDR, CRA or BLA picture, or any JPEG XS picture (R199). -/
def isRap (s : State) (u k : Nat) (a : AuSt) : Bool := slotXs s u k || ((auType (unitsOfAu s u k a)).map isRapType).getD false

/-- The first random-access point of a slot is recognised: the slot decodes (R199). -/
def noteRap (s : State) (u k : Nat) : State :=
  match arriving s u k with
  | none => s
  | some a =>
    if isRap s u k a then
      let s := onlyIf (decide (slotState s u k = 1)) s (fun s => wrFld s (DS_SLOT_STAT u k) 2 0 2)
      modSlot s u k (fun x => { x with gotRap := true })
    else s

/-- The access unit that is arriving ends; before the first random-access point it is discarded (R199). -/
def endArriving (s : State) (u k : Nat) : State :=
  let s := if (slotOf s u k).gotRap then s else noteRap s u k
  match arriving s u k with
  | none => s
  | some _ =>
    if (slotOf s u k).gotRap then modArriving s u k (fun a => { a with ended := true })
    else count (modSlot s u k (fun x => { x with ring := x.ring.dropLast })) (DS_PICS_DISCARDED u k)

/-- An access unit begins, behind the gap marker that stands before it. -/
def startArriving (s : State) (u k ts : Nat) : State :=
  let s := endArriving s u k
  let a : AuSt := { arrived := nowN s, timed := rdBit s TIM_STAT 0, ts := ts
                    pieces := if (slotOf s u k).gapNext then [([], true)] else [], size := 0, cut := false, ended := false }
  modSlot s u k (fun x => { x with
    ring := x.ring ++ [a]
    gapNext := false })

/-- A gap marker stands at the end of what has been written: in the unit that is arriving, or before the next one (R190). -/
def putGap (s : State) (u k : Nat) : State :=
  match arriving s u k with
  | none => modSlot s u k (fun x => { x with gapNext := true })
  | some _ => modArriving s u k (fun a => { a with pieces := a.pieces ++ [([], true)] })

/-- A gap marker is written and counted (R190). -/
def markGap (s : State) (u k : Nat) : State := putGap (count s (DS_PKT_GAP u k)) u k

/-- Whether a write lies in the bounds window of the buffer it names (R194): 0 the bitstream ring, 1 the substitute store, 2 the input-frame
ring, 3 the record area, from 4 on the decoded-picture buffer entries. -/
def writeInside (windows : List (Nat × Nat)) (w : Nat × Nat × Nat) : Bool :=
  match windows[w.1]? with
  | some b => b.1 ≤ w.2.1 && w.2.1 + w.2.2 ≤ b.1 + b.2
  | none => false

/-- The write of some bytes at a place of a slot's buffer that the unit fills in a circle from its base (DESIGN CHOICE, log entry 62: the
manual does not give a unit's addresses). -/
def circleWrite (windows : List (Nat × Nat)) (b place len : Nat) : Nat × Nat × Nat :=
  let w := windows.getD b (0, 0)
  (b, w.1 + place % max 1 w.2, if len ≤ w.2 then min len (w.2 - place % max 1 w.2) else len)

/-- A write that falls outside its window is withheld and counted (R194). -/
def withholdWrite (s : State) (u : Nat) : State := setEvt (count s (DU_BOUND_VIOL u)) (DU_EVT u) 3

/-- Bytes are written into the ring; an access unit is cut at AU_MAX and the remainder is a gap (R193), which PKT_GAP does not count: the
manual says it is treated as a gap and not whether that counts one (DESIGN CHOICE, log entry 45). Bytes that the ring's window does not take
are not written, which is a gap too. -/
def ringWrite (s : State) (u k : Nat) (bs : List Byte) : State :=
  match arriving s u k with
  | none => s
  | some a =>
    let x := slotOf s u k
    let max_ := (rd s (DS_AU_MAX u k)).toNat
    let cutNow := !a.cut && max_ < a.size + bs.length
    let s := onlyIf cutNow s (fun s => setEvt (count s (DS_WORK_STOP u k)) (DU_EVT u) 2)
    let kept := if a.cut then [] else bs.take (max_ - a.size)
    let inside := kept.isEmpty || writeInside x.windows (circleWrite x.windows 0 x.written kept.length)
    let s := onlyIf (!inside) s (fun s => withholdWrite s u)
    let s := modSlot s u k (fun x => { x with written := if inside then x.written + kept.length else x.written })
    modArriving s u k (fun a => { a with
      pieces := if a.cut then a.pieces else a.pieces ++ [(if inside then kept else [], cutNow || !inside)]
      size := a.size + bs.length
      cut := a.cut || cutNow })

/-- A TS packet of the slot's PID: a continuity error and transport_error_indicator are gaps, a repeated packet is no data; a PES packet
that starts ends the access unit before it (R190). `gap` tells of missing RTP packets before it. The packet after one with
transport_error_indicator is not tested for continuity, since the counter of that one is not to be trusted (DESIGN CHOICE, log entry 62: the
manual does not say). -/
def tsPacketRx (s : State) (u k : Nat) (gap : Bool) (t : TsIn) : State :=
  let last := (slotOf s u k).cc
  if t.error then modSlot (markGap s u k) u k (fun x => { x with cc := none })
  else if last = some t.cc && !gap then s
  else
    let s := onlyIf (gap || (last.any (fun c => t.cc ≠ c + 1))) s (fun s => markGap s u k)
    let s := modSlot s u k (fun x => { x with cc := some t.cc })
    let s := match t.start with
      | some pts => startArriving s u k pts
      | none => s
    ringWrite s u k t.bytes

/-- A payload of carriage 0 or 2: an access unit ends with the marker bit, or before the first packet of a later timestamp (R190). -/
def rtpPayloadRx (s : State) (u k : Nat) (gap : Bool) (p : ContribPacket) : State :=
  let s := onlyIf gap s (fun s => markGap s u k)
  let s := match arriving s u k with
    | some a =>
      if 0 < (p.ts - BitVec.ofNat 32 a.ts).toInt then
        startArriving (onlyIf gap s (fun s => modSlot s u k (fun x => { x with gapNext := true }))) u k p.ts.toNat
      else s
    | none => startArriving s u k p.ts.toNat
  let s := ringWrite s u k (if slotCarriage s u k = 2 then p.payload.drop 4 else p.payload)
  let s := if (slotOf s u k).gotRap then s else noteRap s u k
  if p.marker then endArriving s u k else s

/-- The PID of a slot's elementary stream. -/
def slotPid (s : State) (u k : Nat) : Nat :=
  (((chan s (rdFld s (DS_SLOT_CFG u k) 7 4)).plan.bind (fun p => p.slot)).map (fun x => x.pid)).getD 0

/-- A packet of a slot's stream. One that arrives after a later one is a gap where it belonged (R200). -/
def contribPacket (s : State) (u k : Nat) (p : ContribPacket) : State :=
  let d : Int := match (slotOf s u k).seqLast with
    | some q => (p.seq - q).toInt
    | none => 1
  if d ≤ 0 then s
  else
    let s := modSlot s u k (fun x => { x with seqLast := some p.seq })
    let gap := decide (1 < d)
    if slotCarriage s u k = 1 then
      let ts := tsPacketsIn (slotPid s u k) p.payload
      let s := onlyIf (gap && ts.isEmpty) s (fun s => markGap s u k)
      let s := forEach ts.zipIdx s (fun (t : TsIn × Nat) s => tsPacketRx s u k (gap && t.2 = 0) t.1)
      if (slotOf s u k).gotRap then s else noteRap s u k
    else rtpPayloadRx s u k gap p

/-- CONTRIB_PACKET_RX. -/
def execContribPacketRx (u k : Nat) (p : ContribPacket) (s : State) : Host.Outcome State Fault Refusal :=
  act (u < 4 && k < 4) s (fun s => if slotAssigned s u k then contribPacket s u k p else s)

/-! ### What an access unit decodes to (R188, R189, R193 to R195) -/

/-- The constraint flags of Main 4:2:2 10: max_12bit, max_10bit, max_8bit, max_422chroma, max_420chroma, max_monochrome, intra,
one_picture_only, lower_bit_rate (PRESUMED from ITU-T H.265, log entry 64). -/
def mainFlags : List Bool := [true, true, false, true, false, false, false, false, true]

/-- Whether the active SPS of an HEVC stream keeps R188 and has the slot's format (R199). -/
def hevcSupported (x : StreamIn) (w h : Nat) : Bool :=
  x.profile = 4 && x.constraints = mainFlags && x.level ≤ 183 && x.chroma = 2 && x.depthY = 10 && x.depthC = 10 && x.w ≤ 7680 && x.h ≤ 4320 &&
    x.fpsNum ≤ 120 * x.fpsDen && x.w * x.h * x.fpsNum ≤ 2139095040 * x.fpsDen && x.bitrate ≤ 800000000 && !x.fieldSeq &&
    x.w = w && x.h = h

/-- Whether a JPEG XS codestream keeps R189 and has the slot's format. -/
def xsSupported (x : StreamIn) (w h : Nat) : Bool :=
  (x.profile = 1 || x.profile = 2) && x.chroma = 2 && x.depthY = 10 && x.depthC = 10 && x.w ≤ 4096 && x.h ≤ 2160 &&
    x.fpsNum ≤ 120 * x.fpsDen && x.bitrate ≤ 10000000000 && x.w = w && x.h = h

/-- The decoding of a picture as far as its slices have come: the segments taken, the CTUs or precincts decoded, the bins or codestream
bytes used, the work stops, the writes withheld, the reference reads that fall outside a window; for each slice its first unit, the units
it completed, whether it is correctly decoded. -/
structure DecodeRun where
  segs : Nat
  decoded : List Nat
  used : Nat
  stops : Nat
  withheld : Nat
  outside : List (Nat × Nat × Nat)
  slices : List (Nat × List Nat × Bool)
  deriving DecidableEq, Repr

/-- The units a slice completes, until one is not completed: (run, completed, whether all were). `limit` bounds the work; what a slice that
it stops would take beyond it is not taken, what it takes up to it is spent (R193). -/
def runSteps (windows : List (Nat × Nat)) (limit : Nat) : List StepIn → DecodeRun → List Nat → DecodeRun × List Nat × Bool
  | [], x, done => (x, done.reverse, true)
  | t :: ts, x, done =>
    let bad := (t.writes.filter (fun w => !writeInside windows w)).length
    if x.decoded.contains t.num then ({ x with stops := x.stops + 1 }, done.reverse, false)
    else if limit < x.used + t.cost then ({ x with stops := x.stops + 1, used := limit }, done.reverse, false)
    else
      let x := { x with
        used := x.used + t.cost
        decoded := t.num :: x.decoded
        withheld := x.withheld + bad
        outside := x.outside ++ t.reads.filter (fun r => !writeInside windows r) }
      if t.inRange && bad = 0 then runSteps windows limit ts x (t.num :: done) else (x, done.reverse, false)

/-- A slice segment (R193, R195): one beyond 600, or at a CTU already decoded, is discarded; one whose unit holds a gap marker has been
discarded (R190); one that refers to a parameter set that is absent or invalid decodes nothing. The bins of HEVC are bounded over the
picture, the packets of a JPEG XS slice by the bytes that remain from it on. -/
def runSlice (xs : Bool) (windows : List (Nat × Nat)) (limit : SliceIn → Nat) (sets : List (Nat × Nat × List Byte))
    (broken : SliceIn → Bool) (x : DecodeRun) (sl : SliceIn) : DecodeRun :=
  if broken sl then x
  else if !xs && (600 ≤ x.segs || x.decoded.contains sl.addr) then { x with stops := x.stops + 1 }
  else
    let x := { x with segs := x.segs + 1 }
    if !xs && sl.ps.any (fun p => !sets.any (fun y => y.1 = p.1 && y.2.1 = p.2)) then { x with slices := x.slices ++ [(sl.addr, [], false)] }
    else
      let r := runSteps windows (limit sl) sl.steps (if xs then { x with used := 0 } else x) []
      { r.1 with slices := r.1.slices ++ [(sl.addr, r.2.1, r.2.2 && sl.fits)] }

/-- The first correctly decoded slice segment at or after a CTU; the number of CTUs where there is none. -/
def nextGood (slices : List (Nat × List Nat × Bool)) (total c : Nat) : Nat :=
  slices.foldl (fun a x => if x.2.2 && c ≤ x.1 then min a x.1 else a) total

/-- The CTUs to conceal (R195): from where a corrupt slice stops to the next correctly decoded one, and those that no slice covered. -/
def concealedCtus (total : Nat) (slices : List (Nat × List Nat × Bool)) : List Nat :=
  let ranges := (slices.filter (fun x => !x.2.2)).map (fun x =>
    let from_ := x.1 + x.2.1.length
    (from_, nextGood slices total from_))
  let covered := (slices.map (fun x => x.2.1)).flatten
  (List.range total).filter (fun c => !covered.contains c || ranges.any (fun r => r.1 ≤ c && c < r.2))

/-- The JPEG XS slices to conceal: each that is not correctly decoded, whole (R195). -/
def concealedSlices (total : Nat) (slices : List (Nat × List Nat × Bool)) : List Nat :=
  (List.range total).filter (fun i => !slices.any (fun x => x.1 = i && x.2.2))

/-- The bins a picture may take: V are the bytes of its VCL NAL units received (R193). -/
def binLimit (x : StreamIn) (vcl : Nat) : Nat :=
  let m := 2 ^ x.minCbLog2
  let raw := m * m * x.depthY + 2 * (m * m / 2) * x.depthC
  32 * vcl / 3 + raw * (x.w / m) * (x.h / m) / 32

/-- What an access unit decodes to: the run, the units to conceal and their regions (x, y, width, height in luma). -/
def decodeAu (s : State) (u k : Nat) (a : AuSt) (d : DecodedPicture) : DecodeRun × List Nat × List (Nat × Nat × Nat × Nat) :=
  let x := slotOf s u k
  let init : DecodeRun := { segs := 0, decoded := [], used := 0, stops := 0, withheld := 0, outside := [], slices := [] }
  let w := rdFld s (DS_SLOT_FMT u k) 15 0
  let h := rdFld s (DS_SLOT_FMT u k) 31 16
  if slotXs s u k then
    let ok := xsSupported d.stream w h
    let broken (sl : SliceIn) : Bool := !ok || rangeBroken a.pieces sl.off sl.len
    let left (sl : SliceIn) : Nat := (((ringElements a.pieces).drop sl.off).filter (fun y => y.isSome)).length
    let r := d.slices.foldl (runSlice true x.windows left [] broken) init
    let sh := max 1 d.stream.sliceH
    let total := (h + sh - 1) / sh
    let cs := concealedSlices total r.slices
    (r, cs, cs.map (fun i => (0, i * sh, w, min sh (h - i * sh))))
  else
    let us := unitsOfAu s u k a
    let vcl := ((us.filter isVcl).map (fun y => y.1.length)).sum
    let broken (sl : SliceIn) : Bool := (us.getD sl.unit ([], true)).2
    let r := d.slices.foldl (runSlice false x.windows (fun _ => binLimit d.stream vcl) x.sets broken) init
    let c := 2 ^ d.stream.ctbLog2
    let wc := (w + c - 1) / c
    let total := wc * ((h + c - 1) / c)
    let cs := concealedCtus total r.slices
    (r, cs, cs.map (fun i => (i % max 1 wc * c, i / max 1 wc * c, c, c)))

/-! ### PICTURE_DECODED (R192 to R200, R204) -/

/-- Mid-grey in a slot's format (R196). -/
def greyPicture (w h : Nat) : Picture := { y := flatPlane w h 512, cb := flatPlane (w / 2) h 512, cr := flatPlane (w / 2) h 512 }

/-- A plane with the samples of a substitute inside regions; `sx` is the horizontal subsampling (R196). -/
def concealPlane (sx : Nat) (regions : List (Nat × Nat × Nat × Nat)) (p sub : Plane) : Plane :=
  { p with px := p.px.zipIdx.map (fun v =>
      let x := v.2 % max 1 p.w * sx
      let y := v.2 / max 1 p.w
      if regions.any (fun r => r.1 ≤ x && x < r.1 + r.2.2.1 && r.2.1 ≤ y && y < r.2.1 + r.2.2.2) then
        sub.px.getD v.2 512
      else v.1) }

/-- A picture with its concealed regions filled (R196). -/
def concealPicture (regions : List (Nat × Nat × Nat × Nat)) (p sub : Picture) : Picture :=
  { y := concealPlane 1 regions p.y sub.y
    cb := concealPlane 2 regions p.cb sub.cb
    cr := concealPlane 2 regions p.cr sub.cr }

/-- The samples a picture decodes to, in the slot's format, its concealed regions filled (R194, R196, R202). -/
def decodedSamples (x : UnitIn) (regions : List (Nat × Nat × Nat × Nat)) (reads : List (Nat × Nat × Nat)) (refs : List RefPic)
    (sub : Picture) : Picture :=
  let g := Config.decodeSamples { unit := x, regions := regions, refs := refs.map (fun r => (r.order, r.pic)), outside := reads
                                  substitute := sub }
  let shape (w h : Nat) (p : Plane) : Plane := { w := w, h := h, px := (List.range (w * h)).map (fun i => p.px.getD i 0) }
  concealPicture regions { y := shape x.w x.h g.y, cb := shape (x.w / 2) x.h g.cb, cr := shape (x.w / 2) x.h g.cr } sub

/-- The decode record of an output picture (R204). -/
def decodeRecord (u k ch flags units : Nat) (c order : Int) : List Byte :=
  withCrc (leBytes 2 0x0701 ++ leBytes 1 (k + 4 * u) ++ leBytes 1 ch ++ leBytes 2 flags ++ leBytes 2 (min units 0xFFFF) ++
    leInt 8 c ++ leInt 4 order)

/-- Write a decode record, or drop and count it; one that falls outside the record area is withheld (R194). -/
def putDecodeRecord (s : State) (u k : Nat) (bs : List Byte) : State :=
  let ws := (slotOf s u k).windows
  if rdBit s (DS_REC_CTL u k) 15 && !writeInside ws (circleWrite ws 3 0 bs.length) then withholdWrite s u
  else if rdBit s (DS_REC_CTL u k) 15 then
    match putRecord s (rdFld s (DS_REC_CTL u k) 14 0) bs with
    | (s, true) => s
    | (s, false) => setEvt (count s (DS_REC_DROP u k)) (DU_EVT u) 8
  else s

/-- The capture time's frame has passed its cut-off without this picture (R192). -/
def lateAtCutoff (s : State) (n : Nat) (c : Int) : Bool :=
  match (chan s n).grid with
  | none => false
  | some g => match pointOf g c with
    | none => false
    | some i => reached s (cutoffAt g i)

/-- The first picture output from the first random-access point that came with TIME_SET: where its channel has no grid, its capture time is
g_0 (R192, R489). -/
def bindFirst (s : State) (n : Nat) (c : Int) : State :=
  match (chan s n).plan with
  | some p => if (chan s n).grid.isNone && !(chan s n).stopped && (chan s n).gap.isNone then bindGrid s n p c else s
  | none => s

/-- A picture leaves in output order: its state is counted, CLEAN shows it, its record is written (R198, R204). FLAGS[7] and EVT.CLEAN are
the return to clean at a random-access point; until one has been output clean, no other picture ends the wait for it. -/
def outputPicture (s : State) (u k : Nat) (o : OutPic) : State :=
  let n := rdFld s (DS_SLOT_CFG u k) 7 4
  let concealed := o.flags % 2 = 1
  let tainted := o.flags / 2 % 2 = 1
  let clean := !concealed && !tainted
  let returned := clean && o.rap && (slotOf s u k).dirty
  let s := if concealed then count s (DS_PICS_CONCEALED u k) else if tainted then count s (DS_PICS_TAINTED u k) else count s (DS_PICS_OK u k)
  let s := onlyIf returned s (fun s => setEvt s (DU_EVT u) 7)
  let s := wrBit s (DS_SLOT_STAT u k) 3 clean
  let s := modSlot s u k (fun x => { x with dirty := !clean || (x.dirty && !o.rap) })
  let s := onlyIf o.timed s (fun s => bindFirst s n o.capture)
  putDecodeRecord s u k (decodeRecord u k n (o.flags + 128 * b2n returned) o.units o.capture o.order)

/-- A waiting picture takes its place in output order. -/
def insertOut (o : OutPic) : List OutPic → List OutPic
  | [] => [o]
  | x :: xs => if o.order < x.order then o :: x :: xs else x :: insertOut o xs

/-- The waiting pictures that leave: all but `keep` of them, first in output order first. -/
def outputDown (s : State) (u k keep : Nat) : State :=
  let os := (slotOf s u k).outs
  let s := modSlot s u k (fun x => { x with outs := x.outs.drop (os.length - keep) })
  forEach (os.take (os.length - keep)) s (fun o s => outputPicture s u k o)

/-- The references of a picture (R197): the entries its reference picture set names, a copy of the substitute in the place of each that
the buffer does not hold, and the number of copies. -/
def referencesOf (x : SlotSt) (sub : Picture) (names : List Int) : List RefPic × Nat :=
  let missing := names.eraseDups.filter (fun o => !x.dpb.any (fun r => r.order = o))
  (x.dpb.filter (fun r => names.contains r.order) ++ missing.map (fun o => { order := o, pic := sub, bad := true }), missing.length)

/-- The parameter sets of an access unit: each takes the place of the one received before; one whose unit holds a gap marker is invalid, and
absent until a valid copy arrives (R200). A parameter set stands in a NAL unit of its own type. -/
def noteParams (us : List (List Byte × Bool)) (sets : List (Nat × Nat × List Byte)) (ps : List (Nat × Nat × Nat)) :
    List (Nat × Nat × List Byte) :=
  ps.foldl (fun b p =>
    let rest := b.filter (fun y => !(y.1 = p.2.1 && y.2.1 = p.2.2))
    let u := us.getD p.1 ([], true)
    if u.2 then rest else if nalType u.1 = p.2.1 then rest ++ [(p.2.1, p.2.2, u.1)] else b) sets

/-- The counters and events that a picture's decoding leaves (R193, R194, R196 to R198); a concealed picture is an event of the
decode-concealment class of its slot. -/
def countDecode (s : State) (u k units refMissing stops withheld : Nat) (concealed : Bool) : State :=
  let s := countBy s (DS_UNITS_CONCEALED u k) units
  let s := onlyIf (refMissing != 0) s (fun s => setEvt (countBy s (DS_REF_SUBST u k) refMissing) (DU_EVT u) 1)
  let s := onlyIf (stops != 0) s (fun s => setEvt (countBy s (DS_WORK_STOP u k) stops) (DU_EVT u) 2)
  let s := onlyIf (withheld != 0) s (fun s => setEvt (countBy s (DU_BOUND_VIOL u) withheld) (DU_EVT u) 3)
  onlyIf concealed s (fun s =>
    reportFault (setEvt (wrRaw s (DS_LAST_CONC_LO u k) (DS_LAST_CONC_HI u k) s.raw) (DU_EVT u) 0) 5 (4 * u + k) 0)

/-- A decoded picture enters its channel as the source frame of its capture time, where its frame's input is open (R186, R192): late where
its frame's cut-off has passed. Before the channel has a grid it waits for it, where `timed` says that the grid begins with it or after it. -/
def enterChannel (s : State) (n : Nat) (c : Int) (pic : Picture) (timed : Bool) : State :=
  let ch := chan s n
  let add (late : Bool) : State := modChan s n (fun x => { x with
    sources := x.sources ++ [{ capture := c, srds := [], full := some pic, late := late }] })
  if ch.plan.isNone || ch.stopped || ch.gap.isSome then s
  else match ch.grid with
    | none => if timed then add false else s
    | some g => match pointOf g c with
      | none => s
      | some i =>
        if !reached s (cutoffAt g i) then add false
        else if ch.j ≤ i || ch.frames.any (fun f => f.j = i && !f.closed) then add true
        else s

/-- What a decoder reads of an access unit (R202). -/
def unitIn (s : State) (u k : Nat) (a : AuSt) : UnitIn :=
  let x := slotOf s u k
  { xs := slotXs s u k, units := unitsOfAu s u k a, elements := ringElements a.pieces, sets := x.sets, state := x.parser
    w := rdFld s (DS_SLOT_FMT u k) 15 0, h := rdFld s (DS_SLOT_FMT u k) 31 16 }

/-- What the bits of an access unit say. -/
def parsed (s : State) (u k : Nat) (a : AuSt) : DecodedPicture := Config.parseUnit (unitIn s u k a)

/-- Whether an access unit starts a coded video sequence, or is a JPEG XS picture: it refers to no picture before it. -/
def isFresh (s : State) (u k : Nat) (a : AuSt) (d : DecodedPicture) : Bool :=
  slotXs s u k || (isRap s u k a && ((auType (unitsOfAu s u k a)).getD 0 ≠ 21 || (slotOf s u k).order = 0 || d.afterEos || slotState s u k = 3))

/-- The place of a picture order count in output order: the pair of the coded video sequence and the count (R196). -/
def outputKey (cvs : Nat) (poc : Int) : Int := cvs * 2 ^ 32 + poc

/-- The coded video sequences with this picture's. -/
def cvsWith (x : SlotSt) (fresh : Bool) : Nat := if fresh && x.order ≠ 0 then x.cvs + 1 else x.cvs

/-- The substitute of a slot: mid-grey until a picture has been correctly decoded (R196). -/
def substituteOf (s : State) (u k : Nat) : Picture :=
  ((slotOf s u k).substitute.map (fun y => y.1)).getD (greyPicture (rdFld s (DS_SLOT_FMT u k) 15 0) (rdFld s (DS_SLOT_FMT u k) 31 16))

/-- What a picture's reference picture set names: nothing where no slice header came through whole. -/
def namedRefs (s : State) (u k : Nat) (a : AuSt) (d : DecodedPicture) : List Int :=
  if isFresh s u k a d || !(unitsOfAu s u k a).any (fun y => isVcl y && !y.2) then [] else d.refs ++ d.keeps

/-- The samples of an access unit as the slot decodes it. -/
def samplesOf (s : State) (u k : Nat) (a : AuSt) (d : DecodedPicture) : Picture :=
  let x := slotOf s u k
  let names := (namedRefs s u k a d).map (outputKey (cvsWith x (isFresh s u k a d)))
  let (run, _, regions) := decodeAu s u k a d
  decodedSamples (unitIn s u k a) regions run.outside (referencesOf x (substituteOf s u k) names).1 (substituteOf s u k)

/-- A picture is decoded: concealed, kept as substitute where it is clean, later and inside the store, held as a reference, given to its
channel, and put among the pictures waiting for output. The first JPEG XS picture of a slot has PIC_ORDER 0 (DESIGN CHOICE, log entry 62). -/
def finishPicture (s : State) (u k : Nat) (a : AuSt) (d : DecodedPicture) (rap fresh : Bool) : State :=
  let x := slotOf s u k
  let xs := slotXs s u k
  let n := rdFld s (DS_SLOT_CFG u k) 7 4
  let cvs := cvsWith x fresh
  let order : Int := if xs then x.order else outputKey cvs d.poc
  let sub := substituteOf s u k
  let (refs, missing) := referencesOf x sub ((namedRefs s u k a d).map (outputKey cvs))
  let (run, units, _) := decodeAu s u k a d
  let concealed := !units.isEmpty || missing != 0
  let tainted := !concealed && !xs && !fresh && refs.any (fun r => r.bad && d.refs.any (fun p => outputKey cvs p = r.order))
  let clean := !concealed && !tainted
  let pic := samplesOf s u k a d
  let c := auCapture s u k a
  let timed := x.timedRap || (rap && a.timed)
  let better := clean && (match x.substitute with
    | none => true
    | some y => y.2 < order)
  let inStore := writeInside x.windows (circleWrite x.windows 1 0 (4 * pic.y.w * pic.y.h))
  let keep := better && inStore
  let withheld := run.withheld + b2n (better && !inStore)
  let s := countDecode s u k units.length missing run.stops withheld concealed
  let s := wrBit s (DS_SLOT_STAT u k) 4 (keep || x.substitute.isSome)
  let flags := b2n concealed + 2 * b2n tainted + 4 * b2n (missing != 0) + 8 * b2n (concealed && x.substitute.isNone) +
    16 * b2n (a.cut || run.stops != 0) + 32 * b2n (withheld != 0) + 64 * b2n (lateAtCutoff s n c)
  let s := onlyIf fresh s (fun s => outputDown s u k 0)
  let s := modSlot s u k (fun x => { x with
    substitute := if keep then some (pic, order) else x.substitute
    order := x.order + 1
    cvs := cvs
    timedRap := timed
    dpb := if xs then [] else refs ++ [{ order := order, pic := pic, bad := !clean }]
    outs := insertOut { order := order, capture := c, flags := flags, units := units.length, rap := rap, timed := timed } x.outs })
  outputDown (enterChannel s n c pic timed) u k (if xs then 0 else d.stream.reorder)

/-- The slot has finished the oldest access unit of its ring, with what its bits say (R197 to R200). An access unit of an HEVC stream without
a slice and without a gap is no picture; one whose slices are all broken is a picture, concealed whole. An SPS that is absent says nothing of
the stream, and its slices are corrupt (R195). -/
def decodePicture (s : State) (u k : Nat) (a : AuSt) (d : DecodedPicture) : State :=
  let x := slotOf s u k
  let xs := slotXs s u k
  let us := unitsOfAu s u k a
  let c := auCapture s u k a
  let t := (auType us).getD 0
  let rap := isRap s u k a
  let fresh := isFresh s u k a d
  let sets := noteParams us x.sets d.params
  let s := modSlot s u k (fun x => { x with
    ring := x.ring.drop 1
    seen := c :: x.seen
    parser := d.state
    sets := sets })
  if x.seen.contains c then count s (DS_PICS_DISCARDED u k)
  else if !xs && (auType us).isNone && !a.pieces.any (fun p => p.2) then s
  else if !xs && ((sets.any (fun y => y.1 = 33 && y.2.1 = d.stream.sps) &&
        !hevcSupported d.stream (rdFld s (DS_SLOT_FMT u k) 15 0) (rdFld s (DS_SLOT_FMT u k) 31 16)) ||
      (slotState s u k = 3 && !rap)) then
    let s := onlyIf (slotState s u k != 3) s (fun s => setEvt (wrFld s (DS_SLOT_STAT u k) 2 0 3) (DU_EVT u) 5)
    count s (DS_UNSUPPORTED u k)
  else
    let s := wrFld s (DS_SLOT_STAT u k) 2 0 2
    let s := if rap then modSlot s u k (fun x => { x with noRasl := fresh && !(t = 19 || t = 20) && !xs }) else s
    if !xs && (t = 8 || t = 9) && (slotOf s u k).noRasl then count s (DS_PICS_DISCARDED u k)
    else finishPicture s u k a d rap fresh

/-- PICTURE_DECODED: the slot completes the oldest access unit of its ring, once it has ended. -/
def execPictureDecoded (u k : Nat) (s : State) : Host.Outcome State Fault Refusal :=
  act (u < 4 && k < 4) s (fun s =>
    match (slotOf s u k).ring.head? with
    | some a => if slotAssigned s u k && a.ended then decodePicture s u k a (parsed s u k a) else s
    | none => s)

end Sys2Proof.Machine
end

