-- ==== Sys2Proof/Machine/Flags.lean ====
section
/-!
DEFINITION. Every flag computation of the interrupt controller: the level of each of the 500 sources from the units' event
and enable registers (R393 and the rules it names).
-/
namespace Sys2Proof.Machine

/-- Whether any bit of an event register and its enables is set. -/
def evtHeld (s : State) (evt en : Reg) : Bool := rd s evt &&& rd s en != 0

/-- Whether any bit of a mask is set in an event register and its enables. -/
def evtMask (s : State) (evt en : Reg) (m : Word) : Bool := rd s evt &&& rd s en &&& m != 0

/-- The ladder scalers of a channel (R124, R236). -/
def ladderScalers (s : State) (n : Nat) : List Nat :=
  match (chan s n).plan with
  | none => []
  | some p => (p.outs.map (fun o => o.scl)).eraseDups

/-- The tiles of the mosaic in force (R229). -/
def mosaicTiles (s : State) : List TilePlan :=
  match s.img.inForce with
  | none => []
  | some i => match i.reading.device with
    | none => []
    | some d => d.tiles

/-- The mosaic scalers (R229, R236). -/
def mosaicScalers (s : State) : List Nat := ((mosaicTiles s).map (fun t => t.scl)).eraseDups

/-- Lane l's source: the lane, each port whose first lane it is, each flow whose path A port has it; never in an octet of
mode 0 (R332). -/
def laneSource (s : State) (l : Nat) : Bool :=
  rdFld s (LANE_OCT_CFG (l / 8)) 2 0 != 0 &&
  (evtHeld s (LN_EVT l) (LN_EVT_EN l) ||
   (List.range 24).any (fun p => rdFld s (P_PORT_CFG p) 12 9 != 0 && rdFld s (P_PORT_CFG p) 8 3 == l &&
     (evtHeld s (P_EVT p) (P_EVT_EN p) ||
      (List.range 128).any (fun f => rdFld s (RXF_CFG f) 2 0 != 0 && rdFld s (RXF_CFG f) 7 3 == p &&
        evtHeld s (RXF_EVT f) (RXF_EVT_EN f)))))

/-- Channel n's source: channel, compositor, ladder scalers and egress events (R99, R236, R290). -/
def channelSource (s : State) (n : Nat) : Bool :=
  evtHeld s (CH_EVT n) (CH_EVT_EN n) || evtHeld s (CMP_EVT n) (CMP_EVT_EN n) ||
  evtHeld s (EGR_CH_EVT n) (EGR_CH_EVT_EN n) || (ladderScalers s n).any (fun j => evtHeld s (SCL_EVT j) (SCL_EVT_EN j))

/-- Audio port p's source: the port and its four flows (R263). -/
def audioSource (s : State) (p : Nat) : Bool :=
  evtHeld s (AP_EVT p) (AP_EVT_EN p) ||
  (List.range 4).any (fun k => evtHeld s (NF_EVT (4 * p + k)) (NF_EVT_EN (4 * p + k)))

/-- The time sources 358 to 373 (R313). -/
def timeSource (s : State) (i : Nat) : Bool :=
  let m : Word :=
    if i < 8 then bitw i
    else if i = 8 then 0x10700
    else if i = 9 then 0x1800
    else if i = 10 then 0x6000
    else if i = 11 then 0x8000
    else 0
  evtMask s TIM_EVT TIM_EVT_EN m

/-- The calibration sources 374 to 381 (R481). -/
def calSource (s : State) (g : Nat) : Bool :=
  evtMask s CAL_EVT CAL_EVT_EN (if g < 7 then bitw g ||| bitw (8 + g) else bitw 15)

/-- The Mule sources 390 to 397 (R465). -/
def muleSource (s : State) (i : Nat) : Bool :=
  let m : Word :=
    match i with
    | 0 => 0x3
    | 1 => 0x20C
    | 2 => 0x30
    | 3 => 0x40
    | 4 => 0x180
    | _ => 0
  evtMask s MULE_EVT MULE_EVT_EN m

/-- The Goose sources 398 to 413 (R428, R467). -/
def gooseSource (s : State) (i : Nat) : Bool :=
  if i < 8 then evtMask s GOOSE_EVT GOOSE_EVT_EN (bitw i)
  else if i < 11 then evtMask s GOOSE_ST_EVT GOOSE_ST_EVT_EN (bitw (i - 8))
  else false

/-- The mailbox sources 414 to 421 (R388). -/
def mailboxSource (s : State) (i : Nat) : Bool :=
  let c := i / 2
  if i % 2 = 0 then rdBit s (MBX_STAT c) 1 && rdBit s (MBX_EN c) 0
  else !rdBit s (MBX_STAT c) 0 && rdBit s (MBX_EN c) 1

/-- The software-triggered sources 438 to 496 (R394). -/
def softSource (s : State) (i : Nat) : Bool := rdBit s (IRQ_SWI_SET (i / 32)) (i % 32)

/-- Whether any ORPHAN bit is set (R403). -/
def anyOrphan (s : State) : Bool := (List.range 16).any (fun w => rd s (IRQ_ORPHAN w) != 0)

/-- The level of a source (R393). -/
def sourceLevel (s : State) (i : Nat) : Bool :=
  if i < 256 then groupHeld s i
  else if i < 304 then laneSource s (i - 256)
  else if i < 314 then evtHeld s (OX_EVT (i - 304)) (OX_EVT_EN (i - 304))
  else if i < 330 then channelSource s (i - 314)
  else if i < 346 then evtHeld s (CL_EVT (i - 330)) (CL_EVT_EN (i - 330))
  else if i < 350 then evtHeld s (DU_EVT (i - 346)) (DU_EVT_EN (i - 346))
  else if i < 358 then audioSource s (i - 350)
  else if i < 374 then timeSource s (i - 358)
  else if i < 382 then calSource s (i - 374)
  else if i < 390 then evtHeld s (CK_EVT (i - 382)) (CK_EVT_EN (i - 382))
  else if i < 398 then muleSource s (i - 390)
  else if i < 414 then gooseSource s (i - 398)
  else if i < 422 then mailboxSource s (i - 414)
  else if i < 426 then evtMask s CAL_PWR_EVT CAL_PWR_EVT_EN (bitw (i - 422))
  else if i < 430 then false
  else if i = 430 then evtHeld s DPO_EVT DPO_EVT_EN
  else if i = 431 then (mosaicScalers s).any (fun j => evtHeld s (SCL_EVT j) (SCL_EVT_EN j))
  else if i < 438 then false
  else if i < 497 then softSource s (i - 438)
  else if i = 497 then anyOrphan s
  else if i = 498 then evtHeld s IMG_EVT IMG_EVT_EN
  else s.fatal

end Sys2Proof.Machine
end

