-- ==== Sys2Proof/Machine/Irq.lean ====
section
/-!
DEFINITION. The interrupt controller: evaluation and delivery, claims and ends, software requests, target states
(spec/15_interrupts.md).
-/
namespace Sys2Proof.Machine

/-- The source that names no source. -/
def noSource : Nat := 0x1FF

/-- PRIO of a source (R408). -/
def srcPrio (s : State) (i : Nat) : Nat := rdFld s (IRQ_SRC_CFG i) 15 8
/-- TARGET of a source (R408). -/
def srcTarget (s : State) (i : Nat) : Nat := rdFld s (IRQ_SRC_CFG i) 2 0
/-- ENABLE of a source. -/
def srcEnabled (s : State) (i : Nat) : Bool := rdBit s (IRQ_ENABLE (i / 32)) (i % 32)

/-- Whether a source is active at a target. -/
def activeAt (s : State) (i t : Nat) : Bool := s.active.any (fun a => a.1 = i && a.2.1 = t)
/-- Whether a source is active at any target. -/
def activeAny (s : State) (i : Nat) : Bool := s.active.any (fun a => a.1 = i)

/-- The targets a source may use: source 497 both SC[0] and HG[0], any other the one its TARGET names (R396, R403). -/
def mayUse (s : State) (i : Nat) : List Nat := if i = 497 then [0, 4] else [srcTarget s i]

/-- Whether a source pends: requested, enabled, and not active (R396, R404). -/
def pends (s : State) (i : Nat) (req : Bool) : Bool :=
  req && srcEnabled s i && (if i = 497 then !(activeAt s i 0 && activeAt s i 4) else !activeAny s i)

/-- Whether a host target is held: D3hot, or D0 with Bus Master Enable clear (R401). -/
def tgtHeld (s : State) (t : Nat) : Bool := 4 ≤ t && hostHeld s

/-- Whether a target is available (R403). -/
def available (s : State) (t : Nat) : Bool :=
  rdBit s (TGT_CTL t) 0 &&
  (if t < 4 then !s.downCores.getLsbD t else tgtHeld s t || s.msixEn)

/-- RUNNING of a target: the least group among the priorities recorded for the sources active at it (R397). -/
def running (s : State) (t : Nat) : Nat :=
  let bp := rdFld s (TGT_CTL t) 6 4
  (s.active.filter (fun a => a.2.1 = t)).foldl (fun m a => min m (a.2.2 >>> bp)) 0x100

/-- TGT_STAT.STATE (R408). -/
def tgtState (s : State) (t : Nat) : Nat :=
  if t < 4 && s.downCores.getLsbD t then 3
  else if !available s t then 0
  else if t < 4 && s.waitCores.getLsbD t then 2
  else 1

/-- Show RUNNING and TGT_STAT of a target (R407, R408). -/
def showTarget (s : State) (t : Nat) : State :=
  let k := (s.active.filter (fun a => a.2.1 = t)).length
  let s := wr s (TGT_RUNNING t) (mkWord [(8, 0, running s t), (24, 16, k)])
  let sig := t < 4 && rdFld s (TGT_HIGHEST t) 8 0 != noSource
  wr s (TGT_STAT t) (mkWord [(1, 0, tgtState s t), (2, 2, b2n (tgtHeld s t)), (3, 3, b2n sig)])

/-- Show ACTIVE of every source, and every target. -/
def showTargets (s : State) : State :=
  let s := forEach (List.range 16) s (fun w s =>
    wr s (IRQ_ACTIVE w) (wordOf ((List.range 32).foldl (fun m b => if activeAny s (32 * w + b) then m + 2 ^ b else m) 0)))
  forEach (List.range 8) s (fun t s => showTarget s t)

/-- The better of two candidates: least priority, then least number (R396, R397). -/
def better (s : State) (a b : Nat) : Nat :=
  if srcPrio s b < srcPrio s a then b else if srcPrio s a < srcPrio s b then a else min a b

/-- The winner for a target among the pending sources (R396). -/
def winner (s : State) (t : Nat) (pend : List Nat) : Option Nat :=
  (pend.filter (fun i => (mayUse s i).contains t && !activeAt s i t && srcPrio s i < rdFld s (TGT_PMR t) 8 0)).foldl
    (fun w i => some (match w with | none => i | some a => better s a i)) none

/-- The identity of the PCIe function, the sizes of its BARs in bytes and the entries of its MSI-X table (R364). -/
structure PcieFunction where
  vendor : BitVec 16
  device : BitVec 16
  revision : BitVec 8
  classCode : BitVec 24
  bars : List (Nat × Nat)
  msixVectors : Nat
  deriving DecidableEq, Repr

/-- The function of the host port (R364). -/
def pcieFunction : PcieFunction :=
  { vendor := 0x1EB7, device := 0x9640, revision := 0xB1, classCode := 0x048000, bars := [(0, 2 ^ 25), (2, 2 ^ 18), (4, 2 ^ 16)], msixVectors := 2048 }

/-- The MSI-X vector of a source at a host group (R384, R400). -/
def vectorOf (s : State) (h i : Nat) : Nat :=
  let base := rdFld s (HOST_HG_VEC h) 10 0
  let cnt := max 1 (rdFld s (HOST_HG_VEC h) 27 16)
  (base + i % cnt) % pcieFunction.msixVectors

/-- An entry of the MSI-X table: after a reset of the function every vector is masked, with address and data 0 (PRESUMED from the PCI
Express specification, log entry 68). -/
def msixEntry (s : State) (v : Nat) : MsixEntry := (mget s.msixTable v).getD { addr := 0, data := 0, masked := true }

/-- The message of a vector is due: it is written to the host, or where the function or the vector is masked its bit of the PBA is set
(R364, R384, R400; the masking is the PCI Express specification's, log entry 68). -/
def sendMsix (s : State) (v : Nat) : State :=
  let x := msixEntry s v
  if s.funcMask || x.masked then { s with pba := v :: s.pba.filter (fun w => w ≠ v) }
  else emit (leaveL1 s) (.msix v x.addr posted x.data)

/-- The messages that wait in the PBA are written as soon as their vectors are not masked, the lower vector first (log entry 68). -/
def sendWaiting (s : State) : State :=
  let due := sortNat (s.pba.filter (fun v => !s.funcMask && !(msixEntry s v).masked))
  forEach due { s with pba := s.pba.filter (fun v => !due.contains v) } (fun v s => sendMsix s v)

/-- A source becomes active at a target with the priority it has now (R397). -/
def activate (s : State) (i t : Nat) : State :=
  bump { s with active := s.active ++ [(i, t, srcPrio s i)] } (TGT_DELIV_CNT t)

/-- Signal or deliver the winner of one target (R396, R399, R400, R401). -/
def evalTarget (s : State) (t : Nat) (pend : List Nat) : State :=
  if !available s t then onlyIf (decide (t < 4)) s (fun s => wr s (TGT_HIGHEST t) (wordOf noSource))
  else
    let w := winner s t pend
    if t < 4 then
      match w with
      | some i =>
        if srcPrio s i >>> rdFld s (TGT_CTL t) 6 4 < running s t then
          let s := wr s (TGT_HIGHEST t) (wordOf i)
          if s.waitCores.getLsbD t then
            emit { s with waitCores := s.waitCores &&& ~~~(BitVec.ofNat 4 (2 ^ t)) } (.wake t)
          else s
        else wr s (TGT_HIGHEST t) (wordOf noSource)
      | none => wr s (TGT_HIGHEST t) (wordOf noSource)
    else
      match w with
      | none => s
      | some i =>
        if tgtHeld s t then pmeWake s
        else sendMsix (activate s i t) (vectorOf s (t - 4) i)

/-- Set the ORPHAN bit of a pending source whose target is unavailable; its first setting is counted (R403). -/
def markOrphan (s : State) (i : Nat) : State :=
  if i != 497 && !available s (srcTarget s i) then
    if rdBit s (IRQ_ORPHAN (i / 32)) (i % 32) then s
    else wrBit (count s IRQ_ORPHAN_CNT) (IRQ_ORPHAN (i / 32)) (i % 32) true
  else s

/-- A bit map of the sources that a list names, as sixteen words. -/
def sourceWords (l : List Nat) (w : Nat) : Word :=
  wordOf ((List.range 32).foldl (fun m b => if l.contains (32 * w + b) then m + 2 ^ b else m) 0)

/-- One evaluation (R396). -/
def evaluate (s : State) : State :=
  let req := (List.range 500).filter (sourceLevel s)
  let pend := req.filter (fun i => pends s i true)
  let s := bump s IRQ_EVAL_CNT
  let s := forEach (List.range 16) s (fun w s => wr (wr s (IRQ_REQ w) (sourceWords req w)) (IRQ_PEND w) (sourceWords pend w))
  let s := forEach pend s (fun i s => markOrphan s i)
  let s := forEach (List.range 8) s (fun t s => evalTarget s t pend)
  showTargets s

/-- A full image sets TARGET and PRIO of every source; the targets of source 497 are fixed, so it takes PRIO alone (R395, R408). -/
def loadSources (s : State) (cfg : List (Nat × Nat × Nat)) : State :=
  forEach (List.range 500) s (fun i s =>
    match cfg.find? (fun x => x.1 = i) with
    | some x => wr s (IRQ_SRC_CFG i) (mkWord [(2, 0, if i = 497 then 0 else x.2.1), (15, 8, x.2.2), (16, 16, b2n (i = 497))])
    | none => wr s (IRQ_SRC_CFG i) (IRQ_SRC_CFG i).reset)

/-! ### The commands -/

/-- IRQ_EVALUATION (R396): every 16 ns the controller evaluates. -/
def execIrqEvaluation (s : State) : Host.Outcome State Fault Refusal := act true s evaluate

/-- CLAIM (R399): a read of CLAIM takes the signalled source; nothing signalled reads 0x1FF and is counted. A host target
reads 0x1FF and changes nothing (R400). -/
def execClaim (m : Master) (t : Nat) (s : State) : Host.Outcome State Fault Refusal :=
  act (t < 8) s (fun s =>
    if 4 ≤ t then emit s (.read m (wordOf noSource))
    else
      let i := rdFld s (TGT_HIGHEST t) 8 0
      if i = noSource then emit (count s IRQ_SPUR_CNT) (.read m (wordOf noSource))
      else emit (showTargets (wr (activate s i t) (TGT_HIGHEST t) (wordOf noSource))) (.read m (wordOf i)))

/-- EOI (R399): ends the active state of a source at the target, or is counted where it is not active there. -/
def execEoi (t : Nat) (i : BitVec 9) (s : State) : Host.Outcome State Fault Refusal :=
  act (t < 8) s (fun s =>
    if activeAt s i.toNat t then
      showTargets { s with active := s.active.filter (fun a => !(a.1 = i.toNat && a.2.1 = t)) }
    else count s IRQ_EOI_ERR)

/-- The SWI bits of a word: word 1 has 27 (R394, R406). -/
def swiMask (w : Nat) : Word := if w = 0 then 0xFFFFFFFF else 0x07FFFFFF

/-- Both SWI registers of a word read the same bits (R394). -/
def putSwi (s : State) (w : Nat) (v : Word) : State := wr (wr s (IRQ_SWI_SET w) v) (IRQ_SWI_CLR w) v

/-- SWI_SET (R394): the bits written 1 are set. -/
def execSwiSet (w : Nat) (v : Word) (s : State) : Host.Outcome State Fault Refusal :=
  act (w < 2) s (fun s => putSwi s w (rd s (IRQ_SWI_SET w) ||| (v &&& swiMask w)))

/-- SWI_CLR (R394): the bits written 1 are cleared. -/
def execSwiClr (w : Nat) (v : Word) (s : State) : Host.Outcome State Fault Refusal :=
  act (w < 2) s (fun s => putSwi s w (rd s (IRQ_SWI_SET w) &&& ~~~(v &&& swiMask w)))

/-- CORE_WAIT (R399): a steward core enters its wait state. -/
def execCoreWait (c : Nat) (s : State) : Host.Outcome State Fault Refusal :=
  act (c < 4) s (fun s => showTarget { s with waitCores := s.waitCores ||| BitVec.ofNat 4 (2 ^ c) } c)

end Sys2Proof.Machine
end

