-- ==== Sys2Proof/Machine/Scte.lean ====
section
/-!
DEFINITION. A splice_info_section: what R283 refuses and how R284 rewrites it. The layout is SCTE 35's, which the manual
names and does not restate: PRESUMED (log entry 13). A caption distribution packet is SMPTE ST 334-2's.
-/
namespace Sys2Proof.Machine

/-- The CRC_32 of MPEG-2 sections. -/
def crcMpeg (bs : List Byte) : Word := bs.foldl (crcByteF 32 0x04C11DB7) 0xFFFFFFFF

/-- A byte of a section as a number. -/
def byteOf (bs : List Byte) (i : Nat) : Nat := (bs.getD i 0).toNat

/-- Bit `i` of a byte of a section. -/
def bitOf (bs : List Byte) (i k : Nat) : Bool := byteOf bs i / 2 ^ k % 2 = 1

/-- splice_command_type. -/
def spliceType (sec : List Byte) : Nat := byteOf sec 13

/-- The bytes of the splice_time at an offset. -/
def spliceTimeLen (sec : List Byte) (i : Nat) : Nat := if bitOf sec i 7 then 5 else 1

/-- The bytes that a command's own fields take: of a time_signal, of a splice_insert for the whole program or that cancels; of any other as
many as splice_command_length says, none where it says nothing. -/
def commandBytes (sec : List Byte) : Nat :=
  let given := byteOf sec 11 % 16 * 256 + byteOf sec 12
  if spliceType sec = 6 then spliceTimeLen sec 14
  else if spliceType sec = 5 && bitOf sec 18 7 then 5
  else if spliceType sec = 5 && bitOf sec 19 6 then
    10 + (if bitOf sec 19 4 then 0 else spliceTimeLen sec 20) + (if bitOf sec 19 5 then 5 else 0)
  else if given = 0xFFF then 0 else given

/-- Whether a command and the descriptors behind it fit a section: splice_command_length holds the command's fields where it is given, and
descriptor_loop_length ends before CRC_32. -/
def spliceFits (sec : List Byte) : Bool :=
  let given := byteOf sec 11 % 16 * 256 + byteOf sec 12
  let len := if given = 0xFFF then commandBytes sec else given
  commandBytes sec ≤ len && 14 + len + 6 ≤ sec.length &&
    14 + len + 2 + (byteOf sec (14 + len) * 256 + byteOf sec (15 + len)) + 4 ≤ sec.length

/-- Whether a section is malformed: its table, its lengths or CRC_32 (R283). The lengths of an encrypted one cannot be read. -/
def spliceMalformed (sec : List Byte) : Bool :=
  byteOf sec 0 ≠ 0xFC || 3 + (byteOf sec 1 % 16 * 256 + byteOf sec 2) ≠ sec.length || sec.length < 20 || crcMpeg sec ≠ 0 ||
    !(bitOf sec 4 7 || spliceFits sec)

/-- encrypted_packet. -/
def spliceEncrypted (sec : List Byte) : Bool := bitOf sec 4 7

/-- splice_immediate_flag of a splice_insert. -/
def spliceImmediate (sec : List Byte) : Bool := spliceType sec = 5 && bitOf sec 19 4

/-- Whether the command is one R283 accepts: time_signal, or a splice_insert for the whole program that cancels nothing. -/
def spliceKindOk (sec : List Byte) : Bool :=
  spliceType sec = 6 || (spliceType sec = 5 && !bitOf sec 18 7 && bitOf sec 19 6)

/-- splice_time with time_specified_flag 1. -/
def spliceTime (pts : Nat) : List Byte := beBytes 5 (0xFE * 2 ^ 32 + pts % 2 ^ 33)

/-- The section as it is carried: no immediate flag, the time specified, pts_adjustment 0, CRC_32 recomputed (R284). -/
def rewriteSplice (sec : List Byte) (pts : Nat) : List Byte :=
  let insert := spliceType sec = 5
  let at_ := if insert then 20 else 14
  let old := if insert && spliceImmediate sec then 0 else spliceTimeLen sec at_
  let front := if insert then (sec.drop 14).take 5 ++ leBytes 1 (byteOf sec 19 - 16 * b2n (bitOf sec 19 4)) else []
  let tail := (sec.drop (at_ + old)).take (sec.length - 4 - (at_ + old))
  let len := sec.length + 5 - old - 3
  let cl := byteOf sec 11 % 16 * 256 + byteOf sec 12
  let cl' := if cl = 0xFFF then 0xFFF else cl + 5 - old
  let body := [sec.getD 0 0] ++ leBytes 1 (byteOf sec 1 / 16 * 16 + len / 256) ++ leBytes 1 (len % 256) ++ [sec.getD 3 0] ++
    leBytes 1 (byteOf sec 4 - byteOf sec 4 % 2) ++ zeros 4 ++ (sec.drop 9).take 2 ++
    leBytes 1 (byteOf sec 11 / 16 * 16 + cl' / 256) ++ leBytes 1 (cl' % 256) ++ [sec.getD 13 0] ++ front ++ spliceTime pts ++ tail
  body ++ beBytes 4 (crcMpeg body).toNat

/-! ### Caption distribution packets (R286) -/

/-- Whether a CDP is whole: its identifier, its length, and the checksum that makes its bytes sum to 0 (SMPTE ST 334-2, which the manual names
and does not restate: PRESUMED, log entry 13). -/
def cdpGood (b : List Byte) : Bool :=
  byteOf b 0 = 0x96 && byteOf b 1 = 0x69 && byteOf b 2 = b.length && (b.foldl (fun a x => a + x.toNat) 0) % 256 = 0

/-- The cc_data triplets of a CDP: behind its header and, where it has one, its time code section. -/
def cdpTriplets (b : List Byte) : List (BitVec 24) :=
  let at_ := if bitOf b 4 7 then 12 else 7
  if bitOf b 4 6 && byteOf b at_ = 0x72 then
    (List.range (byteOf b (at_ + 1) % 32)).map (fun i =>
      let o := at_ + 2 + 3 * i
      BitVec.ofNat 24 (byteOf b o + 256 * byteOf b (o + 1) + 65536 * byteOf b (o + 2)))
  else []

end Sys2Proof.Machine
end

