-- ==== Sys2Proof/Machine/Pipe.lean ====
section
/-!
DEFINITION. The commands of the channel pipes up to the frame start (spec/03_channel_time_budget.md,
spec/04_analysis_and_ladders.md): input packets, the latch, the cut-off, the field, the governor's decision, the frame
start, and the commands that bind to a frame.
-/
namespace Sys2Proof.Machine

/-- Whether the image defines a channel. -/
def chanDefined (s : State) (n : Nat) : Bool := rdBit s (CH_STAT n) 0

/-! ### VIDEO_PACKET_RX (R77, R78, R81, R82, R489) -/

/-- A received ST 2110-20 packet. A channel fed by a contribution slot takes none (R186). -/
def videoPacket (s : State) (n : Nat) (v : VideoPacket) : State :=
  let capture := rtpTime s v.ts
  match (chan s n).plan with
  | none => sourceBegins s n capture
  | some p =>
    if p.slot.isSome then s
    else
      let good := v.srds.filter (runInside p)
      let s := if good.length = v.srds.length then s else count s (CH_IN_BAD_SRD n)
      receiveSource s n p capture good none (fun s => count s (CH_IN_LATE_PKT n))

/-- VIDEO_PACKET_RX. -/
def execVideoPacketRx (n : Nat) (p : VideoPacket) (s : State) : Host.Outcome State Fault Refusal :=
  act (n < 16) s (fun s => videoPacket s n p)

/-! ### RWF_LATCH (R79, R84, R121, R147, R227, R284, R286, R376) -/

/-- Whether a scaler output's configuration keeps the line-buffer rule (R226). -/
def lineBufferOk (s : State) (j o : Nat) (v : Word) : Bool :=
  let t := fld v 11 8
  (t = 4 || t = 6 || t = 8) && t * rdFld s (OUT_SRC j o) 15 0 ≤ 49152

/-- Check the pending OUT_CTL of every output of a channel; a refused one reads what is in force (R227). Answers whether any
was refused. -/
def checkLineBuffers (s : State) (n : Nat) : State × Bool :=
  (channelOutputs s n).foldl (fun (x : State × Bool) jo =>
    let s := x.1
    let r := OUT_CTL jo.1 jo.2
    let s := wrBit s (OUT_STAT jo.1 jo.2) 0 false
    let v := (latchValue s n r).filter (fun _ => (chan s n).dirty.contains r.addr)
    if v.any (fun v => !lineBufferOk s jo.1 jo.2 v) then
      let s :=
        if (chan s n).lateAt r.addr then
          modChan s n (fun c => { c with late := c.late.map (fun x => if x.1 = r.addr then (x.1, none) else x) })
        else modChan (dropPending s r.addr) n (fun c => { c with dirty := c.dirty.filter (fun a => a ≠ r.addr) })
      let s := wrBit s (OUT_STAT jo.1 jo.2) 0 true
      (setEvt (count s (SCL_LB_REJ jo.1)) (SCL_EVT jo.1) 0, true)
    else (s, x.2)) (s, false)

/-- Latch the pending set of a channel: each register as it was at the latch instant; what was written since stays pending (R13). -/
def latchSet (s : State) (n : Nat) : State × WordMap × Bool :=
  let (s, refused) := checkLineBuffers s n
  let set := (chan s n).dirty.foldl (fun m a => match latchValue s n (regAt a) with
    | some v => mput m a (v &&& rwfMask a)
    | none => m) []
  (modChan s n (fun c => { c with dirty := c.dirty.filter (fun a => c.lateAt a) }), set, refused || !set.isEmpty)

/-- The first grid point at or after `i` whose time is at or after a target (R284). -/
def pointAfter (g : Grid) (i : Nat) (t : Int) : Nat :=
  let x := g.j0 + ((t - g.g0) * g.den / max 1 g.num).toNat
  ([i, max i (x - 1), max i x, max i (x + 1), max i (x + 2)].find? (fun y => t ≤ gAt g y)).getD (max i (x + 2))

/-- The 90 kHz count of a corrected time (R272). -/
def count90k (t : Int) : Nat := ((t * 90000).fdiv 1000000000).toNat

/-- PTS of the frame at a grid point under a plan (R271, R272). -/
def ptsAt (p : ChannelPlan) (g : Grid) (i : Nat) : Nat :=
  let d : Int := ((((p.delay + 1) * g.num + max 1 g.den - 1) / max 1 g.den : Nat) : Int) + 1500000 + p.hold
  count90k (gAt g i + d) % 2 ^ 33

/-- Bind one command to frame `k` at grid point `j` with the channel's next number (R121, R147, R284, R286, R376). -/
def bindOne (n j k : Nat) (g : Grid) (p : ChannelPlan) (x : State × Bound) (c : PendCmd) : State × Bound :=
  let s := x.1
  let b := x.2
  let seq := (chan s n).cmdNext
  let s := modChan s n (fun c => { c with cmdNext := c.cmdNext + 1 })
  let s := finish s c.q c.slot 0x00 (bindResult k seq)
  let b := { b with cmdCount := b.cmdCount + 1, cmdBytes := b.cmdBytes ++ c.payload }
  match c.kind with
  | .roi rects => (count (modChan s n (fun c => { c with rects := rects, roiSeq := seq })) (CH_ROI_CMDS n), b)
  | .grain clear seed ps => (modChan s n (fun c => { c with grain := if clear then none else some (seed, ps) }), b)
  | .splice sec imm =>
    let at_ := if imm || c.target = 0 then j else pointAfter g j c.target
    let s := modChan s n (fun c => { c with splices := c.splices ++ [at_] })
    let s := onlyIf (c.target ≠ 0 && c.target < gAt g j) s (fun s =>
      setEvt (count s EGR_SPLICE_LATE) (EGR_CH_EVT n) 4)
    (setEvt s (EGR_CH_EVT n) 3, { b with sections := b.sections ++ [rewriteSplice sec (ptsAt p g at_)] })
  | .caption ts =>
    let room := 31 - b.triplets.length
    let lost := ts.length - room
    let s := onlyIf (lost != 0) s (fun s => setEvt (countBy s EGR_CAP_TRUNC lost) (EGR_CH_EVT n) 6)
    (s, { b with triplets := b.triplets ++ ts.take room })

/-- Whether a waiting command binds to the frame at a grid point: a splice at once, the others once TARGET has come (R121,
R284). -/
def bindsAt (g : Grid) (j : Nat) (c : PendCmd) : Bool :=
  match c.kind with
  | .splice _ _ => true
  | _ => (BitVec.ofInt 64 (c.target - gAt g j)).toInt ≤ 0

/-- At the latch instant of grid point `j` the commands for it bind in acceptance order (R376). -/
def bindCommands (s : State) (n j k : Nat) (g : Grid) (p : ChannelPlan) (set : WordMap) (counts : Bool) : State × Bound :=
  let c := chan s n
  let b0 : Bound := { set := set, counts := counts, cmdFirst := c.cmdNext, cmdCount := 0, cmdBytes := [], sections := []
                      triplets := [] }
  let binds (x : PendCmd) : Bool := !x.late && bindsAt g j x
  let now := c.cmds.filter binds
  let s := modChan s n (fun c => { c with cmds := c.cmds.filter (fun x => !binds x) })
  now.foldl (bindOne n j k g p) (s, b0)

/-- A latch at which nothing is taken. -/
def emptyBound (c : Chan) : Bound :=
  { set := [], counts := false, cmdFirst := c.cmdNext, cmdCount := 0, cmdBytes := [], sections := [], triplets := [] }

/-- HOLD_SEEN of a channel. -/
def holdSeen (s : State) (n : Nat) (b : Bool) : State := wrBit s (CH_STAT n) 3 b

/-- A standby holds no re-plan with the measurement named for this boundary (R445). -/
def missesNamed (s : State) (n : Nat) : Bool :=
  let c := chan s n
  role s = 2 && (match c.named.find? (fun x => x.2 = c.k) with
    | none => false
    | some x => match c.pend with
      | none => true
      | some p => p.late || p.info.meas ≠ x.1)

/-- Whether the pending re-plan is taken at this latch: a standby takes it only at the boundary the Bellwether names (R63,
R445). -/
def takesReplan (s : State) (n : Nat) : Bool :=
  let c := chan s n
  match c.pend with
  | none => false
  | some p => !p.latched && !p.late && (role s ≠ 2 || c.named.any (fun x => x.2 = c.k && x.1 = p.info.meas))

/-- A dump armed before this latch takes the frame of this boundary; one armed at or after the latch instant discards the request before it
and waits for the next latch (R111). -/
def takeDump (s : State) (n j k : Nat) : State :=
  if rdBit s (CH_DUMP_CTL n) 0 && !(chan s n).lateAt (CH_DUMP_CTL n).addr && (chan s n).dumpFrame.isNone then
    modChan s n (fun c => { c with dumpFrame := some (j, k) })
  else s

/-- What a latch takes for the next boundary of a channel. In the pause of a RESTART re-plan, and on a channel that has stopped, it
takes nothing and HOLD defers nothing (DESIGN CHOICE, log entry 62: R84 does not speak of the pause). -/
def latchTakes (s : State) (n : Nat) (g : Grid) : State :=
  let c := chan s n
  if c.stopped then modChan s n (fun c => { c with bound := some (emptyBound c) })
  else match c.gap with
  | some until_ =>
    let s := if until_ ≤ boundaryAt g c.j && c.pend.isSome then holdSeen (discardAtLatch s n) n false else s
    modChan s n (fun c => { c with bound := some (emptyBound c) })
  | none =>
    let s := if missesNamed s n then diverge s n 0x7 else s
    if takesReplan s n then
      let s := holdSeen (discardAtLatch s n) n false
      match c.pend with
      | none => s
      | some p =>
        let s := modChan s n (fun c => { c with pend := some { p with latched := true } })
        if p.info.restart then modChan s n (fun c => { c with bound := some (emptyBound c) })
        else
          let s := modChan s n (fun c => { c with rects := [], roiSeq := 0xFFFFFFFF, grain := none })
          let s := takeDump s n c.j 0
          let (s, b) := bindCommands s n c.j 0 g p.plan [] true
          modChan s n (fun c => { c with bound := some b })
    else
      let plan := c.plan
      let s := takeDump s n c.j c.k
      let held := tbit (wordAtLatch s n (CH_COMMIT n)) 0
      let (s, set, counts) :=
        if held then
          (setEvt (holdSeen (count s (CH_HOLD_DEFER n)) n true) (CH_EVT n) 2, ([] : WordMap), false)
        else latchSet (holdSeen s n false) n
      match plan with
      | none => s
      | some p =>
        let (s, b) := bindCommands s n c.j c.k g p set counts
        modChan s n (fun c => { c with bound := some b })

/-- The latch of the next boundary of a channel. -/
def latchFrame (s : State) (n : Nat) (g : Grid) : State := latchCarried (latchTakes s n g) n

/-- RWF_LATCH: acts at B - 100 µs of the next boundary. -/
def execRwfLatch (n : Nat) (s : State) : Host.Outcome State Fault Refusal :=
  act (n < 16) s (fun s =>
    let c := chan s n
    match c.grid with
    | none => s
    | some g => if c.bound.isNone && reached s (latchAt g c.j) then latchFrame s n g else s)

/-! ### INPUT_CUTOFF (R78, R81, R192, R286, R331) -/

/-- The caption triplets kept for a frame, at most 31 (R286). -/
def keepTriplets (s : State) (n : Nat) (ts : List (BitVec 24)) : State × List (BitVec 24) :=
  let lost := ts.length - 31
  (onlyIf (lost != 0) s (fun s => setEvt (countBy s EGR_CAP_TRUNC lost) (EGR_CH_EVT n) 6), ts.take 31)

/-- The input of a frame is closed with a picture. -/
def closeInput (s : State) (n : Nat) (f : FrameSt) (p : Picture) (subst part : Bool) : State :=
  let s := onlyIf subst s (fun s => count s (CH_IN_REPEAT n))
  let s := onlyIf part s (fun s => count s (CH_IN_PARTIAL n))
  let s := onlyIf (subst || part) s (fun s => setEvt s (CH_EVT n) 1)
  let s := modChan s n (fun c => { c with lastInput := some p })
  modFrame s n f.j (fun f => { f with
    closed := true
    substituted := subst
    partialIn := part
    input := some p
    inputCrc := inputCrcOf p })

/-- The source frame of a window that ranks first: the least capture time. -/
def firstSource : List SourceFrame → Option SourceFrame
  | [] => none
  | x :: xs =>
    match firstSource xs with
    | none => some x
    | some y => if y.capture < x.capture then some y else some x

/-- The capture times in a frame's window of the pictures that have begun to arrive in the channel's slot and are not decoded (R192). -/
def begunInSlot (s : State) (p : ChannelPlan) (f : FrameSt) : List Int :=
  match p.slot with
  | none => []
  | some sl =>
    let x := slotOf s sl.du sl.slot
    if x.gotRap then (x.ring.map (auCapture s sl.du sl.slot)).filter (fun c => inWindow f.grid f.j c && !x.seen.contains c) else []

/-- A plane that a slot has written in part: inside the regions its samples, elsewhere the previous input's; `sx` is the horizontal
subsampling (R81, R192). -/
def partlyWritten (sx : Nat) (regions : List (Nat × Nat × Nat × Nat)) (got prev : Plane) : Plane :=
  { prev with px := prev.px.zipIdx.map (fun v =>
      let x := v.2 % max 1 prev.w * sx
      let y := v.2 / max 1 prev.w
      if regions.any (fun r => r.1 ≤ x && x < r.1 + r.2.2.1 && r.2.1 ≤ y && y < r.2.1 + r.2.2.2) then got.px.getD v.2 0 else v.1) }

/-- What a slot has written of the picture with a capture time that it is decoding: nothing of one behind the oldest of its ring (R192). -/
def slotSamples (s : State) (p : ChannelPlan) (c : Int) : Option Picture :=
  p.slot.bind (fun sl =>
    ((slotOf s sl.du sl.slot).ring.head?.filter (fun a => auCapture s sl.du sl.slot a = c)).map (fun a =>
      samplesOf s sl.du sl.slot a (parsed s sl.du sl.slot a)))

/-- The input of a frame whose first source frame is a picture that was in decoding at the cut-off: partial, and counted by its slot; it has
the picture's samples where the slot had written them, the previous input's elsewhere (R192). -/
def closePartly (s : State) (n : Nat) (f : FrameSt) (prev : Picture) (got : Option Picture) (written : List (Nat × Nat × Nat × Nat)) :
    State :=
  let s := match f.plan.slot with
    | none => s
    | some sl => setEvt (count s (DS_LATE_PICS sl.du sl.slot)) (DU_EVT sl.du) 4
  let p := match got with
    | none => prev
    | some g => { y := partlyWritten 1 written g.y prev.y, cb := partlyWritten 2 written g.cb prev.cb
                  cr := partlyWritten 2 written g.cr prev.cr }
  closeInput s n f p false true

/-- The input of a frame closes: the first source frame of its window is bound, the others are discarded; without one a substitute; a picture
composed before stays (R78, R81, R192, R210). `written` is what the channel's slot had written at the cut-off of the picture it was decoding. -/
def cutOff (s : State) (n : Nat) (f : FrameSt) (written : List (Nat × Nat × Nat × Nat)) : State :=
  let c := chan s n
  let mine := c.sources.filter (fun x => inWindow f.grid f.j x.capture)
  let begun := begunInSlot s f.plan f
  let prev := inputBefore s n f.plan
  let slotGot := slotSamples s f.plan (begun.foldl min (begun.headD 0))
  let s := modChan s n (fun c => { c with sources := c.sources.filter (fun x => !inWindow f.grid f.j x.capture) })
  let s := countBy s (CH_IN_SKIP n) (mine.length + begun.length - 1)
  let s := match f.input, firstSource (mine.filter (fun x => begun.all (fun b => x.capture ≤ b))) with
    | some p, _ => closeInput s n f p false false
    | none, some x =>
      match x.full with
      | some p => if x.late then closePartly s n f prev (some p) written else closeInput s n f p false false
      | none =>
        let r := placeRuns prev x.srds
        closeInput s n f r.1 false r.2
    | none, none =>
      if !begun.isEmpty then closePartly s n f prev slotGot written
      else if f.fld (CH_INPUT_CTL n) 0 0 = 1 then closeInput s n f (blackPicture f.plan) true false
      else closeInput s n f prev true false
  let caps := ((c.cdps.filter (fun x => inWindow f.grid f.j x.1)).map (fun x => x.2.2)).flatten
  let s := modChan s n (fun c => { c with
    cdps := c.cdps.filter (fun x => !inWindow f.grid f.j x.1 && decide (gAt f.grid f.j < x.1)) })
  let s := if f.plan.capsFlow then
      let (s, ts) := keepTriplets s n caps
      modFrame s n f.j (fun f => { f with triplets := ts })
    else s
  forEach (flowsOf s n 1 ++ flowsOf s n 5) s (fun x s => closeFlow s x (fun ts =>
    inWindow f.grid f.j (rtpTime s ts) || decide (rtpTime s ts ≤ gAt f.grid f.j)))

/-- INPUT_CUTOFF: acts on the oldest frame whose input is open, at its cut-off. -/
def execInputCutoff (n : Nat) (written : List (Nat × Nat × Nat × Nat)) (s : State) :
    Host.Outcome State Fault Refusal :=
  act (n < 16) s (fun s =>
    match oldest s n (fun f => !f.closed) with
    | none => s
    | some f => if reached s (cutoffAt f.grid f.j) then cutOff s n f written else s)

/-! ### FIELD_COMPLETE and the field dump (R104 to R111) -/

/-- Whether every scout of a channel's clusters works: the field of a withdrawn scout's band never completes (R456). -/
def scoutsOk (s : State) (p : ChannelPlan) : Bool := p.clusters.all (fun c => rdFld s (CL_SCT_STAT c) 1 0 ≠ 3)

/-- The state of a channel's scouts: 2 while a frame waits for its field, else 1; a withdrawn scout stays withdrawn (R164). -/
def showScouts (s : State) (p : ChannelPlan) (busy : Bool) : State :=
  forEach p.clusters s (fun c s =>
    if rdFld s (CL_SCT_STAT c) 1 0 = 3 then s else wrFld s (CL_SCT_STAT c) 1 0 (if busy then 2 else 1))

/-- The deadline up to which the field of a frame is kept: T_{k+L+1} (R111). -/
def FrameSt.keepsField (f : FrameSt) : Int := gAt f.grid (f.j + 2 * f.plan.delay - 1) + 1100000

/-- The fields a channel keeps, without those whose deadline has passed; one that a dump copies stays until it is copied (R111). -/
def keptFields (s : State) (n : Nat) : List (Nat × Int × Field) :=
  (chan s n).fields.filter (fun x => !reached s x.2.1 || (chan s n).dumpFrame.any (fun d => d.1 = x.1))

/-- The counts of a frame's scene cut and fade (R117, R118). -/
def countCuts (s : State) (n : Nat) (fl : Field) : State :=
  let s := onlyIf fl.sceneCut s (fun s => count s (CH_SCENE_CNT n))
  onlyIf fl.fade s (fun s => count s (CH_FADE_CNT n))

/-- The analysis of a frame from the luma of its composed picture and of the composed pictures before it in the slice (R104). -/
def analysisOf (f : FrameSt) (n : Nat) (cur : Plane) (luma : Nat → Option (Plane × Nat)) : Field :=
  let ref (d : Nat) : Option (Plane × Nat) := if d ≤ f.k then luma (f.j - d) else none
  analyse f.k f.plan.clusters.length cur ((ref 1).map (fun x => x.1)) ((ref 2).map (fun x => x.1)) ((ref 4).map (fun x => x.1))
    ((ref 1).map (fun x => x.2)) ((ref 2).map (fun x => x.2)) (f.reg (CH_ANA_CTL n)) f.rects f.roiSeq

/-- The luma and the mean of a composed picture that the analysis keeps (R104). -/
def keptLuma (s : State) (n j : Nat) : Option (Plane × Nat) := ((chan s n).lumas.find? (fun x => x.1 = j)).map (fun x => x.2)

/-- The field of a frame is complete. A frame decided before that is counted now (R86). -/
def completeField (s : State) (n : Nat) (f : FrameSt) (cur : Plane) : State :=
  let fl := analysisOf f n cur (keptLuma s n)
  let s := modFrame s n f.j (fun f => { f with field := some fl })
  let s := modChan s n (fun c => { c with
    lumas := (f.j, cur, fl.mean) :: c.lumas.take 4
    fields := keptFields s n ++ [(f.j, f.keepsField, fl)] })
  let s := onlyIf f.decided s (fun s => countCuts s n fl)
  showScouts s f.plan ((chan s n).frames.any (fun f => f.field.isNone))

/-- FIELD_COMPLETE: the oldest composed frame without a field gets it. -/
def execFieldComplete (n : Nat) (s : State) : Host.Outcome State Fault Refusal :=
  act (n < 16) s (fun s =>
    match oldest s n (fun f => f.field.isNone) with
    | none => s
    | some f =>
      match f.composed with
      | none => s
      | some p => if scoutsOk s f.plan then completeField s n f p.y else s)

/-- FIELD_DUMP_DONE (R111): the copy of the dumped field ends, or stops on a DMA error; how much of it the host then holds is not
stated, and nothing is shown as written (DESIGN CHOICE, log entry 62). -/
def execFieldDumpDone (n : Nat) (dmaErr : Bool) (s : State) : Host.Outcome State Fault Refusal :=
  act (n < 16) s (fun s =>
    match (chan s n).dumpFrame with
    | none => s
    | some (j, k) =>
      let done (s : State) : State :=
        let s := modChan s n (fun c => { c with dumpFrame := none })
        let s := wr64 s (CH_DUMP_FRAME_LO n) (CH_DUMP_FRAME_HI n) k
        wrFld s (CH_DUMP_CTL n) 2 0 (2 + 4 * b2n dmaErr)
      match ((chan s n).fields.find? (fun x => x.1 = j)).map (fun x => x.2.2) with
      | none => s
      | some fl =>
        if dmaErr then done s
        else done (emit (leaveL1 s) (.hostWrite (rd64 s (CH_DUMP_ADDR_LO n) (CH_DUMP_ADDR_HI n)) (fieldBytes fl))))

/-! ### GOVERNOR_DECISION (R90, R117, R118, R441) -/

/-- Put a decision in the frame and in the channel: effort levels, IDR, counters (R90, R117, R118). -/
def applyDecision (s : State) (n : Nat) (f : FrameSt) (es : List (Nat × Nat)) (sUse sNew : Nat) (idr : Bool) (pos : Nat)
    (supp join : Bool) : State :=
  let sp := (chan s n).splices.contains f.j
  let s := onlyIf idr s (fun s => count s (CH_IDR_CNT n))
  let s := forSome f.field s (fun fl s => countCuts s n fl)
  let s := onlyIf supp s (fun s => count s (CH_IDR_SUPPR n))
  let s := wr s (CH_GOP_POS n) (wordOf pos)
  let layer := temporalLayer f.plan.tl pos
  let nr := !idr && isNonRef f.plan.tl layer
  let refs := if idr then [] else refsOf (chan s n).window layer
  let slots := (chan s n).avSlots
  let fresh := refreshOf (chan s n).window slots idr nr f.k
  let s := modChan s n (fun c => { c with
    pos := pos
    prevSeq := some (BitVec.ofNat 8 (f.fld (CH_IDR_REQ n) 7 0))
    prevE := es
    s := sNew
    splices := c.splices.filter (fun x => x ≠ f.j)
    window := nextWindow c.window idr nr f.k layer
    avSlots := fresh.2 })
  modFrame s n f.j (fun f => { f with
    decided := true
    splice := sp
    efforts := es
    sUse := sUse
    govS := sNew
    idr := idr
    joinIdr := join
    gopPos := pos
    layer := layer
    nonRef := nr
    refs := refs
    avSlots := slots
    refresh := fresh.1 })

/-- The Bellwether sends the TOKEN of a decided frame (R441). -/
def sendToken (s : State) (n j : Nat) : State :=
  if role s = 1 then
    match frameAt s n j with
    | none => s
    | some f => sendMule s 0x10 (BitVec.ofNat 8 n) (tokenBytes f n)
  else s

/-! ### FRAME_START (R85, R86, R127) -/

/-- Whether the composed picture, every scaled picture of the ladder and the field of a frame are complete (R85). -/
def FrameSt.prepared (f : FrameSt) : Bool :=
  f.composed.isSome && f.field.isSome && f.plan.outs.all (fun o => (mget f.scaled o.dst).isSome)

/-- The engines a channel's plan assigns: E (R103). -/
def planEngines (p : ChannelPlan) : Nat := 8 * p.clusters.length

/-- A column tile before it starts. -/
def newTile (col : Nat) : TileSt :=
  { col := col, phase := .waiting, avoid := none, cap := 0, soft := 0, row := 0, running := false, started := 0, ckpts := []
    used := 0, lrUsed := 0, qi := 0, quants := [], stop := none, reissued := false
    entropy := [], codes := [], bytes := [] }

/-- A picture of a rendition at the frame start. -/
def newPic (p : ChannelPlan) (r : RendPlan) (effort : Nat) : RendPic :=
  { id := r.id, effort := effort, decided := false, b := 0, a := 0, target := 0, qi := 0
    tiles := (List.range (tileCount (planEngines p) r)).map newTile
    edges := [], rescueFixed := false, rescue := none, stopFixed := false, stop := none, sized := false, bits := 0, filler := 0, parts := []
    packaged := false, launched := false, late := false, unitCrc := 0, unitSeq := 0, cpbNext := 0, alphaI := 0, alphaP := 0
    vbrE := 0 }

/-- The work list of a frame: every tile of every rendition, by priority and then by column (R127). -/
def workOf (f : FrameSt) (n : Nat) : List WorkItem :=
  (((byPriority f n).zipIdx).map (fun (r : RendPlan × Nat) =>
    (List.range (tileCount (planEngines f.plan) r.1)).map (fun c =>
      ({ j := f.j, rid := r.1.id, col := c, cls := 2, ord := r.2 } : WorkItem)))).flatten

/-- A frame starts. -/
def startFrame (s : State) (n : Nat) (f : FrameSt) : State :=
  let late := !f.prepared
  let s := onlyIf late s (fun s => setEvt (count s (CH_PREP_LATE n)) (CH_EVT n) 6)
  let s := forEach f.plan.rends s (fun r s => wrFld s (CH_REN_EFF n r.id) 2 0 (effortOf f.efforts r.id 0))
  let s := modChan s n (fun c => { c with work := c.work ++ workOf f n })
  modFrame s n f.j (fun f => { f with
    started := true
    preparedLate := late
    rends := f.plan.rends.map (fun r => newPic f.plan r (effortOf f.efforts r.id 0)) })

/-- FRAME_START: acts at S_k on the oldest decided frame that has not started; a standby's frame is decided by its token
(R442). -/
def execFrameStart (n : Nat) (s : State) : Host.Outcome State Fault Refusal :=
  act (n < 16) s (fun s =>
    match oldest s n (fun f => !f.started) with
    | none => s
    | some f => if f.decided && !(chan s n).dead && reached s f.start then startFrame s n f else s)

/-! ### ROI_UPDATE, FILM_GRAIN, CAPTION, ANC_PACKET_RX (R120, R286, R374) -/

/-- A binding command waits in its channel. -/
def addCmd (s : State) (n : Nat) (c : PendCmd) : State :=
  let late := latchDue s n
  modChan s n (fun x => { x with cmds := x.cmds ++ [{ c with late := late }] })

/-- The rectangles of an ROI payload: x0, y0, x1, y1, class (R120). -/
def roiRects (p : List Byte) : List (Nat × Nat × Nat × Nat × Nat) :=
  (List.range (leAt p 0 1)).map (fun i =>
    let o := 16 + 12 * i
    (leAt p o 2, leAt p (o + 2) 2, leAt p (o + 4) 2, leAt p (o + 6) 2, leAt p (o + 8) 1))

/-- Whether a rectangle is refused (R120). -/
def rectBad (w h : Nat) (r : Nat × Nat × Nat × Nat × Nat) : Bool :=
  r.2.2.1 ≤ r.1 || r.2.2.2.1 ≤ r.2.1 || w ≤ r.1 || h ≤ r.2.1 || 15 < r.2.2.2.2

/-- Refuse a binding command with a status (R378). -/
def refuseCmd (s : State) (q slot status : Nat) : State := finish s q slot status refusedResult

/-- ROI_UPDATE (R120, R121): the next command of a queue is an ROI update; the channel is the descriptor's. R120 gives its refusals no
order: COUNT comes first, then the channel, then the rectangles (DESIGN CHOICE, log entry 62). -/
def execRoiUpdate (q : Nat) (s : State) : Host.Outcome State Fault Refusal :=
  act (q < 32768) s (fun s => onCommand s q 0x02 (fun o p s =>
    let n := leAt o.desc 2 1
    let rs := roiRects p
    let w := ((chan s n).plan.map (fun p => p.width)).getD 0
    let h := ((chan s n).plan.map (fun p => p.height)).getD 0
    let refuse (st : Nat) : State := refuseCmd (count s (CH_ROI_REJ n)) q o.slot st
    if 64 < leAt p 0 1 then refuse 0x01
    else if !chanDefined s n then refuse 0x03
    else if rs.any (rectBad w h) then refuse 0x02
    else addCmd s n { late := false, q := q, slot := o.slot, target := leInt64 p 8, payload := p
                      kind := .roi (rs.map (fun r => (r.1, r.2.1, min r.2.2.1 w, min r.2.2.2.1 h, r.2.2.2.2))) }))

/-- A bit of a bitstream, the most significant of a byte first. -/
def streamBit (bs : List Byte) (i : Nat) : Bool := (bs.getD (i / 8) 0).getLsbD (7 - i % 8)
/-- An unsigned element f(n) of a bitstream. -/
def streamBits (bs : List Byte) (pos n : Nat) : Nat := (List.range n).foldl (fun a i => 2 * a + b2n (streamBit bs (pos + i))) 0

/-- The bits that film_grain_params() takes from num_y_points to clip_to_restricted_range in a 4:2:0 stream with colour: the elements and
their order are the AV1 specification's, which R374 names (PRESUMED, log entry 68). -/
def grainBits (bs : List Byte) : Nat :=
  let ny := streamBits bs 0 4
  let p := 4 + 16 * ny
  let fromLuma := streamBit bs p
  let noChroma := fromLuma || ny = 0
  let p := p + 1
  let ncb := if noChroma then 0 else streamBits bs p 4
  let p := if noChroma then p else p + 4 + 16 * ncb
  let ncr := if noChroma then 0 else streamBits bs p 4
  let p := if noChroma then p else p + 4 + 16 * ncr
  let lag := streamBits bs (p + 2) 2
  let luma := 2 * lag * (lag + 1)
  let chroma := if ny = 0 then luma else luma + 1
  let coeffs := (if ny = 0 then 0 else luma) + (if fromLuma || ncb ≠ 0 then chroma else 0) + (if fromLuma || ncr ≠ 0 then chroma else 0)
  p + 4 + 8 * coeffs + 4 + (if ncb ≠ 0 then 25 else 0) + (if ncr ≠ 0 then 25 else 0) + 2

/-- Whether PARAMS parses to exactly its bytes: the elements end in the last byte and the bits after them are 0 (R374). -/
def grainParses (bs : List Byte) : Bool :=
  (grainBits bs + 7) / 8 = bs.length &&
    (List.range (8 * bs.length - grainBits bs)).all (fun i => !streamBit bs (grainBits bs + i))

/-- FILM_GRAIN (R147, R374). -/
def execFilmGrain (q : Nat) (s : State) : Host.Outcome State Fault Refusal :=
  act (q < 32768) s (fun s => onCommand s q 0x03 (fun o p s =>
    let n := leAt o.desc 2 1
    let nb := leAt p 12 2
    let clear := leAt p 10 1 = 1
    let ok := chanDefined s n && ((chan s n).plan.map (fun x => x.rends.any (fun r => r.codec = 2 && r.filmGrain))).getD false
    if !ok then refuseCmd s q o.slot 0x01
    else if !clear && (nb = 0 || 256 < nb || !grainParses (padTo nb ((p.drop 16).take nb))) then refuseCmd s q o.slot 0x02
    else addCmd s n { late := false, q := q, slot := o.slot, target := leInt64 p 0, payload := p
                      kind := .grain clear (leAt p 8 2) ((p.drop 16).take nb) }))

/-- CAPTION (R286): the next command of a queue carries captions; a channel that takes a flow takes none from the host. -/
def execCaption (q : Nat) (s : State) : Host.Outcome State Fault Refusal :=
  act (q < 32768) s (fun s => onCommand s q 0x06 (fun o p s =>
    let n := leAt p 0 1
    let cnt := leAt p 1 1
    let flow := ((chan s n).plan.map (fun x => x.capsFlow)).getD false
    if 15 < n || !chanDefined s n || flow then refuseCmd s q o.slot 0x01
    else if cnt = 0 || 31 < cnt then refuseCmd s q o.slot 0x02
    else addCmd s n { late := false, q := q, slot := o.slot, target := leInt64 p 8, payload := p
                      kind := .caption ((List.range cnt).map (fun i => BitVec.ofNat 24 (leAt p (16 + 3 * i) 3))) }))

/-- The captions of a packet take their place among those received, in RTP sequence order (R286). -/
def insertCdp (x : Int × BitVec 16 × List (BitVec 24)) :
    List (Int × BitVec 16 × List (BitVec 24)) → List (Int × BitVec 16 × List (BitVec 24))
  | [] => [x]
  | y :: ys => if (x.2.1 - y.2.1).toInt < 0 then x :: y :: ys else y :: insertCdp x ys

/-- ANC_PACKET_RX (R286): ANC packets of the channel's ST 2110-40 flow, of which those with DID 0x61 and SDID 0x01 carry CDPs; one whose
checksum fails is counted. -/
def execAncPacketRx (n : Nat) (ts : BitVec 32) (seq : BitVec 16) (packets : List AncPacket) (s : State) :
    Host.Outcome State Fault Refusal :=
  act (n < 16) s (fun s =>
    match (chan s n).plan with
    | none => s
    | some p =>
      if p.capsFlow then
        let cdps := (packets.filter (fun x => x.did = 0x61 && x.sdid = 0x01)).map (fun x => x.data)
        let s := countBy s EGR_CAP_BAD (cdps.filter (fun c => !cdpGood c)).length
        let caps := ((cdps.filter cdpGood).map cdpTriplets).flatten
        modChan s n (fun c => { c with cdps := insertCdp (rtpTime s ts, seq, caps) c.cdps })
      else s)

end Sys2Proof.Machine
end

