-- ==== Sys2Proof/Machine/Tools.lean ====
section
/-!
DEFINITION. The coding tools and the coding of a row: effort levels (R87), engine input (R125, R134, R154), motion candidates and search
(R113, R114, R139, R140), the tools and partitions of the three codecs (R135 to R138), weighted prediction (R141), quantisers (R123, R166)
and last-resort rows (R148 to R151). What the manual leaves to the engine is a function of what the row reads, `Config.codeRow`; its value
is held inside what these rules allow (log entry 65).
-/
namespace Sys2Proof.Machine

/-! ### Effort levels (R87, R138) -/

/-- A row of the effort table: refinement steps, search range, partitioning (2 full, 1 reduced, 0 square), rate-distortion candidates a
block, in-loop filter decision (2 exhaustive, 1 two candidates, 0 fixed). -/
structure EffortRow where
  steps : Nat
  range : Nat
  partition : Nat
  candidates : Nat
  filter : Nat
  deriving DecidableEq, Repr, Inhabited

/-- The effort table, level 0 first (R87). -/
def effortTable : List EffortRow :=
  [⟨0, 8, 0, 2, 0⟩, ⟨0, 16, 1, 4, 1⟩, ⟨1, 16, 1, 4, 2⟩, ⟨1, 16, 1, 8, 2⟩, ⟨1, 32, 2, 8, 2⟩, ⟨2, 32, 2, 8, 2⟩, ⟨2, 64, 2, 8, 2⟩,
    ⟨3, 64, 2, 8, 2⟩]

/-- The tools of an effort level. -/
def effortRow (e : Nat) : EffortRow := effortTable.getD e ⟨3, 64, 2, 8, 2⟩

/-! ### Engine input (R125, R134, R154) -/

/-- A 10-bit sample at the input of an engine that codes 8 bits (R125). -/
def sampleTo8 (x : Nat) : Nat := min 255 ((x + 2) / 4)

/-- A part of a plane; positions outside the plane repeat its last column or row (R134, R154). -/
def planePart (p : Plane) (x0 w h : Nat) : Plane :=
  { w := w, h := h, px := ((List.range h).map (fun y => (List.range w).map (fun x => sampleAt p (x0 + x : Nat) (y : Nat)))).flatten }

/-- The coded width of a rendition: HEVC and VVC round up to 8 (R134). -/
def codedW (r : RendPlan) : Nat := if r.codec = 2 then r.w else up8 r.w
/-- The coded height of a rendition. -/
def codedH (r : RendPlan) : Nat := if r.codec = 2 then r.h else up8 r.h

/-- The samples that an engine reads for a tile: those of the tile's own columns, at the depth of the rendition, the added samples
repeating the last column or row. A filter decision reads no other sample; beyond the tile's edge it takes repeats of the edge column
(R154). -/
def engineInput (r : RendPlan) (pic : Picture) (t col : Nat) : Picture :=
  let x0 := tileStart t r col * ctSize r.codec
  let w := if col + 1 = t then codedW r - x0 else tileWidth t r col
  let depth (p : Plane) : Plane := if r.bits10 then p else { p with px := p.px.map sampleTo8 }
  let ch := if r.c422 then codedH r else codedH r / 2
  { y := depth (planePart pic.y x0 w (codedH r)), cb := depth (planePart pic.cb (x0 / 2) (w / 2) ch)
    cr := depth (planePart pic.cr (x0 / 2) (w / 2) ch) }

/-! ### Tools (R135 to R137) -/

/-- The tools a codec uses whatever the effort level. -/
def toolsOf (codec : Nat) : List Tool :=
  if codec = 1 then [.transformSkip4, .signHiding, .temporalMv, .deblocking, .sao, .acrossTiles]
  else if codec = 2 then
    [.directionalIntra, .smooth, .paeth, .filterIntra, .chromaFromLuma, .singleRef, .compound, .overlapped, .switchableFilter,
      .fullTransforms, .deblocking, .cdef, .loopRestoration, .deltaQ]
  else
    [.intra67, .multiReferenceLine, .matrixIntra, .crossComponentLinear, .multipleTransforms, .lfnst, .jointChroma, .dependentQuant,
      .historyMerge, .mergeDifference, .affine, .affineOpticalFlow, .subblockTemporal, .combinedInterIntra, .geometric, .cuWeights,
      .adaptiveResolution, .deblocking, .sao, .adaptiveLoopFilter, .crossComponentAlf, .acrossTiles]

/-- Whether a block may use a tool: asymmetric motion partitions at full partitioning, weighted prediction on fades, the dual tree in
intra slices; no tool that the tables do not list. -/
def toolOk (codec partition : Nat) (idr fade : Bool) (t : Tool) : Bool :=
  (toolsOf codec).contains t || (t = .amp && codec = 1 && partition = 2) || (t = .weightedPred && codec ≠ 2 && fade) ||
    (t = .dualTree && codec = 3 && idr)

/-! ### Partitions (R138, R148) -/

/-- The parts of a split block, in coding order. -/
def splitParts (s : Split) (b : BlockRect) : List BlockRect :=
  let w2 := b.w / 2
  let h2 := b.h / 2
  let w4 := b.w / 4
  let h4 := b.h / 4
  match s with
  | .quad => [⟨b.x, b.y, w2, h2⟩, ⟨b.x + w2, b.y, w2, h2⟩, ⟨b.x, b.y + h2, w2, h2⟩, ⟨b.x + w2, b.y + h2, w2, h2⟩]
  | .horz => [⟨b.x, b.y, b.w, h2⟩, ⟨b.x, b.y + h2, b.w, h2⟩]
  | .vert => [⟨b.x, b.y, w2, b.h⟩, ⟨b.x + w2, b.y, w2, b.h⟩]
  | .ternHorz => [⟨b.x, b.y, b.w, h4⟩, ⟨b.x, b.y + h4, b.w, h2⟩, ⟨b.x, b.y + h4 + h2, b.w, h4⟩]
  | .ternVert => [⟨b.x, b.y, w4, b.h⟩, ⟨b.x + w4, b.y, w2, b.h⟩, ⟨b.x + w4 + w2, b.y, w4, b.h⟩]
  | .horzA => [⟨b.x, b.y, w2, h2⟩, ⟨b.x + w2, b.y, w2, h2⟩, ⟨b.x, b.y + h2, b.w, h2⟩]
  | .horzB => [⟨b.x, b.y, b.w, h2⟩, ⟨b.x, b.y + h2, w2, h2⟩, ⟨b.x + w2, b.y + h2, w2, h2⟩]
  | .vertA => [⟨b.x, b.y, w2, h2⟩, ⟨b.x, b.y + h2, w2, h2⟩, ⟨b.x + w2, b.y, w2, b.h⟩]
  | .vertB => [⟨b.x, b.y, w2, b.h⟩, ⟨b.x + w2, b.y, w2, h2⟩, ⟨b.x + w2, b.y + h2, w2, h2⟩]
  | .horz4 => (List.range 4).map (fun i => ⟨b.x, b.y + i * h4, b.w, h4⟩)
  | .vert4 => (List.range 4).map (fun i => ⟨b.x + i * w4, b.y, w4, b.h⟩)

/-- Whether a partitioning lets a block split so; `multi` counts the binary and ternary splits above it. The least block sizes are the
codecs' own where the tables give none (PRESUMED, log entry 65). -/
def splitOk (codec partition multi : Nat) (b : BlockRect) (s : Split) : Bool :=
  if codec = 1 then s = .quad && 16 ≤ b.w
  else if codec = 2 then
    b.w = b.h && 8 ≤ b.w &&
      (if partition = 2 then s ≠ .ternHorz && s ≠ .ternVert && (16 ≤ b.w || s = .quad || s = .horz || s = .vert)
       else if partition = 1 then s = .quad || s = .horz || s = .vert
       else s = .quad)
  else
    match s with
    | .quad => multi = 0 && b.w = b.h && 8 ≤ b.w
    | .horz => 1 ≤ partition && multi < partition + 1 && 8 ≤ b.h
    | .vert => 1 ≤ partition && multi < partition + 1 && 8 ≤ b.w
    | .ternHorz => partition = 2 && multi < 3 && 16 ≤ b.h
    | .ternVert => partition = 2 && multi < 3 && 16 ≤ b.w
    | _ => false

/-- The split that a codec forces on a block at the right or bottom edge of the coded picture: the largest blocks its syntax allows
(R148; log entry 10). -/
def forcedSplit (codec w h : Nat) (b : BlockRect) : Option Split :=
  let right : Bool := decide (w < b.x + b.w)
  let down : Bool := decide (h < b.y + b.h)
  if codec = 2 then
    match decide (w ≤ b.x + b.w / 2), decide (h ≤ b.y + b.h / 2) with
    | true, true => some .quad
    | true, false => some .vert
    | false, true => some .horz
    | false, false => none
  else if codec = 3 then
    match right, down with
    | true, true => some .quad
    | true, false => some .vert
    | false, true => some .horz
    | false, false => none
  else if right || down then some .quad else none

/-- The blocks of a coding tree with the split decisions that are left; a decision that is not allowed leaves the block whole. Splits that
an edge forces are made in any case. -/
def partitionTree (codec partition w h : Nat) : Nat → Nat → BlockRect → List (Option Split) → List BlockRect × List (Option Split)
  | 0, _, b, ds => ([b], ds)
  | n + 1, multi, b, ds =>
    if w ≤ b.x || h ≤ b.y then ([], ds)
    else
      let go (s : Split) (ds : List (Option Split)) : List BlockRect × List (Option Split) :=
        if codec = 2 && s ≠ .quad then ((splitParts s b).filter (fun p => p.x < w && p.y < h), ds)
        else (splitParts s b).foldl (fun (acc : List BlockRect × List (Option Split)) p =>
          let r := partitionTree codec partition w h n (if s = .quad then multi else multi + 1) p acc.2
          (acc.1 ++ r.1, r.2)) ([], ds)
      match forcedSplit codec w h b, ds with
      | some s, ds => go s ds
      | none, some s :: ds => if splitOk codec partition multi b s then go s ds else ([b], ds)
      | none, none :: ds => ([b], ds)
      | none, [] => ([b], [])

/-- The roots of the coding trees of a coding-tree unit: an IDR picture of VVC codes luma and chroma in separate trees whose 128 × 128
units split in four at once (R137, R148). -/
def treeRoots (codec : Nat) (idr : Bool) (x y : Nat) : List (Nat × BlockRect) :=
  let s := ctSize codec
  if codec = 3 && idr then
    ((splitParts .quad ⟨x, y, s, s⟩).map (fun b => [(1, b), (2, b)])).flatten
  else [(0, ⟨x, y, s, s⟩)]

/-- The blocks of a coding-tree unit, each with its tree. -/
def unitBlocks (codec partition w h : Nat) (idr : Bool) (x y : Nat) (ds : List (Option Split)) : List (Nat × BlockRect) :=
  ((treeRoots codec idr x y).foldl (fun (acc : List (Nat × BlockRect) × List (Option Split)) r =>
    let b := partitionTree codec partition w h 12 0 r.2 acc.2
    (acc.1 ++ b.1.map (fun x => (r.1, x)), b.2)) ([], ds)).1

/-- The shapes of HEVC's prediction partitions that a partitioning allows (R138). -/
def shapesOf (partition : Nat) (intra small : Bool) : List PuShape :=
  if intra then (if partition = 2 && small then [.square, .quarters] else [.square])
  else if partition = 2 then [.square, .horz, .vert, .horzUp, .horzDown, .vertLeft, .vertRight]
  else if partition = 1 then [.square, .horz, .vert]
  else [.square]

/-! ### Motion (R113, R114, R139, R140) -/

/-- The 16 × 16 blocks of a rendition that a coding block covers, inside the picture. -/
def blocks16 (r : RendPlan) (b : BlockRect) : List (Nat × Nat) :=
  let xs := (List.range ((r.w + 15) / 16)).filter (fun i => b.x < 16 * i + 16 && 16 * i < b.x + b.w)
  let ys := (List.range ((r.h + 15) / 16)).filter (fun i => b.y < 16 * i + 16 && 16 * i < b.y + b.h)
  (ys.map (fun y => xs.map (fun x => (x, y)))).flatten

/-- The candidates A and B of a block record for an analysis slot; an invalid one is none (R110). -/
def slotVectors (b : BlockRec) (slot : Nat) : List (Option (Int × Int)) := if slot = 1 then b.mv1 else if slot = 2 then b.mv2 else b.mv4

/-- The scaled valid candidates of a coding block for a reference at distance `d`, in quarter samples (R112 to R114); an invalid candidate
stays invalid. -/
def analysisCands (fl : Field) (W H : Nat) (r : RendPlan) (d : Nat) (b : BlockRect) : List (Int × Int) :=
  ((blocks16 r b).map (fun x =>
    let m := mappedBlock fl W H r x.1 x.2
    match fl.blocks[m.2 * fl.bw + m.1]? with
    | none => []
    | some k => (slotVectors k (slotOfDistance d)).filterMap (fun v => v.map (scaledVector W H r d)))).flatten

/-- The moves of the refinement steps of an effort level, in sixteenth samples: half and quarter, then an eighth in AV1 and a sixteenth
for VVC's affine control points; HEVC performs no third step (R87, R139). -/
def refineMoves (codec steps : Nat) (isAffine : Bool) : List Nat :=
  (if codec = 2 then [8, 4, 2] else if codec = 3 && isAffine then [8, 4, 1] else [8, 4]).take steps

/-- An integer position held within the search range around a candidate component in sixteenth samples (R114). -/
def searchPos (range : Nat) (cand p : Int) : Int := max (-((16 * (range : Int) - cand).fdiv 16)) (min p ((cand + 16 * range).fdiv 16))

/-- A component after the search: the integer position and the moves of the steps, each one step back, none or one forward. -/
def searchEnd (range : Nat) (moves : List Nat) (cand p : Int) (ms : List Int) : Int :=
  16 * searchPos range cand p + ((moves.zip ms).map (fun x => (x.1 : Int) * max (-1) (min 1 x.2))).foldl (fun a v => a + v) 0

/-- The predictors of a codec that join the analysis candidates of a block; the affine ones those of an affine block (R140). -/
def predictorKinds (codec : Nat) (isAffine : Bool) : List PredKind :=
  if codec = 1 then [.mergeSpatial, .mergeTemporal, .mergeCombined, .mergeZero, .amvp]
  else if codec = 2 then [.mvStack]
  else [.mergeRegular, .mergeHistory, .amvp] ++ (if isAffine then [.affineInherited, .affineConstructed] else [])

/-- The motion vector that a search ends with: from a scaled candidate of the analysis, the zero vector or a predictor of the codec, each
searched alike; merging takes a predictor as it is (R114, R140). `cands` holds each reference's candidates in quarter samples. -/
def searchMotion (ctx : MotionCtx) (e : EffortRow) (isAffine : Bool) (cands : List (List (Int × Int))) (m : MotionChoice) : MotionCode :=
  let list := if ctx.codec = 2 then 0 else m.list % 2
  let ref := m.ref % max 1 cands.length
  let own := ((cands.getD ref []) ++ [(0, 0)]).map (fun (v : Int × Int) => (4 * v.1, 4 * v.2))
  let cs := own ++ (predictorKinds ctx.codec isAffine).flatMap (fun k => Config.predictors k ctx list ref)
  let i := m.cand % max 1 cs.length
  let c := cs.getD i (0, 0)
  let moves := refineMoves ctx.codec e.steps isAffine
  let v :=
    if m.asIs && own.length ≤ i then c
    else (searchEnd e.range moves c.1 m.px (m.moves.map (fun x => x.1)), searchEnd e.range moves c.2 m.py (m.moves.map (fun x => x.2)))
  { list := list, ref := ref, v := v }

/-- The vectors of an inter block: of AV1 one, or two of different references where the block is a compound of two earlier pictures (R136);
of HEVC and VVC those of its partitions and control points. -/
def motionWithin (codec : Nat) (compound : Bool) (ms : List MotionCode) : List MotionCode :=
  match codec, ms with
  | _, [] => [{ list := 0, ref := 0, v := (0, 0) }]
  | 2, m :: rest => m :: (if compound then (rest.filter (fun x => x.ref ≠ m.ref)).take 1 else [])
  | _, l => l

/-- The tools of a block: deblocking always; of AV1's two forms of inter prediction the one its vectors have (R136, R138). -/
def toolsWithin (codec : Nat) (ms : List MotionCode) (ts : List Tool) : List Tool :=
  let ts := .deblocking :: ts.filter (fun t => t ≠ .deblocking)
  if codec = 2 then
    ts.filter (fun t => t ≠ .compound && t ≠ .singleRef) ++ (if ms.isEmpty then [] else if 2 ≤ ms.length then [.compound] else [.singleRef])
  else ts

/-- The mode candidates of a block in the order tried, at most the level's number: the intra-preferred flag puts intra first, the static
flag puts the zero vector first, and neither removes a candidate (R87, R114; log entry 65). -/
def orderTried (n : Nat) (intraFirst zeroFirst : Bool) (l : List (Bool × Bool)) : List (Bool × Bool) :=
  let l := l.take n
  let l := if intraFirst then l.filter (fun x => x.1) ++ l.filter (fun x => !x.1) else l
  if zeroFirst then l.filter (fun x => x.2) ++ l.filter (fun x => !x.2) else l

/-! ### Quantisers and weights (R123, R141, R166) -/

/-- QI as the codec's own quantiser (R166). -/
def codecQuant (codec : Nat) (bits10 : Bool) (qi : Nat) : Int :=
  if codec = 2 then 4 * (max 1 qi : Nat)
  else if codec = 1 && !bits10 then max 0 ((qi : Int) - 12)
  else (qi : Int) - 12

/-- The luma weight of explicit weighted prediction on a fade, with a denominator of 2^6 and offset 0; AV1 has none (R141). -/
def fadeWeight (codec : Nat) (f : Field) : Option Int :=
  if f.fade && codec ≠ 2 then some (min 127 (max (-128) (((f.gain * 64 + 128) / 256 : Nat) : Int))) else none

/-! ### In-loop filters (R138) -/

/-- The edge class of SAO with the lowest distortion, the lower class where two are equal (R138). -/
def bestEdge (cost : Nat → Nat) : Nat := (List.range 4).foldl (fun b c => if cost c < cost b then c else b) 0

/-- A filter choice held within what the level's decision allows; between two candidates SAO is off or takes the edge class `edge`. -/
def filterWithin (codec filter edge : Nat) (f : FilterChoice) : FilterChoice :=
  let sao := if codec = 2 || filter = 0 then 0 else if filter = 1 then (if f.sao = 0 then 0 else 2 + edge) else f.sao % 7
  let alf := if codec ≠ 3 || filter = 0 then 0 else if filter = 1 then f.alf % 2 else f.alf
  { sao := sao
    alf := alf
    ccAlf := codec = 3 && filter = 2 && f.ccAlf
    cdef := if codec = 2 then f.cdef % (if filter = 2 then 8 else if filter = 1 then 2 else 1) else 0
    restore := if codec = 2 then f.restore % (if filter = 2 then 3 else if filter = 1 then 2 else 1) else 0 }

/-- No filter but deblocking (R148). -/
def noFilter : FilterChoice := { sao := 0, alf := 0, ccAlf := false, cdef := 0, restore := 0 }

/-! ### A row coded normally -/

/-- The intra modes of a codec: 35, 13 and 67 (PRESUMED, log entry 65). -/
def intraModes (codec : Nat) : Nat := if codec = 1 then 35 else if codec = 2 then 13 else 67

/-- A block as coded: every choice held within what the tables allow at the effort level. -/
def codeBlock (r : RendPlan) (e : EffortRow) (idr fade : Bool) (flags : BlockRect → Bool × Bool) (cands : BlockRect → List (List (Int × Int)))
    (quant : BlockRect → Int) (ctx : MotionCtx) (tree : Nat) (b : BlockRect) (c : BlockChoice) : BlockCode :=
  let fl := flags b
  let noRefs := (cands b).isEmpty
  let intra := if idr || noRefs then some (c.intra.getD 0 % intraModes r.codec) else c.intra.map (fun m => m % intraModes r.codec)
  let tools := c.tools.filter (toolOk r.codec e.partition idr fade)
  let shapes := shapesOf e.partition intra.isSome (b.w = 8)
  let ms := if intra.isSome then []
    else motionWithin r.codec (tools.contains .compound) ((c.motion.take 8).map (searchMotion ctx e (tools.contains .affine) (cands b)))
  { rect := b
    tree := tree
    shape := if r.codec = 1 then shapes.getD (c.shape % shapes.length) .square else .square
    tuDepth := if r.codec = 1 then c.tuDepth % 3 else 0
    tried := orderTried e.candidates fl.1 fl.2 c.tried
    intra := intra
    motion := ms
    tools := toolsWithin r.codec ms tools
    levels := c.levels
    q := some (quant b)
    syn := [] }

/-- The blocks coded before a block: those of the row's units before its own, and of its own. -/
def ctxAfter (ctx : MotionCtx) (rect : BlockRect) (bs : List BlockCode) : MotionCtx := { ctx with before := ctx.before ++ bs, rect := rect }

/-- Code the blocks of a unit one after the other, each with those before it. -/
def codeBlocks (ctx : MotionCtx) (bs : List (Nat × BlockRect)) (code : MotionCtx → Nat → Nat × BlockRect → BlockCode) : List BlockCode :=
  bs.zipIdx.foldl (fun acc b => acc ++ [code (ctxAfter ctx b.1.2 acc) b.2 b.1]) []

/-- A coding-tree unit as coded; `ctx` holds the blocks of the row before it, `edge` the edge class of lowest distortion. -/
def codeUnit (r : RendPlan) (e : EffortRow) (idr fade : Bool) (flags : BlockRect → Bool × Bool)
    (cands : BlockRect → List (List (Int × Int))) (quant : BlockRect → Int) (ctx : MotionCtx) (edge x y : Nat) (c : UnitChoice) : UnitCode :=
  { blocks := codeBlocks ctx (unitBlocks r.codec e.partition (codedW r) (codedH r) idr x y c.splits) (fun k i b =>
      codeBlock r e idr fade flags cands quant k b.1 b.2 (c.blocks.getD i default))
    filter := filterWithin r.codec e.filter edge c.filter
    syn := [] }

/-- Code the units of a row one after the other, each with the blocks before it. -/
def codeUnits (ctx : MotionCtx) (n : Nat) (code : MotionCtx → Nat → UnitCode) : List UnitCode :=
  (List.range n).foldl (fun acc i => acc ++ [code { ctx with before := acc.flatMap (fun u => u.blocks) } i]) []

/-! ### Last-resort rows (R148 to R151) -/

/-- The lowest index of a merge list whose candidate is PRED_L0 with reference index 0 and the zero vector (R149, R151). -/
def lrMerge (ctx : MotionCtx) : Option Nat := (Config.mergeList ctx).findIdx? (fun m => m.dir = 0 && m.ref = 0 && m.v = (0, 0))

/-- The predictor behind the vector difference of a last-resort block: mvp_l0 0 of reference index 0 (R149, R151). -/
def lrPredictor (ctx : MotionCtx) : Int × Int := (Config.predictors .amvp ctx 0 0).getD 0 (0, 0)

/-- The syntax of a last-resort block of HEVC (R149). In an IDR picture every neighbour that the list of likely modes reads is a last-resort
block of the same row, or outside, so both count as DC: the list is planar, DC, angular 26, and DC has index 1 (PRESUMED from H.265,
log entry 65). -/
def lrHevc (idr : Bool) (merge : Option Nat) (mvp : Int × Int) : List (String × Int) :=
  ("split_cu_flag", 0) ::
    (if idr then
      [("pred_mode_flag", 1), ("part_mode", 0), ("prev_intra_luma_pred_flag", 1), ("mpm_idx", 1), ("IntraPredModeY", 1),
        ("intra_chroma_pred_mode", 4), ("cbf_luma", 0), ("cbf_cb", 0), ("cbf_cr", 0)]
    else match merge with
      | some i => [("cu_skip_flag", 1), ("merge_idx", (i : Nat))]
      | none =>
        [("cu_skip_flag", 0), ("pred_mode_flag", 0), ("part_mode", 0), ("merge_flag", 0), ("inter_pred_idc", 0), ("ref_idx_l0", 0),
          ("mvp_l0_flag", 0), ("mvd_x", -mvp.1), ("mvd_y", -mvp.2), ("rqt_root_cbf", 0)])

/-- The syntax of a last-resort block of AV1 (R150): PARTITION_NONE is 0, LAST 1, GLOBALMV 15, EIGHTTAP 0, SIMPLE 0, DC_PRED 0. -/
def lrAv1 (idr : Bool) : List (String × Int) :=
  if idr then
    [("partition", 0), ("skip", 1), ("intra_frame_y_mode", 0), ("angle_delta", 0), ("use_filter_intra", 0), ("uv_mode", 0)]
  else
    [("partition", 0), ("skip", 1), ("is_inter", 1), ("ref_frame[0]", 1), ("ref_frame[1]", -1), ("YMode", 15), ("interp_filter", 0),
      ("motion_mode", 0)]

/-- The syntax of a last-resort block of VVC (R151). In an IDR picture the neighbours of a block are last-resort blocks of the same row or
count as planar, so the list of likely modes begins with DC; the derived chroma mode is the luma mode (PRESUMED from H.266, log
entry 65). -/
def lrVvc (idr : Bool) (tree : Nat) (merge : Option Nat) (mvp : Int × Int) : List (String × Int) :=
  ("split_cu_flag", 0) ::
    (if idr then
      (if tree = 2 then [("cclm_mode_flag", 0), ("intra_chroma_pred_mode", 4), ("IntraPredModeC", 1), ("cbf_cb", 0), ("cbf_cr", 0)]
      else
        [("intra_mip_flag", 0), ("intra_luma_ref_idx", 0), ("intra_subpartitions_mode_flag", 0), ("intra_luma_mpm_flag", 1),
          ("intra_luma_not_planar_flag", 1), ("intra_luma_mpm_idx", 0), ("IntraPredModeY", 1), ("cbf_luma", 0)])
    else match merge with
      | some i =>
        [("cu_skip_flag", 1), ("merge_subblock_flag", 0), ("mmvd_merge_flag", 0), ("ciip_flag", 0), ("merge_gpm", 0),
          ("merge_idx", (i : Nat))]
      | none =>
        [("pred_mode_flag", 0), ("general_merge_flag", 0), ("inter_pred_idc", 0), ("inter_affine_flag", 0), ("ref_idx_l0", 0),
          ("amvr_flag", 0), ("mvp_l0_flag", 0), ("mvd_x", -mvp.1), ("mvd_y", -mvp.2), ("cu_coded_flag", 0)])

/-- The syntax of a last-resort coding-tree unit besides its blocks' (R148 to R151). -/
def lrUnitSyntax (codec : Nat) : List (String × Int) :=
  if codec = 1 then
    [("sao_merge_left_flag", 0), ("sao_merge_up_flag", 0), ("sao_type_idx_luma", 0), ("sao_type_idx_chroma", 0)]
  else if codec = 2 then [("lr_unit_type", 0)]
  else
    [("sao_type_idx_luma", 0), ("sao_type_idx_chroma", 0), ("alf_ctb_flag[0]", 0), ("alf_ctb_flag[1]", 0), ("alf_ctb_flag[2]", 0),
      ("alf_ctb_cc_cb_idc", 0), ("alf_ctb_cc_cr_idc", 0)]

/-- A last-resort coding-tree unit: whole but for the splits an edge forces, no residual, the nearest reference with the zero vector or
intra DC, no filter but deblocking (R148). -/
def lrUnit (r : RendPlan) (idr : Bool) (ctx : MotionCtx) (x y : Nat) : UnitCode :=
  { blocks := codeBlocks ctx (unitBlocks r.codec 0 (up8 r.w) (up8 r.h) idr x y []) (fun k _ b =>
      { rect := b.2
        tree := b.1
        shape := .square
        tuDepth := 0
        tried := []
        intra := if idr then some (if r.codec = 2 then 0 else 1) else none
        motion := if idr then [] else [{ list := 0, ref := 0, v := (0, 0) }]
        tools := [.deblocking]
        levels := []
        q := none
        syn := if r.codec = 1 then lrHevc idr (lrMerge k) (lrPredictor k) else if r.codec = 2 then lrAv1 idr
          else lrVvc idr b.1 (lrMerge k) (lrPredictor k) })
    filter := noFilter
    syn := lrUnitSyntax r.codec }

end Sys2Proof.Machine
end

