-- ==== Sys2Proof/Machine/Engines.lean ====
section
/-!
DEFINITION. The operations of the encode engines and of rate control: engine states (R153, R163, R164), the work list (R127,
R156, R175), the rate decision (R165 to R173), rows and stop rows (R174 to R176), parity faults (R156 to R160), sizing (R168,
R172, R177, R182).
-/
namespace Sys2Proof.Machine

/-! ### Engine states (R153, R164) -/

/-- ENG_STAT.STATE. -/
def engState (s : State) (e : Nat) : Nat := rdFld s (ENG_STAT e) 2 0

/-- Show IN_SERVICE and WITHDRAWN of a cluster (R164). -/
def showPresent (s : State) (c : Nat) : State :=
  let bits (p : Nat → Bool) : Nat := (List.range 8).foldl (fun a i => a + (if p (engState s (8 * c + i)) then 2 ^ i else 0)) 0
  wr s (CL_ENG_PRESENT c) (mkWord [(7, 0, bits (fun x => [1, 2, 3, 6].contains x)), (15, 8, bits (fun x => x = 4))])

/-- Put an engine in a state. -/
def setEngState (s : State) (e st : Nat) : State := showPresent (wrFld s (ENG_STAT e) 2 0 st) (e / 8)

/-- The state an engine without work has: IDLE where its cluster serves a channel, else UNASSIGNED. -/
def restState (s : State) (e : Nat) : Nat := if rdBit s (CL_STAT (e / 8)) 4 then 1 else 0

/-- The channel an engine's cluster serves. -/
def engChannel (s : State) (e : Nat) : Nat := rdFld s (CL_STAT (e / 8)) 3 0

/-- The engines of a channel that are not withdrawn. -/
def aliveEngines (s : State) (n : Nat) : List Nat :=
  (List.range 128).filter (fun e => rdBit s (CL_STAT (e / 8)) 4 && engChannel s e = n && engState s e ≠ 4)

/-- The ticks an engine has spent in CODING go to BUSY and to the frame of its tile (R89, R163). -/
def chargeBusy (s : State) (e : Nat) : State :=
  let x := eng s e
  let d := (s.raw - x.since).toNat
  let s := count64 s (ENG_BUSY_LO e) (ENG_BUSY_HI e) d
  let s := match x.item with
    | none => s
    | some i => modFrame s (rdFld s (ENG_STAT e) 11 8) i.j (fun f => { f with busy := f.busy + d })
  modEng s e (fun x => { x with since := s.raw })

/-- An engine leaves CODING. -/
def engRest (s : State) (e : Nat) : State :=
  let s := chargeBusy s e
  let s := modEng s e (fun x => { x with item := none, edges := [] })
  setEngState (wrBit s (ENG_STAT e) 3 false) e (restState s e)

/-! ### Pictures and tiles -/

/-- The picture of a rendition in a frame. -/
def FrameSt.pic (f : FrameSt) (r : Nat) : Option RendPic := f.rends.find? (fun x => x.id = r)
/-- The plan of a rendition in a frame. -/
def FrameSt.rend (f : FrameSt) (r : Nat) : Option RendPlan := f.plan.rends.find? (fun x => x.id = r)
/-- Change the picture of a rendition. -/
def modPic (s : State) (n j r : Nat) (g : RendPic → RendPic) : State :=
  modFrame s n j (fun f => { f with rends := f.rends.map (fun x => if x.id = r then g x else x) })
/-- Change one tile. -/
def modTileOf (s : State) (n j r c : Nat) (g : TileSt → TileSt) : State :=
  modPic s n j r (fun p => { p with tiles := p.tiles.map (fun t => if t.col = c then g t else t) })

/-- The frame, rendition plan, picture and tile a work item names. -/
def itemParts (s : State) (n : Nat) (i : WorkItem) : Option (FrameSt × RendPlan × RendPic × TileSt) :=
  match frameAt s n i.j with
  | none => none
  | some f => match f.rend i.rid, f.pic i.rid with
    | some r, some p => (p.tiles.find? (fun t => t.col = i.col)).map (fun t => (f, r, p, t))
    | _, _ => none

/-- The lower of two rows that may be none. -/
def minRow (a b : Option Nat) : Option Nat :=
  match a, b with
  | some x, some y => some (min x y)
  | some x, none => some x
  | none, b => b

/-- The row at which last-resort coding starts, if any (R93). -/
def RendPic.lrStart (p : RendPic) : Option Nat := minRow p.stop p.rescue

/-- The row at which normal coding of a picture's tiles ends as far as it is fixed (R157, R175, R181). -/
def RendPic.limit (p : RendPic) (rows : Nat) : Nat :=
  min rows ((if p.stopFixed then p.lrStart else p.rescue).getD rows)

/-! ### The work list (R127, R156, R175) -/

/-- Whether item `a` stands before item `b`: re-issued tiles, then tail passes, then tiles not started; tail passes follow
R127 among themselves. R156 and R175 both say "the head"; which of the two goes first is not stated (DESIGN CHOICE, log entry 62). -/
def itemBefore (a b : WorkItem) : Bool :=
  a.cls < b.cls || (a.cls = b.cls && a.cls = 1 && (a.j < b.j || (a.j = b.j && (a.ord < b.ord || (a.ord = b.ord && a.col < b.col)))))

/-- Enter an item at its place. -/
def insertItem (i : WorkItem) : List WorkItem → List WorkItem
  | [] => [i]
  | x :: xs => if itemBefore i x || (i.cls = 0 && x.cls = 0) then i :: x :: xs else x :: insertItem i xs

/-- Put an item in a channel's work list. -/
def pushWork (s : State) (n : Nat) (i : WorkItem) : State := modChan s n (fun c => { c with work := insertItem i c.work })

/-- The place of a rendition in the priority order of its frame. -/
def ordOf (f : FrameSt) (n r : Nat) : Nat := ((byPriority f n).map (fun x => x.id)).idxOf r

/-! ### Budgets (R165 to R173) -/

/-- The quantiser limits of a rendition: QMIN for both where QMIN > QMAX (R166). -/
def qLimits (f : FrameSt) (n r : Nat) : Nat × Nat :=
  let lo := f.fld (RC_QCTL n r) 5 0
  (lo, max lo (f.fld (RC_QCTL n r) 13 8))

/-- POW of R171. -/
def powQ (i : Nat) : Nat := [65536, 58387, 52016, 46341, 41285, 36781].getD i 36781

/-- est(q, cx) (R171). -/
def estBits (alpha q cx : Nat) : Nat := alpha * cx * powQ (q % 6) / 2 ^ (32 + q / 6)

/-- cum(k) of a rate (R168). -/
def cumBits (rate k : Nat) (g : Grid) : Nat := rate * k * g.num / (max 1 g.den * 1000000000)

/-- A_k of a rate (R168). -/
def arrival (rate k : Nat) (g : Grid) : Nat := cumBits rate (k + 1) g - cumBits rate k g

/-- F0 (R165). -/
def initFill (r : RendPlan) : Nat := r.rate * r.initDelay / 90000

/-- TR in use: 0 and any value above R are R (R165). -/
def targetRate (f : FrameSt) (n : Nat) (r : RendPlan) : Nat :=
  let t := (f.reg (RC_TARGET_RATE n r.id)).toNat
  if t = 0 || r.rate < t then r.rate else t

/-- A clamp of signed values. -/
def clampI (x lo hi : Int) : Int := max lo (min x hi)

/-- The frames of a slice from a frame on to its lookahead depth L (R85, R171). -/
def lookahead (c : Chan) (f : FrameSt) : List FrameSt :=
  c.frames.filter (fun x => f.j ≤ x.j && x.j + 2 ≤ f.j + f.plan.delay && x.sliceSeq = f.sliceSeq)

/-- Whether the lookahead of a frame is known: its boundaries have been accepted or the slice ends (R85, R171). -/
def lookaheadKnown (c : Chan) (f : FrameSt) : Bool :=
  (f.j + f.plan.delay ≤ c.j + 1 || c.stopped || c.gap.isSome || c.frames.any (fun x => x.sliceSeq ≠ f.sliceSeq && f.j < x.j)) &&
    (lookahead c f).all (fun x => x.field.isSome)

/-- SUM_CX of a frame's field. -/
def FrameSt.sumCx (f : FrameSt) : Nat := (f.field.map (fun x => x.sumCx)).getD 0

/-- W of R171. -/
def lookWeight (c : Chan) (f : FrameSt) : Nat :=
  let l := lookahead c f
  let cx := max 1 f.sumCx
  min 1024 (max 64 (l.length * cx * 256 / max 1 (l.foldl (fun a x => a + x.sumCx) 0)))

/-- PW of R171. -/
def picWeight (f : FrameSt) (n r : Nat) : Nat :=
  if f.idr then f.fld (RC_WEIGHT n r) 9 0 else if f.nonRef then f.fld (RC_WEIGHT n r) 25 16 else 256

/-- The smallest q in [lo, hi] whose estimate fits, else hi (R171). -/
def findQ (alpha cx hdr lo hi : Nat) (room : Int) : Nat :=
  (((List.range (hi + 1 - lo)).map (fun i => lo + i)).find? (fun q => ((estBits alpha q cx + hdr : Nat) : Int) ≤ room)).getD hi

/-- What the rate decision fixes: T after clamping and QI (R171). -/
def rateOf (c : Chan) (f : FrameSt) (n : Nat) (r : RendPlan) (m : RcModel) : Nat × Nat :=
  let cx := max 1 f.sumCx
  let w := lookWeight c f
  let pw := picWeight f n r.id
  let (qlo, qhi) := qLimits f n r.id
  let alpha := if f.idr then m.alphaI else m.alphaP
  let guard : Int := ((r.hdrMax + r.lrMax : Nat) : Int)
  let b : Int := m.b
  let fin (t : Int) : Int := clampI t guard b
  if r.mode = 3 then
    let lo := max (f.fld (RC_QCTL n r.id) 21 16) qlo
    let q := if lo ≤ qhi then findQ alpha cx r.hdrMax lo qhi ((m.b * 7 / 8 : Nat) : Int) else qhi
    ((fin ((estBits alpha q cx + r.hdrMax : Nat) : Int)).toNat, q)
  else
    let t : Int :=
      if r.mode = 1 then ((arrival r.rate f.k f.grid * w * pw / 65536 : Nat) : Int) + (b - initFill r).fdiv 8
      else ((arrival (targetRate f n r) f.k f.grid * w * pw / 65536 : Nat) : Int) + m.e.fdiv 32
    let t := fin t
    (t.toNat, findQ alpha cx r.hdrMax qlo qhi t)

/-- The model of a rendition in a slice. -/
def modelIn (c : Chan) (slice r : Nat) : Option RcModel := c.models.find? (fun m => m.id = r && m.slice = slice)

/-- The model of a rendition at frame 0 of a slice: B is F0, the alphas and E start anew (R168, R171, R172). `old` is the slice whose B it
carries on (R180). d starts anew with the first IDR after a RESTART, whose buffering period has none before it in the slice (DESIGN CHOICE,
log entry 62: R177 does not say whether the pause ends the one before). -/
def freshModel (r : RendPlan) (slice : Nat) (old : Option Nat) : RcModel :=
  { id := r.id, codec := r.codec, dest := r.dest, slice := slice, from_ := old, b := initFill r, b0 := initFill r
    sinceBp := none, e := 0, alphaI := 0x20000, alphaP := 0x20000 }

/-- A model with the B it carries on: from the slice before, which may itself have coded no picture and carry on another's (R63, R180). -/
def carriedModel (c : Chan) : Nat → RcModel → RcModel
  | 0, m => { m with from_ := none }
  | n + 1, m =>
    match m.from_.bind (fun q => modelIn c q m.id) with
    | some x =>
      let x := carriedModel c n x
      { m with b := x.b, b0 := x.b, sinceBp := x.sinceBp, from_ := none }
    | none => { m with from_ := none }

/-- The model with which a rendition enters a picture. At frame 0 of a slice the alphas and E restart and B is F0, or what the pictures of
the slice before left where R64 keeps the rendition (R168, R171, R172, R180). -/
def modelFor (c : Chan) (f : FrameSt) (r : RendPlan) : RcModel :=
  carriedModel c c.models.length ((modelIn c f.sliceSeq r.id).getD (freshModel r f.sliceSeq none))

/-- Put a rendition's model back. -/
def putModel (s : State) (n : Nat) (m : RcModel) : State :=
  modChan s n (fun c => { c with models := m :: c.models.filter (fun x => !(x.id = m.id && x.slice = m.slice)) })

/-- Whether CPB_FULL and the alphas of a rendition show a slice's model: the slice in force, or one whose B a later slice carries on
(R180, R184). -/
def showsModel (s : State) (n slice r : Nat) : Bool :=
  (chan s n).sliceSeq = slice || ((modelIn (chan s n) (chan s n).sliceSeq r).bind (fun m => m.from_)) = some slice

/-- CPB_FULL and the alphas of a rendition (R184). -/
def showModel (s : State) (n : Nat) (m : RcModel) : State :=
  if showsModel s n m.slice m.id then
    wr (wr (wr s (RC_CPB_FULL n m.id) (wordOf m.b)) (RC_ALPHA_I n m.id) (wordOf m.alphaI)) (RC_ALPHA_P n m.id) (wordOf m.alphaP)
  else s

/-- The complexity of row `j` of a tile (R173). -/
def rowCx (f : FrameSt) (t : Nat) (r : RendPlan) (col j : Nat) : Nat :=
  match f.field with
  | none => 0
  | some fl => cxTile fl f.plan.width f.plan.height t r col j

/-- cx_t (R173). -/
def tileCx (f : FrameSt) (t : Nat) (r : RendPlan) (col : Nat) : Nat := sumTo (ctRows r) (rowCx f t r col)

/-- The quantiser of a row (R174). -/
def rowQi (f : FrameSt) (n : Nat) (r : RendPlan) (p : RendPic) (t : TileSt) : Nat :=
  let tn := p.tiles.length
  let exp := t.soft * sumTo t.row (rowCx f tn r t.col) / max 1 (tileCx f tn r t.col)
  let dev : Int := (t.used : Int) - exp
  let delta := clampI ((8 * dev).tdiv (max 1 t.soft : Nat)) (-4) 4
  let (lo, hi) := qLimits f n r.id
  (clampI ((p.qi : Int) + delta) lo hi).toNat

/-- QOFF[r][c] of a frame's set, limited to -12 to 12 (R123, R131). -/
def qOffset (f : FrameSt) (n r c : Nat) : Int :=
  clampI (BitVec.ofNat 8 (f.fld (CH_QOFF n r (c / 4)) (8 * (c % 4) + 7) (8 * (c % 4)))).toInt (-12) 12

/-- The ROI class of a rendition's 16 × 16 block: its mapped top block's (R112, R123). -/
def blockClass (f : FrameSt) (r : RendPlan) (bx by_ : Nat) : Nat :=
  match f.field with
  | none => 0
  | some fl =>
    let m := mappedBlock fl f.plan.width f.plan.height r bx by_
    ((fl.blocks[m.2 * fl.bw + m.1]?).map (fun b => b.roi)).getD 0

/-- The lowest offset among the 16 × 16 blocks of the rendition that a coding block or a quantisation group covers (R123, R166). -/
def blockOffset (f : FrameSt) (n : Nat) (r : RendPlan) (b : BlockRect) : Int :=
  ((blocks16 r b).map (fun x => qOffset f n r.id (blockClass f r x.1 x.2))).foldl min 12

/-- The quantiser of a coding block in a row whose quantiser is `qi` (R123, R166, R174): AV1 has one a superblock, HEVC and VVC one a
group of 16 × 16 or a coding unit, whichever is larger. -/
def blockQuant (f : FrameSt) (n : Nat) (r : RendPlan) (qi : Nat) (b : BlockRect) : Nat :=
  let up : Nat := if r.codec = 2 then 64 else 16
  let g : BlockRect := { x := b.x / up * up, y := b.y / up * up, w := max up b.w, h := max up b.h }
  let (lo, hi) := qLimits f n r.id
  (clampI ((qi : Int) + blockOffset f n r g) lo hi).toNat

/-- The quantisers of the quantisation groups of a tile's row in raster order (R166, R174). -/
def rowQuants (f : FrameSt) (n : Nat) (r : RendPlan) (p : RendPic) (t : TileSt) (qi : Nat) : List Nat :=
  let step := if r.codec = 2 then 64 else 16
  let x0 := tileStart p.tiles.length r t.col * ctSize r.codec
  let w := tileWidth p.tiles.length r t.col
  let y0 := t.row * ctSize r.codec
  let cols := (w + step - 1) / step
  let rows := (rowHeight r t.row + step - 1) / step
  (List.range (cols * rows)).map (fun i =>
    blockQuant f n r qi { x := x0 + i % max 1 cols * step, y := y0 + i / max 1 cols * step, w := step, h := step })

/-! ### Rows, stops and tail passes (R174, R175, R181) -/

/-- The row in hand of a tile begins: its quantisers, the rows started (R92, R174). -/
def startRow (s : State) (n e : Nat) (i : WorkItem) : State :=
  match itemParts s n i with
  | none => s
  | some (f, r, p, t) =>
    if f.rescueHeld then s
    else
      let qi := rowQi f n r p t
      let s := wr s (ENG_ROW e) (mkWord [(7, 0, t.row), (8, 8, b2n (t.phase = .tail))])
      modTileOf s n i.j i.rid i.col (fun t => { t with
        running := true
        started := max t.started (t.row + 1)
        qi := if t.phase = .tail then (qLimits f n r.id).2 else qi
        quants := if t.phase = .tail then [] else rowQuants f n r p t qi })

/-- A tile restored to the checkpoint of a row (R175). -/
def restoreTile (t : TileSt) (row : Nat) : TileSt :=
  { t with
    row := row
    used := (t.ckpts.getD row (t.used, t.entropy)).1
    entropy := (t.ckpts.getD row (t.used, t.entropy)).2
    ckpts := t.ckpts.take row
    codes := t.codes.take row
    lrUsed := 0
    running := false
    phase := .tailWaiting }

/-- Whether a tile has coded its last normal row or stopped. -/
def TileSt.ended (t : TileSt) : Bool := t.phase = .parked

/-- Once every tile of a picture has ended its normal rows the budget start row is fixed, and every tile goes to the head of
the work list: for its tail pass, or for verification where no row is last-resort (R175, R181). -/
def fixStop (s : State) (n j r : Nat) : State :=
  match frameAt s n j with
  | none => s
  | some f => match f.pic r, f.rend r with
    | some p, some rp =>
      if p.decided && !p.stopFixed && p.tiles.all TileSt.ended then
        let stop := (p.tiles.map (fun t => t.stop)).foldl minRow none
        let start := minRow stop p.rescue
        let s := modPic s n j r (fun p => { p with
          stopFixed := true
          stop := stop
          tiles := p.tiles.map (fun t => restoreTile t (min t.row (start.getD (ctRows rp)))) })
        forEach (p.tiles.map (fun t => t.col)) s (fun c s =>
          pushWork s n { j := j, rid := r, col := c, cls := 1, ord := ordOf f n r })
      else s
    | _, _ => s

/-- Tiles that wait in the list and have no normal row to code end at once (R92). -/
def endUnstarted (s : State) (n j r : Nat) : State :=
  match (frameAt s n j).bind (fun f => f.pic r) with
  | none => s
  | some p =>
    if p.decided && p.rescue = some 0 && !p.stopFixed then
      let s := modPic s n j r (fun p => { p with
        tiles := p.tiles.map (fun t => if t.phase = .waiting then { t with phase := .parked } else t) })
      let s := modChan s n (fun c => { c with work := c.work.filter (fun i => !(i.j = j && i.rid = r && i.cls ≠ 1)) })
      fixStop s n j r
    else s

/-- What a tile does when the rows it codes normally have ended: it parks until the start row is fixed; where that is fixed
already the same engine goes on with the last-resort rows (R157, R175). -/
def endNormal (s : State) (n e : Nat) (i : WorkItem) (fixed : Bool) (rows : Nat) : State :=
  if fixed then
    match itemParts s n i with
    | none => s
    | some (_, _, _, t) =>
      if rows ≤ t.row then modTileOf s n i.j i.rid i.col (fun t => { t with phase := .coded, running := false })
      else startRow (modTileOf s n i.j i.rid i.col (fun t => { t with phase := .tail, running := false })) n e i
  else
    let s := modTileOf s n i.j i.rid i.col (fun t => { t with phase := .parked, running := false })
    fixStop (engRest s e) n i.j i.rid

/-- An engine takes an item (R127, R156, R175). -/
def takeItem (s : State) (n e : Nat) (i : WorkItem) : State :=
  let s := modChan s n (fun c => { c with work := c.work.erase i })
  match itemParts s n i with
  | none => s
  | some (f, r, p, t) =>
    let s := modEng s e (fun x => { x with item := some i, since := s.raw, edges := [] })
    let s := wrFld (setEngState s e 2) (ENG_STAT e) 11 8 n
    let s := wr s (ENG_TILE e) (mkWord [(5, 0, i.rid), (13, 8, i.col), (14, 14, b2n t.reissued), (31, 16, f.k)])
    if i.cls = 1 then
      if ctRows r ≤ t.row then modTileOf s n i.j i.rid i.col (fun t => { t with phase := .coded })
      else startRow (modTileOf s n i.j i.rid i.col (fun t => { t with phase := .tail })) n e i
    else
      let s := modTileOf s n i.j i.rid i.col (fun t => { t with phase := .coding })
      if p.limit (ctRows r) ≤ t.row then endNormal s n e i p.stopFixed (ctRows r) else startRow s n e i

/-- The references of a rendition's picture that are readable, nearest first, with their distances (R142, R155). -/
def readableRefs (s : State) (n : Nat) (f : FrameSt) (r : Nat) : List (Nat × Picture) :=
  f.refs.filterMap (fun k =>
    ((chan s n).recons.find? (fun x => x.rid = r && x.slice = f.sliceSeq && x.k = k)).map (fun x => (f.k - k, x.pic)))

/-- The coded tiles of the nearest reference of a rendition's picture, from which temporal predictors are formed (R135, R137, R142). -/
def colocatedOf (s : State) (n : Nat) (f : FrameSt) (r : Nat) : List (List RowCode) :=
  ((f.refs.head?.bind (fun k => (chan s n).recons.find? (fun x => x.rid = r && x.slice = f.sliceSeq && x.k = k))).map (fun x => x.codes)).getD []

/-- Whether the rows of column tile `col` of a picture are readable: the tile is verified and the edge passes that cover it have run, those
of its left and of its right edge (R154, R155). -/
def RendPic.tileReadable (p : RendPic) (col : Nat) : Bool :=
  p.tiles.any (fun t => t.col = col && t.phase = .verified) && (col = 0 || p.edges.contains (col - 1)) &&
    (p.tiles.length ≤ col + 1 || p.edges.contains col)

/-- Whether the rows of a tile's own columns are readable in every reference of its picture (R155). -/
def columnReadable (s : State) (n : Nat) (f : FrameSt) (r col : Nat) : Bool :=
  f.refs.all (fun k =>
    (chan s n).recons.any (fun x => x.rid = r && x.slice = f.sliceSeq && x.k = k) ||
      (chan s n).frames.any (fun g => g.sliceSeq = f.sliceSeq && g.k = k && ((g.pic r).map (fun p => p.tileReadable col)).getD false))

/-- Whether an engine codes for a frame: one of the clusters its slice has; once none of those serves the channel any more, any engine
of the channel (R64, R103, R160; DEDUCED, log entry 62). -/
def servesFrame (s : State) (n e : Nat) (f : FrameSt) : Bool :=
  f.plan.clusters.contains (e / 8) || !(aliveEngines s n).any (fun x => f.plan.clusters.contains (x / 8))

/-- The picture that a rendition codes: the composed picture or the scaled one of its resolution, which all renditions of the resolution
share (R125). -/
def sourceOf (f : FrameSt) (r : RendPlan) : Option Picture := if r.res = 0 then f.composed else mget f.scaled r.res

/-- Whether an item's inputs are there, its references readable, and an engine may take it (R86, R125, R155, R156, R170, R443). -/
def takeable (s : State) (n e : Nat) (i : WorkItem) : Bool :=
  match itemParts s n i with
  | none => false
  | some (f, r, p, t) =>
    servesFrame s n e f && p.decided && !f.rescueHeld && f.field.isSome && (sourceOf f r).isSome && columnReadable s n f r.id i.col &&
      (t.avoid ≠ some e || aliveEngines s n = [e])

/-! ### Re-issue and withdrawal (R156 to R160) -/

/-- A tile is discarded and goes to the head of the work list (R156). -/
def reissue (s : State) (n e : Nat) (i : WorkItem) : State :=
  let s := modTileOf s n i.j i.rid i.col (fun t => { t with
    phase := .waiting
    row := 0
    running := false
    ckpts := []
    used := 0
    entropy := []
    codes := []
    bytes := []
    lrUsed := 0
    stop := none
    avoid := some e
    reissued := true })
  pushWork s n { i with cls := 0 }

/-- Edge passes are run: the covered rows are readable (R154, R155). -/
def passEdges (s : State) (n : Nat) (es : List WorkItem) : State :=
  forEach es s (fun i s => modPic s n i.j i.rid (fun p => { p with edges := i.col :: p.edges }))

/-- Work of the normally coded rows of a tile, in WU times 2^16 (R89, R90, R163; log entry 59). -/
def tileWork (r : RendPlan) (p : RendPic) (t : TileSt) : Nat :=
  tileWidth p.tiles.length r t.col * sumTo (p.limit (ctRows r)) (rowHeight r) * codecCost r.codec * effQ8 p.effort

/-- work(j) of a fully coded frame: the WU of each rendition's normally coded rows, summed (R89, R90). -/
def frameWork (f : FrameSt) : Nat :=
  f.rends.foldl (fun a p => match f.rend p.id with
    | none => a
    | some r => a + (p.tiles.foldl (fun b t => b + tileWork r p t) 0) / 65536) 0

/-- Whether a picture's tiles are verified and its edge passes run: its reconstruction is readable (R155). -/
def RendPic.readable (p : RendPic) : Bool :=
  p.decided && p.tiles.all (fun t => t.phase = .verified) && p.tiles.length ≤ p.edges.length + 1

/-- The reconstructions that frames still refer to, or will: those of the window and those that a frame names (R142). -/
def keptRecons (c : Chan) : List RefFrame :=
  c.recons.filter (fun x => c.window.any (fun w => w.1 = x.k) || c.frames.any (fun f => f.sliceSeq = x.slice && f.refs.contains x.k))

/-- A picture's reconstruction becomes readable once its tiles are verified and its edge passes run. -/
def enterRecon (s : State) (n : Nat) (f : FrameSt) (p : RendPic) : State :=
  if p.readable && !(chan s n).recons.any (fun x => x.rid = p.id && x.slice = f.sliceSeq && x.k = f.k) then
    let codec := ((f.rend p.id).map (fun r => r.codec)).getD 0
    let refs := (readableRefs s n f p.id).map (fun x => x.2)
    let codes := p.tiles.map (fun t => t.codes)
    modChan s n (fun c => { c with
      recons := keptRecons c ++ [{ rid := p.id, slice := f.sliceSeq, k := f.k, pic := Config.reconstruct codec codes refs, codes := codes }] })
  else s

/-- Reconstructions that have become readable are entered (R155). A frame all of whose tiles are verified and whose edge passes are run is
fully coded: the governor measures it, unless it holds a later one (R89). -/
def measureFrame (s : State) (n j : Nat) : State :=
  match frameAt s n j with
  | none => s
  | some f =>
    let s := forEach f.rends s (fun p s => enterRecon s n f p)
    if f.started && !f.measuredIn && f.rends.all RendPic.readable then
      let s := modFrame s n j (fun f => { f with measuredIn := true })
      let older := match (chan s n).measured with
        | none => false
        | some m => f.sliceSeq < m.slice || (f.sliceSeq = m.slice && f.k < m.k)
      if older then s
      else modChan s n (fun c => { c with
        measured := some { slice := f.sliceSeq, k := f.k, busy := f.busy, work := frameWork f, rescued := f.rescued } })
    else s

/-- What an engine in CODING has in hand leaves it: a tile is discarded and re-issued, counted (R156, R162, R163); a verified
tile stays verified (R160) and the edge passes still to run are counted as run, since the manual names no other engine for
them (log entry 14). -/
def dropTile (s : State) (e : Nat) : State :=
  let x := eng s e
  match x.item with
  | none => s
  | some i =>
    let n := rdFld s (ENG_STAT e) 11 8
    let s := chargeBusy s e
    let s := modEng s e (fun x => { x with item := none, edges := [] })
    if x.edges.isEmpty then
      let s := reissue s n e i
      let s := count s (ENG_REISSUE_CNT e)
      setEvt (count s (CL_REISSUE (e / 8))) (CL_EVT (e / 8)) 1
    else measureFrame (passEdges s n x.edges) n i.j

/-- Record a parity event of an engine and report it to its fault class (R156, R163, R164). -/
def recordParity (s : State) (e element kind : Nat) : State :=
  let s := wrRaw s (ENG_FAULT_TIME_LO e) (ENG_FAULT_TIME_HI e) s.raw
  let site := mkWord [(3, 0, element), (6, 4, kind)]
  let s := reportFault (wr s (ENG_FAULT_SITE e) site) 3 e site
  setEvt (count s (ENG_PARITY_CNT e)) (CL_EVT (e / 8)) 0

/-- An engine enters CHECK (R153, R156). -/
def enterCheck (s : State) (e : Nat) : State :=
  setEngState (wrBit (modEng s e (fun x => { x with since := s.raw })) (ENG_STAT e) 3 false) e 3

/-- The channel is left with no engine: EVT.NO_ENGINE, the immediate lasting fault, nothing further coded (R158). -/
def noEngine (s : State) (n e : Nat) : State :=
  let s := setEvt s (CL_EVT (e / 8)) 4
  let s := modChan s n (fun c => { c with dead := true, work := [] })
  immediateFault s 0x0305 n [n] (wordOf e)

/-- An engine is withdrawn by a lasting fault of its own (R158, R456); `report` where the withdrawal itself reports the
lasting fault of the channel. -/
def withdrawEngine (s : State) (e : Nat) (report : Bool) : State :=
  if engState s e = 4 then s
  else
    let assigned := rdBit s (CL_STAT (e / 8)) 4
    let n := engChannel s e
    let s := if engState s e = 2 then dropTile s e else s
    let s := setEngState (wrBit s (ENG_STAT e) 3 false) e 4
    let s := setEvt s (CL_EVT (e / 8)) 2
    let s := enter s 0x0302 e (if assigned then [n] else []) true s.raw 0
    let s := if assigned && report then lastingFault s [n] else s
    if assigned && engineCount s n = 0 && !(chan s n).dead then noEngine s n e else s

/-! ### Verification (R155) -/

/-- Whether every tile of a picture is verified (R155). -/
def RendPic.verified (p : RendPic) : Bool := p.decided && p.tiles.all (fun t => t.phase = .verified)

/-! ### The rate decision (R170 to R173) -/

/-- Make the rate decision of a picture. -/
def decideRate (s : State) (n : Nat) (f : FrameSt) (r : RendPlan) (p : RendPic) : State :=
  let c := chan s n
  let m := modelFor c f r
  let (t, q) := rateOf c f n r m
  let tn := p.tiles.length
  let ws := p.tiles.map (fun x => tileCx f tn r x.col + 1)
  let tot := ws.foldl (fun a v => a + v) 0
  let pool := m.b - r.hdrMax - r.lrMax
  let qmax := q = (qLimits f n r.id).2
  let s := showModel (putModel s n m) n m
  let s := onlyIf qmax s (fun s => setEvt (count s (CH_QMAX_CNT n)) (CH_RC_EVT n) 1)
  let s := modPic s n f.j r.id (fun p => { p with
    decided := true
    b := m.b
    a := arrival r.rate f.k f.grid
    target := t
    qi := q
    tiles := p.tiles.map (fun x =>
      let w := tileCx f tn r x.col + 1
      { x with
        cap := resBits tn r f.idr x.col 0 + pool * w / max 1 tot
        soft := (t - r.hdrMax) * w / max 1 tot }) })
  endUnstarted s n f.j r.id

/-! ### The rescue decision (R92, R157, R443) -/

/-- The rescue start row of a picture that is not fully coded: one more than the highest row started in any tile (R92). -/
def rescueRow (r : RendPlan) (p : RendPic) : Option Nat :=
  let h := p.tiles.foldl (fun a t => max a t.started) 0
  if h = ctRows r then none else some h

/-- Fix the rescue row of a picture, counted where rows are rescued (R92). -/
def fixRescue (s : State) (n j r : Nat) (row : Option Nat) : State :=
  let s := modPic s n j r (fun p => { p with rescueFixed := true, rescue := row })
  let s := match row with
    | none => s
    | some _ =>
      let s := setEvt (count (count s (CH_RESCUE_CNT n)) (CH_REN_RESCUE n r)) (CH_EVT n) 0
      modFrame s n j (fun f => { f with rescued := true })
  endUnstarted s n j r

/-- Whether every tile of a picture is coded (R92). -/
def RendPic.coded (p : RendPic) : Bool := p.decided && p.tiles.all (fun t => t.phase = .coded || t.phase = .verified)

/-- The device's own rescue decision for a frame (R92). -/
def rescueFrame (s : State) (n : Nat) (f : FrameSt) : State :=
  let s := modFrame s n f.j (fun f => { f with rescueDone := true, rescueHeld := false })
  forEach f.rends s (fun p s =>
    match f.rend p.id with
    | none => s
    | some r => if p.coded then modPic s n f.j p.id (fun p => { p with rescueFixed := true }) else fixRescue s n f.j p.id (rescueRow r p))

/-- The body of a RESCUE notice (R443). -/
def rescueBytes (f : FrameSt) : List Byte :=
  leBytes 8 f.k ++ leBytes 1 f.rends.length ++ zeros 7 ++ padUp 8 ((f.inIdOrder.map (fun p => leBytes 2 (rowOrNone p.rescue))).flatten)

/-- The Bellwether sends a RESCUE notice at the rescue instant of every frame (R443). -/
def sendRescue (s : State) (n j : Nat) : State :=
  if role s = 1 then
    match frameAt s n j with
    | none => s
    | some f => sendMule s 0x11 (BitVec.ofNat 8 n) (rescueBytes f)
  else s

/-- A tile whose engine waited for a notice goes on: its row begins, or its normal rows have ended (R443). -/
def resumeTiles (s : State) (n j : Nat) : State :=
  forEach (List.range 128) s (fun e s =>
    match (eng s e).item with
    | none => s
    | some i =>
      if i.j = j && engState s e = 2 && rdFld s (ENG_STAT e) 11 8 = n then
        match itemParts s n i with
        | none => s
        | some (_, r, p, t) =>
          if t.running then s
          else if t.phase = .coding then
            if p.limit (ctRows r) ≤ t.row then endNormal s n e i p.stopFixed (ctRows r) else startRow s n e i
          else if t.phase = .tail then startRow s n e i
          else s
      else s)

/-- Whether a frame's pictures may be sized and packaged: on a standby not before the notice of their rescue has come (R443). -/
def noticeIn (s : State) (n : Nat) (f : FrameSt) : Bool :=
  !f.rescueHeld && (role s ≠ 2 || f.rescueDone || (chan s n).notices.any (fun x => x.1 = f.k))

/-- Apply the start rows of a notice to a frame of the standby; a row that a tile has already reached is late and diverges the
channel (R443). -/
def applyNotice (s : State) (n : Nat) (f : FrameSt) (rows : List Nat) : State :=
  let s := modFrame s n f.j (fun f => { f with rescueDone := true, rescueHeld := false })
  let s := forEach (f.inIdOrder.zip rows) s (fun (x : RendPic × Nat) s =>
    let late := x.2 ≠ 0xFFFF && x.1.tiles.any (fun t => x.2 < t.started)
    let s := onlyIf late s (fun s => diverge s n 0x3)
    fixRescue s n f.j x.1.id (if x.2 = 0xFFFF then none else some x.2))
  resumeTiles s n f.j

/-! ### Clusters change hands (R64, R153, R164) -/

/-- A cluster serves no channel any more: its engines are unassigned unless withdrawn or down. -/
def freeCluster (s : State) (c : Nat) : State :=
  let s := wrBit (wrFld s (CL_STAT c) 3 0 0) (CL_STAT c) 4 false
  let s := if rdFld s (CL_SCT_STAT c) 1 0 = 3 then s else wr s (CL_SCT_STAT c) 0
  forEach ((List.range 8).map (fun i => 8 * c + i)) s (fun e s =>
    if engState s e = 1 then setEngState s e 0 else s)

/-- Clusters of an earlier slice of a channel are free once no frame that they code is unfinished (R64). -/
def settleRelease (s : State) (n : Nat) : State :=
  let c := chan s n
  let busy (k : Nat) : Bool := c.frames.any (fun f => f.plan.clusters.contains k && !f.measuredIn)
  let s := modChan s n (fun c => { c with releasing := c.releasing.filter busy })
  forEach (c.releasing.filter (fun k => !busy k)) s (fun k s => freeCluster s k)

end Sys2Proof.Machine
end

