-- ==== Sys2Proof/Machine/Access.lean ====
section
/-!
DEFINITION. The access unit of a picture: profiles and levels (R132), the values of its parameter sets, SEI messages, metadata OBUs and
headers (R133 to R147, R177), their order (R145), their bytes, and the bound HDR_MAX on all but tile data and filler (R167). The manual
gives values and orders; how a codec's syntax writes them is its standard's, `Config.spell` (log entry 66).
-/
namespace Sys2Proof.Machine

/-! ### Levels (R132)

The limits of each level are the standards' (PRESUMED, log entry 66), but for those of the highest level, which R132 gives. -/

/-- A level: the value signalled, the greatest luma picture size and sample rate, the bit rate in kbit/s, tile columns. -/
structure LevelRow where
  idc : Nat
  size : Nat
  rate : Nat
  kbits : Nat
  cols : Nat
  deriving DecidableEq, Repr

/-- The levels of HEVC's Main tier. -/
def hevcLevels : List LevelRow :=
  [⟨30, 36864, 552960, 128, 1⟩, ⟨60, 122880, 3686400, 1500, 1⟩, ⟨63, 245760, 7372800, 3000, 1⟩, ⟨90, 552960, 16588800, 6000, 2⟩,
    ⟨93, 983040, 33177600, 10000, 3⟩, ⟨120, 2228224, 66846720, 12000, 5⟩, ⟨123, 2228224, 133693440, 20000, 5⟩,
    ⟨150, 8912896, 267386880, 25000, 10⟩, ⟨153, 8912896, 534773760, 40000, 10⟩, ⟨156, 8912896, 1069547520, 60000, 10⟩,
    ⟨180, 35651584, 1069547520, 60000, 20⟩, ⟨183, 35651584, 2139095040, 120000, 20⟩, ⟨186, 35651584, 4278190080, 240000, 20⟩]

/-- The levels of VVC's Main tier. -/
def vvcLevels : List LevelRow :=
  [⟨16, 36864, 552960, 128, 1⟩, ⟨32, 122880, 3686400, 1500, 1⟩, ⟨35, 245760, 7372800, 3000, 1⟩, ⟨48, 552960, 16588800, 6000, 2⟩,
    ⟨51, 983040, 33177600, 10000, 3⟩, ⟨64, 2228224, 66846720, 12000, 5⟩, ⟨67, 2228224, 133693440, 20000, 5⟩,
    ⟨80, 8912896, 267386880, 25000, 10⟩, ⟨83, 8912896, 534773760, 40000, 10⟩, ⟨86, 8912896, 1069547520, 60000, 10⟩,
    ⟨96, 35651584, 1069547520, 80000, 20⟩, ⟨99, 35651584, 2139095040, 120000, 20⟩, ⟨102, 35651584, 4278190080, 180000, 20⟩]

/-- The levels of AV1's Main tier, with the decode rates. -/
def av1Levels : List LevelRow :=
  [⟨0, 147456, 5529600, 1500, 4⟩, ⟨1, 278784, 10454400, 3000, 4⟩, ⟨4, 665856, 24969600, 6000, 6⟩, ⟨5, 1065024, 39938400, 10000, 6⟩,
    ⟨8, 2359296, 77856768, 12000, 8⟩, ⟨9, 2359296, 155713536, 20000, 8⟩, ⟨12, 8912896, 273715200, 30000, 8⟩,
    ⟨13, 8912896, 547430400, 40000, 8⟩, ⟨14, 8912896, 1094860800, 60000, 8⟩, ⟨15, 8912896, 1176502272, 60000, 8⟩,
    ⟨16, 35651584, 1176502272, 60000, 16⟩, ⟨17, 35651584, 2189721600, 100000, 16⟩, ⟨18, 35651584, 4379443200, 160000, 16⟩,
    ⟨19, 35651584, 4706009088, 160000, 64⟩]

/-- The bits a second that a level's rate allows: in NAL HRD units of 1,100 bits, 1,833 for Main 4:2:2 10, of 1,100 in VVC, of 1,000 in
AV1. -/
def bitUnit (r : RendPlan) : Nat := if r.codec = 2 then 1000 else if r.c422 then 1833 else 1100

/-- The lowest level whose limits a rendition meets; none where it meets none (R132). Every rendition has one tile row. -/
def levelOf (p : ChannelPlan) (r : RendPlan) : Option Nat :=
  ((if r.codec = 1 then hevcLevels else if r.codec = 2 then av1Levels else vvcLevels).find? (fun l =>
    codedW r * codedH r ≤ l.size && codedW r * codedH r * 1000000000 * p.tfDen ≤ l.rate * p.tfNum && r.rate ≤ l.kbits * bitUnit r &&
      tileCount (planEngines p) r ≤ l.cols)).map (fun l => l.idc)

/-- The signalled profile: general_profile_idc 1, 2 or 4 for HEVC, 1 for VVC; seq_profile 0 for AV1 (R132). -/
def profileOf (r : RendPlan) : Nat := if r.codec = 2 then 0 else if r.codec = 3 then 1 else if r.c422 then 4 else if r.bits10 then 2 else 1

/-! ### Values of the parameter sets (R132 to R135, R137, R139, R142, R143, R147, R177) -/

/-- Syntax elements with their values. -/
abbrev Values := List (String × Int)

/-- The primaries, transfer and matrix of a colour description: 0 SDR BT.709, 1 SDR BT.2020, 2 PQ, 3 HLG (R143). -/
def colourCodes (c : Nat) : Nat × Nat × Nat :=
  match c with
  | 0 => (1, 1, 1)
  | 1 => (9, 1, 9)
  | 2 => (9, 16, 9)
  | _ => (9, 18, 9)

/-- num_units_in_tick / time_scale: the frame period in seconds in lowest terms (R177). -/
def tickOf (p : ChannelPlan) : Nat × Nat :=
  let d := p.tfDen * 1000000000
  let g := max 1 (Nat.gcd p.tfNum d)
  (p.tfNum / g, d / g)

/-- The columns of a tile in coding-tree units. -/
def tileCols (t : Nat) (r : RendPlan) (i : Nat) : Nat := tileStart t r (i + 1) - tileStart t r i

/-- The widths of the first `m` of `t` tiles, less one (R126, R133): HEVC signals those of all but the last, AV1 and VVC those of all. -/
def columnWidths (name : String) (m t : Nat) (r : RendPlan) : Values :=
  (List.range m).map (fun i => (name, ((tileCols t r i - 1 : Nat) : Int)))

/-- The VUI of HEVC and VVC, and its HRD (R143, R177). -/
def vuiValues (p : ChannelPlan) (r : RendPlan) : Values :=
  let c := colourCodes p.colour
  let t := tickOf p
  ([("video_full_range_flag", 0), ("colour_primaries", (c.1 : Nat)), ("transfer_characteristics", (c.2.1 : Nat)),
    ("matrix_coeffs", (c.2.2 : Nat)), ("chroma_sample_loc_type_top_field", 0), ("chroma_sample_loc_type_bottom_field", 0),
    ("num_units_in_tick", (t.1 : Nat)), ("time_scale", (t.2 : Nat)), ("nal_hrd_parameters_present_flag", 1),
    ("vcl_hrd_parameters_present_flag", 0), ("cpb_cnt_minus1", 0), ("bit_rate", (r.rate : Nat)), ("cpb_size", (r.cpb : Nat)),
    ("cbr_flag", (b2n (r.mode = 1) : Nat))] : Values) ++ (if r.codec = 1 then [("au_cpb_removal_delay_length_minus1", 31)] else [])

/-- The constraint flags of general_profile_idc 4 that make it Main 4:2:2 10 (R132; their values are H.265's, PRESUMED, log entry 66). -/
def rangeFlags (r : RendPlan) : Values :=
  if r.codec = 1 && r.c422 then
    [("general_max_12bit_constraint_flag", 1), ("general_max_10bit_constraint_flag", 1), ("general_max_8bit_constraint_flag", 0),
      ("general_max_422chroma_constraint_flag", 1), ("general_max_420chroma_constraint_flag", 0),
      ("general_max_monochrome_constraint_flag", 0), ("general_intra_constraint_flag", 0),
      ("general_one_picture_only_constraint_flag", 0), ("general_lower_bit_rate_constraint_flag", 1)]
  else []

/-- Profile, level, picture size and window, depths and the picture buffer of HEVC and VVC (R132, R134, R142). -/
def sizeValues (p : ChannelPlan) (r : RendPlan) : Values :=
  ([("general_profile_idc", (profileOf r : Nat)), ("general_tier_flag", 0), ("general_level_idc", ((levelOf p r).getD 0 : Nat))] : Values) ++
    rangeFlags r ++
  ([("chroma_format_idc", if r.c422 then 2 else 1), ("pic_width_in_luma_samples", (codedW r : Nat)),
    ("pic_height_in_luma_samples", (codedH r : Nat)), ("conf_win_right_offset", ((codedW r - r.w) / 2 : Nat)),
    ("conf_win_bottom_offset", ((codedH r - r.h) / (if r.c422 then 1 else 2) : Nat)), ("bit_depth_minus8", if r.bits10 then 2 else 0),
    ("sps_max_dec_pic_buffering_minus1", 4), ("sps_max_sub_layers_minus1", ((p.tl - 1 : Nat) : Int))] : Values)

/-- The values of HEVC's SPS (R132 to R135, R142, R143, R177). -/
def hevcSps (p : ChannelPlan) (r : RendPlan) : Values :=
  sizeValues p r ++
    [("log2_min_luma_coding_block_size_minus3", 0), ("log2_diff_max_min_luma_coding_block_size", 3),
      ("log2_min_luma_transform_block_size_minus2", 0), ("log2_diff_max_min_luma_transform_block_size", 3),
      ("max_transform_hierarchy_depth_inter", 2), ("max_transform_hierarchy_depth_intra", 2), ("scaling_list_enabled_flag", 0),
      ("amp_enabled_flag", 1), ("sample_adaptive_offset_enabled_flag", 1), ("pcm_enabled_flag", 0),
      ("long_term_ref_pics_present_flag", 0), ("sps_temporal_mvp_enabled_flag", 1), ("field_seq_flag", 0),
      ("transform_skip_rotation_enabled_flag", 0), ("transform_skip_context_enabled_flag", 0), ("implicit_rdpcm_enabled_flag", 0),
      ("explicit_rdpcm_enabled_flag", 0), ("extended_precision_processing_flag", 0), ("persistent_rice_adaptation_enabled_flag", 0),
      ("cabac_bypass_alignment_enabled_flag", 0)] ++ vuiValues p r

/-- The values of HEVC's PPS (R133, R135, R141, R154, R166). -/
def hevcPps (t : Nat) (r : RendPlan) : Values :=
  [("tiles_enabled_flag", 1), ("num_tile_columns_minus1", ((t - 1 : Nat) : Int)), ("num_tile_rows_minus1", 0), ("uniform_spacing_flag", 0)] ++
    columnWidths "column_width_minus1" (t - 1) t r ++
    [("loop_filter_across_tiles_enabled_flag", 1), ("entropy_coding_sync_enabled_flag", 0), ("dependent_slice_segments_enabled_flag", 0),
      ("cu_qp_delta_enabled_flag", 1), ("diff_cu_qp_delta_depth", 2), ("pps_cb_qp_offset", 0), ("pps_cr_qp_offset", 0),
      ("weighted_pred_flag", 1), ("weighted_bipred_flag", 1), ("transform_skip_enabled_flag", 1), ("log2_max_transform_skip_block_size_minus2", 0),
      ("sign_data_hiding_enabled_flag", 1), ("transquant_bypass_enabled_flag", 0), ("constrained_intra_pred_flag", 0),
      ("cross_component_prediction_enabled_flag", 0)]

/-- The values of VVC's SPS (R132 to R134, R137, R142, R143, R166, R177). -/
def vvcSps (p : ChannelPlan) (r : RendPlan) : Values :=
  sizeValues p r ++
    [("sps_log2_ctu_size_minus5", 2), ("sps_qtbtt_dual_tree_intra_flag", 1), ("sps_mrl_enabled_flag", 1), ("sps_mip_enabled_flag", 1),
      ("sps_cclm_enabled_flag", 1), ("sps_isp_enabled_flag", 0), ("sps_mts_enabled_flag", 1), ("sps_lfnst_enabled_flag", 1),
      ("sps_joint_cbcr_enabled_flag", 1), ("sps_dep_quant_enabled_flag", 1), ("sps_sign_data_hiding_enabled_flag", 0),
      ("sps_sbt_enabled_flag", 0), ("sps_mmvd_enabled_flag", 1), ("sps_affine_enabled_flag", 1), ("sps_6param_affine_enabled_flag", 1),
      ("sps_affine_prof_enabled_flag", 1), ("sps_sbtmvp_enabled_flag", 1), ("sps_ciip_enabled_flag", 1), ("sps_gpm_enabled_flag", 1),
      ("sps_bcw_enabled_flag", 1), ("sps_amvr_enabled_flag", 1), ("sps_dmvr_enabled_flag", 0), ("sps_bdof_enabled_flag", 0),
      ("sps_sao_enabled_flag", 1), ("sps_alf_enabled_flag", 1), ("sps_ccalf_enabled_flag", 1), ("sps_lmcs_enabled_flag", 0),
      ("sps_palette_enabled_flag", 0), ("sps_ibc_enabled_flag", 0), ("sps_act_enabled_flag", 0), ("sps_bdpcm_enabled_flag", 0),
      ("sps_ref_pic_resampling_enabled_flag", 0), ("sps_subpic_info_present_flag", 0), ("sps_gdr_enabled_flag", 0),
      ("sps_long_term_ref_pics_flag", 0)] ++ vuiValues p r

/-- The values of VVC's PPS (R133, R137, R141, R154, R166). -/
def vvcPps (t : Nat) (r : RendPlan) : Values :=
  [("pps_no_pic_partition_flag", 0), ("pps_num_exp_tile_columns_minus1", ((t - 1 : Nat) : Int)), ("pps_num_exp_tile_rows_minus1", 0)] ++
    columnWidths "pps_tile_column_width_minus1" t t r ++
    [("pps_rect_slice_flag", 0), ("pps_loop_filter_across_tiles_enabled_flag", 1), ("pps_mixed_nalu_types_in_pic_flag", 0),
      ("pps_cu_qp_delta_enabled_flag", 1), ("pps_cb_qp_offset", 0), ("pps_cr_qp_offset", 0), ("pps_weighted_pred_flag", 1),
      ("pps_weighted_bipred_flag", 1), ("pps_cu_chroma_qp_offset_list_enabled_flag", 0)]

/-- AV1's buffer delays: decoder_buffer_delay and encoder_buffer_delay, from B_0 (R177). -/
def av1Delays (r : RendPlan) (b0 : Nat) : Nat × Nat :=
  let d := b0 * 90000 / max 1 r.rate
  (d, r.cpb * 90000 / max 1 r.rate - d)

/-- The values of AV1's sequence header (R132, R136, R142, R143, R147, R177): an operating point i holds layers 0 to T - 1 - i. -/
def av1Sequence (p : ChannelPlan) (r : RendPlan) (b0 : Nat) : Values :=
  let c := colourCodes p.colour
  let t := tickOf p
  let d := av1Delays r b0
  ([("seq_profile", 0), ("seq_tier", 0), ("seq_level_idx", ((levelOf p r).getD 0 : Nat)), ("max_frame_width_minus_1", ((r.w - 1 : Nat) : Int)),
    ("max_frame_height_minus_1", ((r.h - 1 : Nat) : Int)), ("high_bitdepth", if r.bits10 then 1 else 0), ("mono_chrome", 0),
    ("use_128x128_superblock", 0), ("enable_filter_intra", 1), ("enable_intra_edge_filter", 1), ("enable_interintra_compound", 0),
    ("enable_masked_compound", 0), ("enable_warped_motion", 0), ("enable_dual_filter", 0), ("enable_jnt_comp", 1),
    ("seq_force_screen_content_tools", 0), ("enable_superres", 0), ("enable_cdef", 1), ("enable_restoration", 1),
    ("color_range", 0), ("color_primaries", (c.1 : Nat)), ("transfer_characteristics", (c.2.1 : Nat)), ("matrix_coefficients", (c.2.2 : Nat)),
    ("chroma_sample_position", 1), ("film_grain_params_present", (b2n r.filmGrain : Nat)), ("timing_info_present_flag", 1),
    ("num_units_in_display_tick", (t.1 : Nat)), ("time_scale", (t.2 : Nat)), ("equal_picture_interval", 1),
    ("decoder_model_info_present_flag", 1), ("buffer_delay_length_minus_1", 31), ("operating_points_cnt_minus_1", ((p.tl - 1 : Nat) : Int))] : Values) ++
    ((List.range p.tl).map (fun i =>
      [("operating_point_idc", ((256 + 2 ^ (p.tl - i) - 1 : Nat) : Int)), ("decoder_model_present_for_this_op", 1),
        ("decoder_buffer_delay", (d.1 : Nat)), ("encoder_buffer_delay", (d.2 : Nat)), ("low_delay_mode_flag", 0)])).flatten

/-! ### Values of a picture (R133, R139, R141, R142, R147, R150, R166, R177) -/

/-- d of R177: frames from the last picture that carried a buffering period; none at the first of the stream. -/
def removalDelay (d : Option Nat) : Nat :=
  match d with
  | none => 0
  | some x => (x + 2 ^ 32 - 1) % 2 ^ 32

/-- A syntax element of a list, by reference index. -/
def indexed (name : String) (i : Nat) : String := name ++ "[" ++ Nat.repr i ++ "]"

/-- The flags and weights of one list: on a fade those of reference index 0, default weights on every other index and for chroma; else every
flag 0 (R141). -/
def listWeights (l : String) (n : Nat) (w : Option Int) : Values :=
  (List.range n).flatMap (fun i =>
    let on := w.filter (fun _ => i = 0)
    ([(indexed ("luma_weight_" ++ l ++ "_flag") i, (b2n on.isSome : Nat)), (indexed ("chroma_weight_" ++ l ++ "_flag") i, 0)] : Values) ++
      (match on with
        | some v => [(indexed ("luma_weight_" ++ l) i, v), (indexed ("luma_offset_" ++ l) i, 0)]
        | none => []))

/-- The prediction weights of both lists of a picture (R141). -/
def weightValues (codec : Nat) (f : FrameSt) : Values :=
  let w := f.field.bind (fadeWeight codec)
  (if w.isSome then [("luma_log2_weight_denom", 6)] else []) ++ listWeights "l0" f.refs.length w ++ listWeights "l1" f.refs.length w

/-- The distances of a picture's references, nearest first (R142). -/
def refDistances (f : FrameSt) : List Nat := f.refs.map (fun k => f.k - k)

/-- The header values of a slice of HEVC or VVC: both lists of a B slice hold the references nearest first (R133, R135, R141, R142). The
picture order count is the distance from the last IDR, and an entry point takes the 32 bits at which R167 counts it (PRESUMED and DEDUCED, log
entry 66). -/
def sliceValuesOf (r : RendPlan) (f : FrameSt) (p : RendPic) : Values :=
  ([("slice_type", if f.idr then 2 else 0), ("slice_pic_order_cnt_lsb", (f.gopPos % 65536 : Nat)),
    ("slice_qp", codecQuant r.codec r.bits10 p.qi), ("num_entry_point_offsets", ((p.tiles.length - 1 : Nat) : Int)),
    ("offset_len_minus1", 31)] : Values) ++
    ((p.tiles.take (p.tiles.length - 1)).map (fun t => ("entry_point_offset_minus1", ((t.bytes.length - 1 : Nat) : Int))) : Values) ++
    (if f.idr then []
    else
      [("num_ref_idx_l0_active_minus1", ((f.refs.length - 1 : Nat) : Int)), ("num_ref_idx_l1_active_minus1", ((f.refs.length - 1 : Nat) : Int))] ++
        ((refDistances f).map (fun (d : Nat) => ("delta_poc", -(d : Int))) : Values) ++ weightValues r.codec f ++
        (if r.codec = 1 then ([("slice_temporal_mvp_enabled_flag", 1), ("collocated_from_l0_flag", 1), ("collocated_ref_idx", 0)] : Values)
        else ([("ph_non_ref_pic_flag", (b2n f.nonRef : Nat))] : Values))) ++
    (if r.codec = 3 then [(if f.idr then "ph_cu_qp_delta_subdiv_intra_slice" else "ph_cu_qp_delta_subdiv_inter_slice", 6)] else [])

/-- ref_frame_idx of AV1: the slots of LAST, LAST2, LAST3 and GOLDEN, nearest first, the remaining names and BWDREF, ALTREF2 and ALTREF
being the oldest (R142). -/
def refNames (f : FrameSt) : List Nat :=
  let slots := f.refs.map (fun k => (mget f.avSlots k).getD 0)
  let oldest := slots.getLastD 0
  (List.range 7).map (fun i => if i < 4 then slots.getD i oldest else oldest)

/-- The frame-wide filters of an AV1 picture: fixed from the quantiser at level 0, else searched (R138). -/
def av1Filters (p : RendPic) : Values :=
  let e := effortRow p.effort
  let base := (codecQuant 2 true p.qi).toNat
  let xs := Config.frameFilters (p.tiles.map (fun t => t.codes))
  if e.filter = 0 then
    let l : Nat := min 63 ((3 * base + 8) / 16)
    [("loop_filter_level[0]", (l : Int)), ("loop_filter_level[1]", (l : Int)), ("loop_filter_level[2]", (l : Int)),
      ("loop_filter_level[3]", (l : Int)), ("cdef_bits", 0), ("cdef_y_pri_strength[0]", ((min 15 (base / 16) : Nat) : Int)),
      ("cdef_y_sec_strength[0]", 0), ("lr_type", 0)]
  else
    let bits := if e.filter = 1 then 1 else 3
    (List.range 4).map (fun i => ("loop_filter_level", ((xs.getD i 0 % 64 : Nat) : Int))) ++ [("cdef_bits", ((bits : Nat) : Int))] ++
      (List.range (2 ^ bits)).map (fun i => ("cdef_strength", ((xs.getD (4 + i) 0 % 64 : Nat) : Int)))

/-- Film grain of an AV1 frame: with parameters in force, applied and updated with them and a seed that follows the frame (R147). -/
def grainValues (r : RendPlan) (f : FrameSt) : Values :=
  if !r.filmGrain then []
  else match f.grain with
    | some (seed, ps) =>
      [("apply_grain", 1), ("random_seed", (((seed + f.k) % 65536 : Nat) : Int)), ("update_grain", 1)] ++
        ps.map (fun b => ("film_grain_params", (b.toNat : Int)))
    | none => [("apply_grain", 0)]

/-- The header values of an AV1 frame (R133, R136, R139, R142, R147, R166, R177). -/
def av1Frame (r : RendPlan) (f : FrameSt) (p : RendPic) (d : Option Nat) : Values :=
  let t := p.tiles.length
  [("frame_type", if f.idr then 0 else 1), ("show_frame", 1), ("error_resilient_mode", 0),
    ("refresh_frame_flags", ((f.refresh : Nat) : Int)), ("uniform_tile_spacing_flag", 0)] ++
    columnWidths "width_in_sbs_minus_1" t t r ++
    ([("tile_start_and_end_present_flag", 0), ("context_update_tile_id", 0), ("tile_size_bytes_minus_1", 3),
      ("base_q_idx", codecQuant 2 r.bits10 p.qi), ("DeltaQUDc", 0), ("DeltaQUAc", 0), ("DeltaQVDc", 0), ("DeltaQVAc", 0), ("delta_q_present", 1), ("delta_q_res", 2), ("delta_lf_present", 0),
      ("segmentation_enabled", 0), ("buffer_removal_time", ((d.getD 0 : Nat) : Int))] : Values) ++
    av1Filters p ++
    (if f.idr then []
    else ((refNames f).map (fun i => ("ref_frame_idx", ((i : Nat) : Int))) : Values) ++
      ([("allow_high_precision_mv", (b2n (p.effort = 7) : Nat)), ("is_filter_switchable", 1), ("gm_type", 0)] : Values)) ++ grainValues r f

/-! ### The parts of an access unit (R144 to R147) -/

/-- Emulation prevention: 03 before a byte of at most 3 behind two zeros. `z` counts the zeros before. -/
def escapeBytes : Nat → List Byte → List Byte
  | _, [] => []
  | z, b :: bs =>
    if 2 ≤ z && b.toNat ≤ 3 then 3 :: b :: escapeBytes (if b = 0 then 1 else 0) bs
    else b :: escapeBytes (if b = 0 then z + 1 else 0) bs

/-- The SEI or OBU payload of captions: cc_data in an ATSC A/53 GA94 structure behind its country and provider codes (R146; the layout of
the structure is A/53's, PRESUMED, log entry 66). -/
def captionPayload (ts : List (BitVec 24)) : List Byte :=
  [0xB5, 0x00, 0x31, 0x47, 0x41, 0x39, 0x34, 0x03, BitVec.ofNat 8 (0xC0 + ts.length % 32), 0xFF] ++
    (ts.map (fun t => leBytes 3 t.toNat)).flatten ++ [0xFF]

/-- The captions as a codec carries them: an SEI message of payloadType 4, or a metadata OBU of type METADATA_TYPE_ITUT_T35, behind type and
size and before the trailing bits; emulation prevention as the NAL unit has it (PRESUMED, log entry 66). -/
def captionBody (codec : Nat) (ts : List (BitVec 24)) : List Byte :=
  let x := captionPayload ts
  if codec = 2 then [4] ++ x ++ [0x80] else escapeBytes 0 ([4] ++ leBytes 1 x.length ++ x ++ [0x80])

/-- The bytes of the mastering display values: eight of two bytes, two of four (R144; the layout is the SEI message's, PRESUMED, log
entry 66). -/
def masteringBytes (xs : List Nat) : List Byte :=
  ((List.range 8).map (fun i => beBytes 2 (xs.getD i 0))).flatten ++ beBytes 4 (xs.getD 8 0) ++ beBytes 4 (xs.getD 9 0)

/-- An HDR message: a prefix SEI message of its payloadType, or a metadata OBU of its type, behind type and size and before the trailing
bits (R144; PRESUMED, log entry 66). -/
def hdrBody (codec sei obu : Nat) (x : List Byte) : List Byte :=
  if codec = 2 then [BitVec.ofNat 8 obu] ++ x ++ [0x80] else escapeBytes 0 ([BitVec.ofNat 8 sei] ++ leBytes 1 x.length ++ x ++ [0x80])

/-- The type of an HDR message: payloadType, or in AV1 metadata_type, METADATA_TYPE_HDR_MDCV being 2 and METADATA_TYPE_HDR_CLL 1 (R144). -/
def hdrType (codec sei obu : Nat) : Values := if codec = 2 then [("metadata_type", (obu : Nat))] else [("payloadType", (sei : Nat))]

/-- Mastering display and content light level values (R144), in the units of the SEI messages. -/
def masteringValues (xs : List Nat) : Values := xs.map (fun x => ("mastering", ((x : Nat) : Int)))

/-- The parts that carry HDR metadata: at every IDR of a PQ or HLG rendition, with their bytes (R144); AV1's mastering display has units of
its own, so its bytes are left to `Config.spell`. -/
def hdrParts (p : ChannelPlan) (codec : Nat) (idr : Bool) : List (Part × Values × List Byte) :=
  if idr && 2 ≤ p.colour then
    (p.mdcv.toList.map (fun x => (Part.mastering, hdrType codec 137 2 ++ masteringValues x,
      if codec = 2 then [] else hdrBody codec 137 2 (masteringBytes x)))) ++
      (p.cll.toList.map (fun x => (Part.lightLevel, hdrType codec 144 1 ++
        [("max_content_light_level", ((x.1 : Nat) : Int)), ("max_pic_average_light_level", ((x.2 : Nat) : Int))],
        hdrBody codec 144 1 (beBytes 2 x.1 ++ beBytes 2 x.2))))
  else []

/-- The buffering period and picture timing of HEVC and VVC (R177). -/
def timingParts (codec : Nat) (idr : Bool) (initial : Nat) (d : Option Nat) : List (Part × Values) :=
  let delay : Int := ((removalDelay d : Nat) : Int)
  (if idr then
    [(Part.bufferingPeriod,
      if codec = 3 then
        [("bp_nal_initial_cpb_removal_delay", ((initial : Nat) : Int)), ("bp_nal_initial_cpb_removal_offset", 0),
          ("bp_concatenation_flag", 0), ("bp_cpb_removal_delay_length_minus1", 31)]
      else
        [("nal_initial_cpb_removal_delay", ((initial : Nat) : Int)), ("nal_initial_cpb_removal_offset", 0), ("concatenation_flag", 0)])]
  else []) ++
    [(Part.pictureTiming,
      if codec = 3 then [("pt_cpb_removal_delay_minus1", delay), ("pt_dpb_output_delay", 0)]
      else [("au_cpb_removal_delay_minus1", delay), ("pic_dpb_output_delay", 0)])]

/-- Whether a picture of VVC uses new ALF data: a unit of it codes with a signalled filter set (R138, R145). Every such picture counts as one
with new data, and one that uses the cross-component filter alone does not (DESIGN CHOICE, log entry 62: the manual does not say when ALF
data are new). -/
def newAlf (p : RendPic) : Bool := p.tiles.any (fun t => t.codes.any (fun c => c.units.any (fun u => 2 ≤ u.filter.alf)))

/-- A parameter set or sequence header as the image codes it: the values that R132 to R142 do not set (R134). -/
def setBytes (r : RendPlan) (x : Part) : List Byte := ((r.sets.find? (fun y => y.1 = x)).map (fun y => y.2)).getD []

/-- The parts of an access unit in the order of R145, with their values and the payloads that the manual gives whole: `m` is the model
with which the picture was decided, `d` the frames since the last buffering period. -/
def unitParts (f : FrameSt) (r : RendPlan) (p : RendPic) (b0 : Nat) (d : Option Nat) : List PartSpec :=
  let pl := f.plan
  let t := p.tiles.length
  let mk (x : Part × Values) : PartSpec := { part := x.1, tid := f.layer, values := x.2, payload := [] }
  let set_ (part : Part) (vs : Values) : PartSpec :=
    { part := part, tid := 0, values := vs, payload := setBytes r part }
  let caps : List PartSpec := if f.triplets.isEmpty then []
    else [{ part := .captions, tid := f.layer, values := hdrType r.codec 4 4, payload := captionBody r.codec f.triplets }]
  let timing := (timingParts r.codec f.idr (p.b * 90000 / max 1 r.rate) d).map mk
  let hdr := (hdrParts pl r.codec f.idr).map (fun x => ({ part := x.1, tid := f.layer, values := x.2.1, payload := x.2.2 } : PartSpec))
  let aud : PartSpec := { part := .aud, tid := f.layer, values := [("pic_type", if f.idr then 0 else 2)], payload := [] }
  if r.codec = 1 then
    [aud] ++ (if f.idr then [set_ .vps (sizeValues pl r), set_ .sps (hevcSps pl r), set_ .pps (hevcPps t r)] else []) ++ timing ++ hdr ++
      caps ++ [mk (.slice, ("first_slice_segment_in_pic_flag", 1) :: sliceValuesOf r f p)]
  else if r.codec = 3 then
    [aud] ++ (if f.idr then [set_ .sps (vvcSps pl r), set_ .pps (vvcPps t r)] else []) ++
      (if newAlf p then [mk (.aps, [("aps_params_type", 0)])] else []) ++ [mk (.pictureHeader, sliceValuesOf r f p)] ++ timing ++ hdr ++
      caps ++ [mk (.slice, sliceValuesOf r f p)]
  else
    [mk (.temporalDelimiter, [])] ++ (if f.idr then [set_ .sequenceHeader (av1Sequence pl r b0)] else []) ++ hdr ++ caps ++
      [mk (.frame, av1Frame r f p d)]

/-! ### Their bytes

NAL and OBU headers, sizes and trailing bits are the standards' (PRESUMED, log entry 66). -/

/-- NAL unit types of HEVC: the slices of a non-reference picture are TRAIL_N, of others TRAIL_R, of an IDR IDR_N_LP (R142, R145). -/
def hevcNalType (f : FrameSt) (x : Part) : Nat :=
  match x with
  | .vps => 32
  | .sps => 33
  | .pps => 34
  | .aud => 35
  | .filler => 38
  | .slice => if f.idr then 20 else if f.nonRef then 0 else 1
  | _ => 39

/-- NAL unit types of VVC: TRAIL_NUT, IDR_N_LP (R142, R145). -/
def vvcNalType (f : FrameSt) (x : Part) : Nat :=
  match x with
  | .sps => 15
  | .pps => 16
  | .aps => 17
  | .pictureHeader => 19
  | .aud => 20
  | .filler => 25
  | .slice => if f.idr then 8 else 0
  | _ => 23

/-- OBU types of AV1. -/
def obuType (x : Part) : Nat :=
  match x with
  | .sequenceHeader => 1
  | .temporalDelimiter => 2
  | .frame => 6
  | .filler => 15
  | _ => 5

/-- A number in leb128, at most eight bytes. -/
def leb128 : Nat → Nat → List Byte
  | 0, _ => []
  | n + 1, v => if v < 128 then [BitVec.ofNat 8 v] else BitVec.ofNat 8 (128 + v % 128) :: leb128 n (v / 128)

/-- A NAL unit of HEVC or VVC: two header bytes with nuh_temporal_id_plus1 = t + 1 (R142). -/
def nalUnit (codec typ tid : Nat) (body : List Byte) : List Byte :=
  (if codec = 1 then [BitVec.ofNat 8 (2 * typ), BitVec.ofNat 8 (tid + 1)] else [0, BitVec.ofNat 8 (8 * typ + tid + 1)]) ++ body

/-- An OBU of AV1 with its extension header, temporal_id = t and spatial_id 0 (R142), and its size; a temporal delimiter has no
extension. -/
def obuUnit (typ tid : Nat) (body : List Byte) : List Byte :=
  (if typ = 2 then [BitVec.ofNat 8 (8 * typ + 2)] else [BitVec.ofNat 8 (8 * typ + 6), BitVec.ofNat 8 (32 * tid)]) ++
    leb128 8 body.length ++ body

/-- A part as it stands in the access unit. -/
def partUnit (codec : Nat) (f : FrameSt) (x : Part) (tid : Nat) (body : List Byte) : List Byte :=
  if codec = 2 then obuUnit (obuType x) tid body
  else nalUnit codec (if codec = 1 then hevcNalType f x else vvcNalType f x) tid body

/-- The tiles' bytes as the slice or frame carries them, in column order (R133, R155): in AV1 each but the last behind its size less one in
four bytes. -/
def tileData (codec : Nat) (p : RendPic) : List Byte :=
  let n := p.tiles.length
  (p.tiles.zipIdx.map (fun t => (if codec = 2 && t.2 + 1 < n then leBytes 4 (t.1.bytes.length - 1) else []) ++ t.1.bytes)).flatten

/-- Whether a part carries the tiles. -/
def carriesTiles (x : Part) : Bool := x = .slice || x = .frame

/-- Whether the manual gives a part's bytes whole: captions and HDR metadata (R144, R146). -/
def wholePart (x : PartSpec) : Bool := (x.part = .captions || x.part = .mastering || x.part = .lightLevel) && !x.payload.isEmpty

/-- The bytes a part has besides the tiles' data: its values spelt, with those that the image's coded set gives, within `room` bytes. -/
def partHead (codec room : Nat) (x : PartSpec) : List Byte := if wholePart x then x.payload else (Config.spell codec x).take room

/-- The parts of an access unit with their bytes. -/
def partsWith (codec : Nat) (f : FrameSt) (p : RendPic) (xs : List (PartSpec × List Byte)) : List (Part × List Byte) :=
  xs.map (fun x => (x.1.part, partUnit codec f x.1.part x.1.tid (x.2 ++ (if carriesTiles x.1.part then tileData codec p else []))))

/-- The bytes of a list of parts. -/
def partsLength (xs : List (Part × List Byte)) : Nat := xs.foldl (fun a x => a + x.2.length) 0

/-- The tile data of a picture in bits. -/
def tileBits (p : RendPic) : Nat := 8 * p.tiles.foldl (fun a t => a + t.bytes.length) 0

/-- The filler unit with a payload of `n` bytes: FD_NUT or OBU_PADDING (R177). Its payload bytes are 0xFF and its trailing bits 0x80
(PRESUMED, log entry 11). -/
def fillerPart (codec : Nat) (f : FrameSt) (n : Nat) : Part × List Byte :=
  let body : List Byte := List.replicate n 0xFF ++ [0x80]
  (.filler, if codec = 2 then [BitVec.ofNat 8 (8 * 15 + 2)] ++ leb128 8 body.length ++ body else partUnit codec f .filler f.layer body)

/-! ### HDR_MAX (R167) and the HRD (R169) -/

/-- The parts that a rendition's access unit can carry. -/
def possibleParts (p : ChannelPlan) (r : RendPlan) : List Part :=
  let hdr := if 2 ≤ p.colour then (if p.mdcv.isSome then [Part.mastering] else []) ++ (if p.cll.isSome then [Part.lightLevel] else []) else []
  if r.codec = 1 then [.aud, .vps, .sps, .pps, .bufferingPeriod, .pictureTiming] ++ hdr ++ [.captions, .slice]
  else if r.codec = 3 then [.aud, .sps, .pps, .aps, .pictureHeader, .bufferingPeriod, .pictureTiming] ++ hdr ++ [.captions, .slice]
  else [.temporalDelimiter, .sequenceHeader] ++ hdr ++ [.captions, .frame]

/-- A body as a unit of its codec. -/
def unitBits (codec typ : Nat) (body : List Byte) : Nat := 8 * (if codec = 2 then obuUnit typ 0 body else nalUnit codec 0 0 body).length

/-- The longest coding that a part's syntax allows: it depends on the image's values but for the limits HDR_MAX, LR_MAX and Bsize, which
no header but a parameter set carries (R167; log entry 28). -/
def syntaxBound (p : ChannelPlan) (r : RendPlan) (x : Part) : Nat :=
  Config.longestSyntax { p with rends := [] } { r with hdrMax := 0, lrMax := 0, cpb := 0 } x

/-- The longest coding of a part in bits: of a parameter set and of HDR metadata its exact length; of captions that of 31 triplets; of the
VVC ALF APS 4,096; of a slice or frame its header with every entry point or tile size at 32 bits; else the longest that the part's syntax
allows under the image's values (R167; log entry 28). -/
def longestPart (p : ChannelPlan) (r : RendPlan) (x : Part) : Nat :=
  match x with
  | .vps | .sps | .pps | .sequenceHeader => unitBits r.codec 1 (setBytes r x)
  | .temporalDelimiter => 16
  | .aud => 24
  | .captions => unitBits r.codec 5 (captionBody r.codec (List.replicate 31 0))
  | .mastering => unitBits r.codec 5 (hdrBody r.codec 137 2 (masteringBytes (p.mdcv.getD [])))
  | .lightLevel => unitBits r.codec 5 (hdrBody r.codec 144 1 (beBytes 2 ((p.cll.getD (0, 0)).1) ++ beBytes 2 ((p.cll.getD (0, 0)).2)))
  | .aps => 4096
  | .slice | .frame => syntaxBound p r x + 32 * (tileCount (planEngines p) r - 1)
  | _ => syntaxBound p r x

/-- The bytes that a part may take besides its unit's header and size: what its longest coding leaves (R167). -/
def partRoom (p : ChannelPlan) (r : RendPlan) (x : Part) : Nat :=
  match x with
  | .vps | .sps | .pps | .sequenceHeader => (setBytes r x).length
  | _ => longestPart p r x / 8 - (if r.codec = 2 then 10 else 2)

/-- The access unit of a picture before filler: each part within its longest coding, so that all but tile data stays within HDR_MAX (R145,
R167, R178). -/
def accessUnit (f : FrameSt) (r : RendPlan) (p : RendPic) (b0 : Nat) (d : Option Nat) : List (Part × List Byte) :=
  partsWith r.codec f p ((unitParts f r p b0 d).map (fun x => (x, partHead r.codec (partRoom f.plan r x.part) x)))

/-- HDR_MAX as the Kylas recomputes it: every syntax structure of R145 that the rendition can carry, each at its longest (R167). -/
def hdrMaxOf (p : ChannelPlan) (r : RendPlan) : Nat := ((possibleParts p r).map (longestPart p r)).sum

/-- Whether a number has the form m × 2^e with 1 ≤ m ≤ 2^32 and base ≤ e ≤ base + 15. -/
def scaledExact (base v : Nat) : Bool := (List.range 16).any (fun i => v % 2 ^ (base + i) = 0 && 1 ≤ v / 2 ^ (base + i) && v / 2 ^ (base + i) ≤ 2 ^ 32)

/-- Condition 4 of R169: R, Bsize and ID are exactly representable; the HRD syntax of HEVC and VVC holds a rate in units of 2^6 and a size
in units of 2^4 bits or a multiple by a power of two (PRESUMED, log entry 66), and a delay of 32 bits; AV1's buffer delays are at least 1
and fit in 32 bits. `b0` is B_0. -/
def hrdExact (r : RendPlan) (b0 : Nat) : Bool :=
  if r.codec = 2 then
    let d := av1Delays r b0
    1 ≤ d.1 && d.1 < 2 ^ 32 && 1 ≤ d.2 && d.2 < 2 ^ 32
  else scaledExact 6 r.rate && scaledExact 4 r.cpb && r.initDelay < 2 ^ 32

/-! ### Sizing (R168, R172, R177, R182) -/

/-- The bytes of one filler unit with a payload: two bytes of NAL header and one of trailing bits, or the OBU header, its size
and its trailing bits. PRESUMED (log entry 11). -/
def fillerUnit (codec payload : Nat) : Nat :=
  if codec = 2 then payload + 2 + (if payload + 1 < 128 then 1 else if payload + 1 < 16384 then 2 else if payload + 1 < 2097152 then 3 else 4)
  else payload + 3

/-- The payload of the filler unit that brings a picture of `b` bits to `lo` bits: the fewest bytes; none where no filler is needed (R177). -/
def fillerPayload (codec : Nat) (b lo : Int) : Option Nat :=
  if lo ≤ b then none
  else
    let need := ((lo - b + 7).fdiv 8).toNat
    some ((((List.range 7).map (fun i => need - 6 + i)).find? (fun p => need ≤ fillerUnit codec p)).getD need)

/-- The sum over the normally coded rows of a picture of cx(t, j) (R172). -/
def normalCx (f : FrameSt) (r : RendPlan) (p : RendPic) : Nat :=
  let lim := p.limit (ctRows r)
  (p.tiles.map (fun t => sumTo lim (rowCx f p.tiles.length r t.col))).foldl (fun a v => a + v) 0

/-- alpha after a picture (R172). -/
def nextAlpha (alpha nb cn qi : Nat) : Nat :=
  if 0 < nb && 0 < cn then
    let meas := nb * 2 ^ (32 + qi / 6) / (cn * powQ (qi % 6))
    (clampI ((alpha : Int) + ((meas : Int) - alpha).fdiv 4) 1 0x7FFFFFFF).toNat
  else alpha

/-- The rate-control record of a picture (R182). -/
def rcRecord (f : FrameSt) (n : Nat) (p : RendPic) (qmax : Bool) : List Byte :=
  withCrc (leBytes 2 0x0601 ++ leBytes 1 n ++ leBytes 1 p.id ++ leBytes 4 f.k ++ leBytes 4 p.bits ++ leBytes 4 p.filler ++
    leBytes 4 p.b ++ leBytes 4 p.target ++ leBytes 1 p.qi ++
    leBytes 1 (b2n p.stop.isSome + 2 * b2n p.rescue.isSome + 4 * b2n f.idr + 8 * b2n qmax) ++ leBytes 2 (rowOrNone p.stop))

/-- The size of a picture is final: its access unit, filler, the buffer model, alpha and E, the registers and the record (R168, R171, R172,
R176, R177, R182). E moves in mode 2 alone: R171 defines A' for VBR only (DEDUCED, log
entry 62). -/
def sizePicture (s : State) (n : Nat) (f : FrameSt) (r : RendPlan) (p : RendPic) : State :=
  let m := modelFor (chan s n) f r
  let nb := p.tiles.foldl (fun a t => a + t.used) 0
  let unit := accessUnit f r p m.b0 m.sinceBp
  let raw := 8 * partsLength unit
  let pad := if r.mode = 1 then fillerPayload r.codec raw ((p.b : Int) + p.a - ((r.cpb : Int) - 1)) else none
  let unit := unit ++ (pad.map (fillerPart r.codec f)).toList
  let fill := partsLength unit - raw / 8
  let b := raw + 8 * fill
  let bn := p.b - b + p.a
  let bn := if r.mode = 1 then bn else min bn (r.cpb - 1)
  let al := nextAlpha (if f.idr then m.alphaI else m.alphaP) nb (normalCx f r p) p.qi
  let e := if r.mode = 2 then clampI (m.e + arrival (targetRate f n r) f.k f.grid - b) (-(r.cpb : Int)) r.cpb else m.e
  let m := { m with b := bn, e := e, sinceBp := if f.idr then some 1 else m.sinceBp.map (fun x => x + 1), alphaI := if f.idr then al else m.alphaI, alphaP := if f.idr then m.alphaP else al }
  let p' := { p with parts := unit, bits := b, filler := 8 * fill, sized := true, cpbNext := bn, alphaI := m.alphaI, alphaP := m.alphaP, vbrE := e }
  let s := putModel s n m
  let s := modPic s n f.j r.id (fun _ => p')
  let s := wr (showModel s n m) (RC_LAST_BITS n r.id) (wordOf b)
  let s := wr s (RC_LAST_PIC n r.id) (mkWord [(5, 0, p.qi), (31, 16, rowOrNone p.stop)])
  let s := wr s (RC_FILL_BYTES n r.id) (rd s (RC_FILL_BYTES n r.id) + wordOf fill)
  let s := onlyIf p.stop.isSome s (fun s =>
    setEvt (count (count s (RC_LR_PICS n r.id)) (CH_LR_CNT n)) (CH_RC_EVT n) 0)
  if tbit (f.reg (CH_RC_CTL n)) 15 then
    let x := putRecord s (f.fld (CH_RC_CTL n) 14 0) (rcRecord f n p' (p.qi = (qLimits f n r.id).2))
    if x.2 then x.1 else setEvt (count x.1 (CH_REC_DROP n)) (CH_RC_EVT n) 2
  else s

end Sys2Proof.Machine
end

