-- ==== Sys2Proof/Machine/Cmaf.lean ====
section
/-!
DEFINITION. CMAF: initialisation segments, chunks and the payload header of form 3 (R275 to R277). The syntax of the ISO base media file
format is the standard's, which the manual names and does not restate: PRESUMED (log entry 64).
-/
namespace Sys2Proof.Machine

/-! ### Boxes -/

/-- A box: its size, its type, its body. -/
def box (typ : List Byte) (body : List Byte) : List Byte := beBytes 4 (8 + body.length) ++ typ ++ body

/-- A full box: version and flags before its body. -/
def fullBox (typ : List Byte) (version flags : Nat) (body : List Byte) : List Byte := box typ (beBytes 1 version ++ beBytes 3 flags ++ body)

/-- Four characters as bytes. -/
def fourcc (a b c d : Char) : List Byte := [a, b, c, d].map (fun x => BitVec.ofNat 8 x.toNat)

/-- Characters as bytes, with a zero behind them. -/
def cString (s : String) : List Byte := s.toList.map (fun x => BitVec.ofNat 8 x.toNat) ++ [0]

/-- The unity matrix of a header box. -/
def unityMatrix : List Byte :=
  beBytes 4 0x10000 ++ zeros 12 ++ beBytes 4 0x10000 ++ zeros 12 ++ beBytes 4 0x40000000

/-! ### What a track is (R275, R276) -/

/-- A track: the timescale, whether it is sound, its sample entry, its picture size. -/
structure Track where
  scale : Nat
  sound : Bool
  entry : List Byte
  w : Nat
  h : Nat
  deriving DecidableEq, Repr

/-- The sample entry of a video track: 'hev1', 'vvi1' or 'av01', with the decoder configuration of the image (R276). -/
def videoEntry (r : RendPlan) : List Byte :=
  let typ := match r.codec with
    | 1 => fourcc 'h' 'e' 'v' '1'
    | 3 => fourcc 'v' 'v' 'i' '1'
    | _ => fourcc 'a' 'v' '0' '1'
  box typ (zeros 6 ++ beBytes 2 1 ++ zeros 16 ++ beBytes 2 r.w ++ beBytes 2 r.h ++ padTo 50 (Config.boxRest 4) ++ r.config)

/-- The sample entry of an audio track: 'mp4a' (R276). -/
def audioEntry (g : PrgPlan) : List Byte :=
  box (fourcc 'm' 'p' '4' 'a') (zeros 6 ++ beBytes 2 1 ++ zeros 8 ++ beBytes 2 g.chans ++ padTo 6 (Config.boxRest 5) ++
    beBytes 4 ((if g.rate96 then 96000 else 48000) % 65536 * 65536) ++ g.config)

/-- The sample duration a and the timescale b of a channel's video: the frame period in seconds in lowest terms (R276). -/
def videoScale (p : ChannelPlan) : Nat × Nat := tickOf p

/-- The track of a rendition. -/
def videoTrack (p : ChannelPlan) (r : RendPlan) : Track :=
  { scale := (videoScale p).2, sound := false, entry := videoEntry r, w := r.w, h := r.h }

/-- The track of a programme: timescale 48,000 or 96,000. -/
def audioTrack (g : PrgPlan) : Track :=
  { scale := if g.rate96 then 96000 else 48000, sound := true, entry := audioEntry g, w := 0, h := 0 }

/-- The initialisation segment of a track: ftyp with major brand 'cmfc', then moov with one track, track_ID 1 (R275). -/
def initSegment (t : Track) : List Byte :=
  let ftyp := box (fourcc 'f' 't' 'y' 'p') (fourcc 'c' 'm' 'f' 'c' ++ Config.boxRest 0)
  let mvhd := fullBox (fourcc 'm' 'v' 'h' 'd') 0 0
    (zeros 8 ++ beBytes 4 t.scale ++ zeros 4 ++ beBytes 4 0x10000 ++ beBytes 2 0x100 ++ zeros 10 ++ unityMatrix ++ zeros 24 ++ beBytes 4 2)
  let tkhd := fullBox (fourcc 't' 'k' 'h' 'd') 0 3
    (zeros 8 ++ beBytes 4 1 ++ zeros 16 ++ zeros 4 ++ beBytes 2 (if t.sound then 0x100 else 0) ++ zeros 2 ++ unityMatrix ++
      beBytes 4 (t.w * 65536) ++ beBytes 4 (t.h * 65536))
  let mdhd := fullBox (fourcc 'm' 'd' 'h' 'd') 0 0 (zeros 8 ++ beBytes 4 t.scale ++ zeros 4 ++ beBytes 2 0x55C4 ++ zeros 2)
  let hdlr := fullBox (fourcc 'h' 'd' 'l' 'r') 0 0
    (zeros 4 ++ (if t.sound then fourcc 's' 'o' 'u' 'n' else fourcc 'v' 'i' 'd' 'e') ++ zeros 12 ++ Config.boxRest (if t.sound then 3 else 2))
  let head := if t.sound then fullBox (fourcc 's' 'm' 'h' 'd') 0 0 (zeros 4) else fullBox (fourcc 'v' 'm' 'h' 'd') 0 1 (zeros 8)
  let dinf := box (fourcc 'd' 'i' 'n' 'f') (fullBox (fourcc 'd' 'r' 'e' 'f') 0 0 (beBytes 4 1 ++ fullBox (fourcc 'u' 'r' 'l' ' ') 0 1 []))
  let stbl := box (fourcc 's' 't' 'b' 'l') (fullBox (fourcc 's' 't' 's' 'd') 0 0 (beBytes 4 1 ++ t.entry) ++
    fullBox (fourcc 's' 't' 't' 's') 0 0 (zeros 4) ++ fullBox (fourcc 's' 't' 's' 'c') 0 0 (zeros 4) ++
    fullBox (fourcc 's' 't' 's' 'z') 0 0 (zeros 8) ++ fullBox (fourcc 's' 't' 'c' 'o') 0 0 (zeros 4))
  let mdia := box (fourcc 'm' 'd' 'i' 'a') (mdhd ++ hdlr ++ box (fourcc 'm' 'i' 'n' 'f') (head ++ dinf ++ stbl))
  let mvex := box (fourcc 'm' 'v' 'e' 'x') (fullBox (fourcc 't' 'r' 'e' 'x') 0 0 (beBytes 4 1 ++ beBytes 4 1 ++ zeros 12))
  ftyp ++ box (fourcc 'm' 'o' 'o' 'v') (mvhd ++ box (fourcc 't' 'r' 'a' 'k') (tkhd ++ mdia) ++ mvex)

/-! ### Chunks (R275, R276) -/

/-- The tfdt of a frame: M0 + K a, with K the frames since the grid's first g_0 (R276). -/
def videoTfdt (p : ChannelPlan) (g : Grid) (j : Nat) : Nat :=
  let t := videoScale p
  let m0 := (g.g0 * t.2).fdiv (t.1 * 1000000000) * t.1
  (m0 + ((j - g.j0 : Nat) : Int) * t.1).toNat

/-- The flags of a chunk's sample: sample_depends_on 2 and sync in an IDR chunk, else 1 and not (R275). -/
def sampleFlags (idr : Bool) : Nat := if idr then 2 * 2 ^ 24 else 2 ^ 24 + 2 ^ 16

/-- A chunk: styp where it opens a segment, emsg boxes, moof, mdat (R275). `seq` is its unit sequence. -/
def cmafChunk (opens idr : Bool) (sections : List (List Byte)) (seq tfdt duration : Nat) (sample : List Byte) : List Byte :=
  let styp := if opens then box (fourcc 's' 't' 'y' 'p') (fourcc 'c' 'm' 'f' 's' ++ Config.boxRest 1) else []
  let emsg := (sections.map (fun x => fullBox (fourcc 'e' 'm' 's' 'g') 1 0
    (padTo 20 (Config.emsgRest 0 x tfdt) ++ cString "urn:scte:scte35:2013:bin" ++ (Config.emsgRest 1 x tfdt).filter (fun b => b ≠ 0) ++ [0] ++ x))).flatten
  let moof (offset : Nat) : List Byte := box (fourcc 'm' 'o' 'o' 'f')
    (fullBox (fourcc 'm' 'f' 'h' 'd') 0 0 (beBytes 4 (seq % 2 ^ 32 + 1)) ++
      box (fourcc 't' 'r' 'a' 'f') (fullBox (fourcc 't' 'f' 'h' 'd') 0 0x020000 (beBytes 4 1) ++
        fullBox (fourcc 't' 'f' 'd' 't') 1 0 (beBytes 8 tfdt) ++
        fullBox (fourcc 't' 'r' 'u' 'n') 0 0x701
          (beBytes 4 1 ++ beBytes 4 offset ++ beBytes 4 duration ++ beBytes 4 sample.length ++ beBytes 4 (sampleFlags idr))))
  styp ++ emsg ++ moof ((moof 0).length + 8) ++ box (fourcc 'm' 'd' 'a' 't') sample

/-- The sample of a picture: NAL units behind their length in four bytes; for AV1 the temporal unit without its delimiter (R276). -/
def videoSample (codec : Nat) (parts : List (Part × List Byte)) : List Byte :=
  if codec = 2 then ((parts.filter (fun x => x.1 ≠ .temporalDelimiter)).map (fun x => x.2)).flatten
  else (parts.map (fun x => beBytes 4 x.2.length ++ x.2)).flatten

/-- The chunk of a picture with its unit sequence. -/
def videoChunk (f : FrameSt) (r : RendPlan) (p : RendPic) (seq : Nat) : List Byte :=
  cmafChunk f.idr f.idr f.sections seq (videoTfdt f.plan f.grid f.j) (videoScale f.plan).1 (videoSample r.codec p.parts)

/-- The payload header of form 3 (R277): unit sequence, offset in the chunk, kind. The manual gives no byte order for it: PRESUMED the
device's, lowest byte first (log entry 64). -/
def cmafHeader (seq offset kind : Nat) : List Byte := leBytes 8 seq ++ leBytes 3 offset ++ leBytes 1 kind

end Sys2Proof.Machine
end

