-- ==== Sys2Proof/Machine/Net.lean ====
section
/-!
DEFINITION. The headers of a datagram, written and read: Ethernet with an optional IEEE 802.1Q tag, IPv4 or IPv6, UDP and RTP (R269, R306, R329). The order of their
fields is their standards', which the manual names and does not restate: PRESUMED (log entry 64).
-/
namespace Sys2Proof.Machine

/-- The sum of 16-bit words, highest byte first; an odd byte counts as the higher of its word. -/
def sum16 : List Byte → Nat
  | [] => 0
  | [a] => 256 * a.toNat
  | a :: b :: bs => 256 * a.toNat + b.toNat + sum16 bs

/-- A sum folded to 16 bits by ones' complement addition, `n` times. -/
def fold16 : Nat → Nat → Nat
  | 0, v => v
  | n + 1, v => fold16 n (v % 65536 + v / 65536)

/-- The ones' complement checksum of bytes. -/
def checksum16 (bs : List Byte) : Nat := 65535 - fold16 4 (sum16 bs)

/-- A UDP datagram: its checksum over the pseudo-header is always computed, and 0 is sent as 0xFFFF (R269). -/
def udpDatagram (src dst : List Byte) (sport dport : Nat) (payload : List Byte) : List Byte :=
  let n := 8 + payload.length
  let head := beBytes 2 sport ++ beBytes 2 dport ++ beBytes 2 n
  let pseudo := src ++ dst ++ (if src.length = 4 then [0, 17] ++ beBytes 2 n else beBytes 4 n ++ [0, 0, 0, 17])
  let c := checksum16 (pseudo ++ head ++ [0, 0] ++ payload)
  head ++ beBytes 2 (if c = 0 then 65535 else c) ++ payload

/-- An IPv4 packet that carries UDP: DF 1, identification 0, never a fragment (R269). -/
def ipv4Packet (tos ttl : Nat) (src dst body : List Byte) : List Byte :=
  let head (c : Nat) : List Byte :=
    [0x45] ++ beBytes 1 tos ++ beBytes 2 (20 + body.length) ++ [0, 0, 0x40, 0] ++ beBytes 1 ttl ++ [17] ++ beBytes 2 c ++ src ++ dst
  head (checksum16 (head 0)) ++ body

/-- An IPv6 packet that carries UDP. -/
def ipv6Packet (tos flow ttl : Nat) (src dst body : List Byte) : List Byte :=
  beBytes 4 (6 * 2 ^ 28 + tos % 256 * 2 ^ 20 + flow % 2 ^ 20) ++ beBytes 2 body.length ++ [17] ++ beBytes 1 ttl ++ src ++ dst ++ body

/-- An IP packet of a stream's addresses: IPv4 where they have four bytes. -/
def ipPacket (a : NetPlan) (payload : List Byte) : List Byte :=
  let u := udpDatagram a.srcIp a.dstIp a.srcPort a.dstPort payload
  if a.dstIp.length = 4 then ipv4Packet a.tos a.ttl a.srcIp a.dstIp u else ipv6Packet a.tos a.flow a.ttl a.srcIp a.dstIp u

/-- An Ethernet frame up to its check sequence (R269). -/
def etherFrame (a : NetPlan) (packet : List Byte) : List Byte :=
  a.dstMac ++ a.srcMac ++ (match a.vlan with
    | some v => [0x81, 0x00] ++ beBytes 2 v
    | none => []) ++ (if a.dstIp.length = 4 then [0x08, 0x00] else [0x86, 0xDD]) ++ packet

/-- The payload type of a form: 33 for form 2, the image's for forms 3 and 5 (R269). -/
def rtpType (form : Nat) (a : NetPlan) : Nat := if form = 2 then 33 else a.payloadType

/-- An RTP packet: version 2, no padding, extension or contributing source. -/
def rtpPacket (marker : Bool) (pt : Nat) (seq : BitVec 16) (ts ssrc : Word) (payload : List Byte) : List Byte :=
  [0x80] ++ beBytes 1 (128 * b2n marker + pt % 128) ++ beBytes 2 seq.toNat ++ beBytes 4 ts.toNat ++ beBytes 4 ssrc.toNat ++ payload

/-- The addresses of a re-sent datagram: the command's, IPv4-mapped for IPv4, and its port (R289). Where the stream's own address is of
the other family, the source is the port's own, which the manual does not give; nor does it give the other header values of a stream that
is only retained (log entry 64). -/
def resendNet (a : NetPlan) (port : Nat) (dest : List Byte) (udp : Nat) : NetPlan :=
  let own := Config.retainedNet port
  let a := if a.dstMac.isEmpty then { own with dstMac := padTo 6 own.dstMac, srcMac := padTo 6 own.srcMac } else a
  let four : Bool := dest.take 12 = zeros 10 ++ [0xFF, 0xFF]
  let dst := if four then dest.drop 12 else dest
  { a with
    dstIp := dst
    dstPort := udp
    srcIp := if a.srcIp.length = dst.length then a.srcIp else padTo dst.length (Config.portAddress port four) }

/-! ### Reading a received frame (R306, R329) -/

/-- What the bytes of a received frame say: its VLAN ID, its EtherType, the bytes after it. -/
structure EtherIn where
  vlan : Option Nat
  kind : Nat
  body : List Byte
  deriving DecidableEq, Repr

/-- What an IP packet that carries UDP says: its addresses, its UDP destination port, the UDP payload, and whether the IP header checks hold
and the UDP checksum is valid or zero. -/
structure UdpIn where
  src : List Byte
  dst : List Byte
  port : Nat
  payload : List Byte
  headOk : Bool
  sumOk : Bool
  deriving DecidableEq, Repr

/-- A frame's addresses, its optional IEEE 802.1Q tag and its EtherType. -/
def readEther (bs : List Byte) : EtherIn :=
  if beAt bs 12 2 = 0x8100 then ⟨some (beAt bs 14 2 % 4096), beAt bs 16 2, bs.drop 18⟩ else ⟨none, beAt bs 12 2, bs.drop 14⟩

/-- A UDP datagram in a packet whose header is good or not; the checksum runs over the pseudo-header too. -/
def readUdp (src dst body : List Byte) (headOk : Bool) : UdpIn :=
  let n := beAt body 4 2
  let body := body.take n
  let pseudo := src ++ dst ++ (if src.length = 4 then [0, 17] ++ beBytes 2 n else beBytes 4 n ++ [0, 0, 0, 17])
  { src := src, dst := dst, port := beAt body 2 2, payload := body.drop 8
    headOk := headOk && 8 ≤ n && body.length = n
    sumOk := beAt body 6 2 = 0 || checksum16 (pseudo ++ body) = 0 }

/-- An IPv4 packet that carries UDP and is no later fragment: the header checks are its version, lengths, checksum and that it is whole. -/
def readIpv4 (bs : List Byte) : Option UdpIn :=
  let hl := 4 * (beAt bs 0 1 % 16)
  let n := beAt bs 2 2
  if beAt bs 9 1 = 17 && beAt bs 6 2 % 8192 = 0 then
    some (readUdp ((bs.drop 12).take 4) ((bs.drop 16).take 4) ((bs.take n).drop hl)
      (beAt bs 0 1 / 16 = 4 && 20 ≤ hl && hl ≤ n && n ≤ bs.length && checksum16 (bs.take hl) = 0 && beAt bs 6 2 / 8192 % 2 = 0))
  else none

/-- An IPv6 packet whose next header is UDP: the header checks are its version and length. -/
def readIpv6 (bs : List Byte) : Option UdpIn :=
  let n := beAt bs 4 2
  if beAt bs 6 1 = 17 then
    some (readUdp ((bs.drop 8).take 16) ((bs.drop 24).take 16) ((bs.drop 40).take n) (beAt bs 0 1 / 16 = 6 && 40 + n ≤ bs.length))
  else none

/-- The UDP datagram of a frame, if it carries one. -/
def frameUdp (bs : List Byte) : Option UdpIn :=
  let e := readEther bs
  if e.kind = 0x0800 then readIpv4 e.body else if e.kind = 0x86DD then readIpv6 e.body else none

/-- The PTP message of a frame: EtherType 0x88F7, or UDP port 319 or 320 (R306). -/
def framePtp (bs : List Byte) : Option PtpMsg :=
  let e := readEther bs
  if e.kind = 0x88F7 then some ⟨0, e.body⟩
  else match frameUdp bs with
    | none => none
    | some u => if u.port = 319 || u.port = 320 then some ⟨if u.dst.length = 4 then 1 else 2, u.payload⟩ else none

/-- Whether a frame matches a flow path's fields: a field that the path does not set matches any frame (R329). -/
def matchesPath (a : PathPlan) (bs : List Byte) : Bool :=
  match frameUdp bs with
  | none => false
  | some u => u.dst = a.dst && u.port = a.port && (a.src.isNone || a.src = some u.src) && (a.vlan.isNone || a.vlan = (readEther bs).vlan)

/-- Whether a frame's datagram passes a flow's checks: the IP header checks, the UDP checksum, RTP version 2, the payload type (R329). -/
def passesChecks (pt : Nat) (bs : List Byte) : Bool :=
  match frameUdp bs with
  | none => false
  | some u => u.headOk && u.sumOk && 12 ≤ u.payload.length && beAt u.payload 0 1 / 64 = 2 && beAt u.payload 1 1 % 128 = pt

/-- The RTP payload of a datagram: what follows the header, its contributing sources and its extension, without the padding. -/
def rtpPayload (p : List Byte) : List Byte :=
  let head := 12 + 4 * (beAt p 0 1 % 16)
  let head := if beAt p 0 1 / 16 % 2 = 1 then head + 4 + 4 * beAt p (head + 2) 2 else head
  let body := p.drop head
  if beAt p 0 1 / 32 % 2 = 1 then body.take (body.length - ((body.getLast?).getD 0).toNat) else body

/-- The RTP packet of a frame that matches a flow path. -/
def frameRtp (bs : List Byte) : List Byte := ((frameUdp bs).map (fun u => u.payload)).getD []

/-- The sequence number of a flow's packet: for ST 2110-20 and -22 with the extended sequence number that opens the payload header, in 32
bits (R330). -/
def rtpSequence (kind : Nat) (p : List Byte) : Nat :=
  (if kind = 1 || kind = 2 then 65536 * beAt (rtpPayload p) 0 2 else 0) + beAt p 2 2

end Sys2Proof.Machine
end

