-- ==== Sys2Proof/Machine/Coding.lean ====
section
/-!
DEFINITION. The commands of the encode engines and of rate control (spec/05_coding_engines.md, spec/06_rate_control.md,
spec/03_channel_time_budget.md R92, spec/17_pairing.md R456).
-/
namespace Sys2Proof.Machine

/-! ### RATE_DECISION (R170, R171, R173) -/

/-- The oldest frame whose picture of a rendition has a property. -/
def oldestPic (s : State) (n r : Nat) (q : RendPic → Bool) : Option (FrameSt × RendPlan × RendPic) :=
  (chan s n).frames.findSome? (fun f =>
    match f.rend r, f.pic r with
    | some rp, some p => if q p then some (f, rp, p) else none
    | _, _ => none)

/-- Whether the previous picture of a rendition is sized (R170). -/
def previousSized (s : State) (n r j : Nat) : Bool :=
  (chan s n).frames.all (fun f => j ≤ f.j || (match f.pic r with
    | some p => p.sized
    | none => true))

/-- A standby holds the rate decisions of a join's IDR frame until FULL has arrived (R459). -/
def awaitsFull (s : State) (n : Nat) (f : FrameSt) : Bool := role s = 2 && f.joinIdr && (chan s n).joinFrame ≠ some f.k

/-- RATE_DECISION: acts on the rendition's oldest picture without a decision, once its frame has started, the previous picture
is sized and the lookahead is known. -/
def execRateDecision (n r : Nat) (s : State) : Host.Outcome State Fault Refusal :=
  act (n < 16 && r < 40) s (fun s =>
    match oldestPic s n r (fun p => !p.decided) with
    | none => s
    | some (f, rp, p) =>
      if f.started && !(chan s n).dead && previousSized s n r f.j && lookaheadKnown (chan s n) f && !awaitsFull s n f then
        decideRate s n f rp p
      else s)

/-! ### TILE_TAKE (R127, R156, R175) -/

/-- TILE_TAKE: an idle engine takes the first item of its channel's work list whose inputs are there. -/
def execTileTake (e : Nat) (s : State) : Host.Outcome State Fault Refusal :=
  act (e < 128) s (fun s =>
    let n := engChannel s e
    if engState s e = 1 && !(chan s n).dead then
      match (chan s n).work.find? (fun i => takeable s n e i) with
      | none => s
      | some i => takeItem s n e i
    else s)

/-! ### What a row reads and what its coding gives (R28, R112 to R114, R127, R135 to R151) -/

/-- The coding-tree row of a tile as a rectangle. -/
def rowRect (r : RendPlan) (tn col row : Nat) : BlockRect :=
  { x := tileStart tn r col * ctSize r.codec, y := row * ctSize r.codec, w := tileWidth tn r col, h := rowHeight r row }

/-- The analysis candidates of a block for each reference, nearest reference first (R114). -/
def blockCands (f : FrameSt) (r : RendPlan) (refs : List (Nat × Picture)) (b : BlockRect) : List (List (Int × Int)) :=
  refs.map (fun x => match f.field with
    | some fl => analysisCands fl f.plan.width f.plan.height r x.1 b
    | none => [])

/-- All that the coding of the row in hand of a tile reads. In last-resort mode the effort level, the analysis candidates and the quality
offsets play no part (R148). -/
def rowInput (f : FrameSt) (r : RendPlan) (p : RendPic) (t : TileSt) (refs : List (Nat × Picture)) (col : List (List RowCode)) (lr : Bool) :
    RowIn :=
  let tn := p.tiles.length
  let b := rowRect r tn t.col t.row
  { codec := r.codec
    idr := f.idr
    effort := if lr then 0 else p.effort
    lastResort := lr
    source := ((sourceOf f r).map (fun x => engineInput r x tn t.col)).getD (engineInput r (blackPicture f.plan) tn t.col)
    x0 := b.x
    row := t.row
    refs := refs.map (fun x => x.2)
    colocated := col
    cands := if lr then [] else (refs.zip (blockCands f r refs b)).map (fun x => { dist := x.1.1, cands := x.2 })
    quants := if lr then [] else t.quants.map (codecQuant r.codec r.bits10)
    weight := if lr then none else f.field.bind (fadeWeight r.codec)
    above := t.codes
    entropy := t.entropy }

/-- Whether the block records of a block say intra-preferred or static: those of its first 16 × 16 block (R112, R114; log entry 65). -/
def blockFlags (f : FrameSt) (r : RendPlan) (b : BlockRect) : Bool × Bool :=
  match f.field, (blocks16 r b).head? with
  | some fl, some x =>
    let m := mappedBlock fl f.plan.width f.plan.height r x.1 x.2
    ((fl.blocks[m.2 * fl.bw + m.1]?).map (fun k => (k.intra, k.static))).getD (false, false)
  | _, _ => (false, false)

/-- What the predictors of the row in hand are formed from, before its first block (R140). -/
def rowCtx (r : RendPlan) (t : TileSt) (b : BlockRect) (col : List (List RowCode)) : MotionCtx :=
  { codec := r.codec, above := t.codes, before := [], colocated := col, rect := b }

/-- The row in hand as coded normally: what the engine makes of it, held within the tools of its effort level (R87, R114, R135 to R141). -/
def codeRow (f : FrameSt) (n : Nat) (r : RendPlan) (p : RendPic) (t : TileSt) (refs : List (Nat × Picture)) (inp : RowIn) (c : RowChoice) :
    RowCode :=
  let b := rowRect r p.tiles.length t.col t.row
  let s := ctSize r.codec
  { units := codeUnits (rowCtx r t b inp.colocated) ((b.w + s - 1) / s) (fun k i =>
      codeUnit r (effortRow p.effort) f.idr ((f.field.map (fun x => x.fade)).getD false) (blockFlags f r) (blockCands f r refs)
        (fun b => codecQuant r.codec r.bits10 (blockQuant f n r t.qi b)) k (bestEdge (Config.saoDistortion inp c i)) (b.x + s * i) b.y
        (c.units.getD i default))
    bits := c.bits
    entropy := c.entropy }

/-- The row in hand as coded in last-resort mode, within the bits of R152 (R148 to R152). Of the 8 bits of the tile's termination at most one
is coded: the rest are those that bring the tile to whole bytes (R152, R178). -/
def codeLrRow (f : FrameSt) (r : RendPlan) (p : RendPic) (t : TileSt) (col : List (List RowCode)) (c : RowChoice) : RowCode :=
  let b := rowRect r p.tiles.length t.col t.row
  let s := ctSize r.codec
  { units := codeUnits (rowCtx r t b col) ((b.w + s - 1) / s) (fun k i => lrUnit r f.idr k (b.x + s * i) b.y)
    bits := min c.bits (lrRowBits p.tiles.length r f.idr t.col t.row + (if ctRows r ≤ t.row + 1 then 1 else 0))
    entropy := c.entropy }

/-- The tile's bytes once its last row is coded: as many as its bits fill (R155). -/
def tileBytes (t : TileSt) (c : RowChoice) : List Byte := padTo ((t.used + t.lrUsed + 7) / 8) c.bytes

/-- A cluster's engines read lines of its reference cache: each is a hit or, fetched, a miss (R162). A full cache keeps the lines read last
(DESIGN CHOICE, log entry 62: the manual gives no replacement). -/
def readLines (s : State) (c : Nat) (ls : List Nat) : State :=
  ls.foldl (fun s l =>
    let held := s.caches.getD c []
    let r := if held.contains l then CL_CACHE_HIT c else CL_CACHE_MISS c
    { bump s r with caches := s.caches.set c ((l :: held.filter (fun x => x ≠ l)).take Config.cacheLines) }) s

/-! ### ROW_CODED (R174, R175) -/

/-- A row coded in last-resort mode ends; its bits are at most those R152 gives its blocks. -/
def tailRow (s : State) (n e : Nat) (i : WorkItem) (f : FrameSt) (r : RendPlan) (p : RendPic) (t : TileSt) (inp : RowIn)
    (c : RowChoice) : State :=
  let last := ctRows r ≤ t.row + 1
  let code := codeLrRow f r p t inp.colocated c
  let s := count s (ENG_LR_ROWS e)
  let s := modTileOf s n i.j i.rid i.col (fun t =>
    let t := { t with
      lrUsed := t.lrUsed + code.bits
      row := t.row + 1
      running := false
      entropy := code.entropy
      codes := t.codes ++ [code] }
    if last then { t with phase := .coded, bytes := tileBytes t c } else { t with phase := .tail })
  if last then s else startRow s n e i

/-- A row coded normally ends: it is kept, or rolled back against the hard cap of its tile, to the checkpoint before it. -/
def normalRow (s : State) (n e : Nat) (i : WorkItem) (f : FrameSt) (r : RendPlan) (p : RendPic) (t : TileSt)
    (refs : List (Nat × Picture)) (inp : RowIn) (c : RowChoice) : State :=
  let code := codeRow f n r p t refs inp c
  let bits := code.bits
  if t.cap < t.used + bits + resBits p.tiles.length r f.idr t.col (t.row + 1) then
    let s := modTileOf s n i.j i.rid i.col (fun t => { t with stop := some t.row, running := false })
    endNormal s n e i p.stopFixed (ctRows r)
  else
    let s := modTileOf s n i.j i.rid i.col (fun t =>
      let t := { t with
        ckpts := t.ckpts ++ [(t.used, t.entropy)]
        used := t.used + bits
        row := t.row + 1
        running := false
        entropy := code.entropy
        codes := t.codes ++ [code] }
      if ctRows r ≤ t.row then { t with bytes := tileBytes t c } else t)
    if f.rescueHeld then s
    else if p.limit (ctRows r) ≤ t.row + 1 then endNormal s n e i p.stopFixed (ctRows r)
    else startRow s n e i

/-- ROW_CODED: the row in hand of an engine ends, coded as a function of what it reads (R28, R127). Its coding may read any row of its
references, and waits until each is readable (R155; DEDUCED, log entry 65). -/
def execRowCoded (e : Nat) (s : State) : Host.Outcome State Fault Refusal :=
  act (e < 128) s (fun s =>
    match (eng s e).item with
    | none => s
    | some i =>
      let n := rdFld s (ENG_STAT e) 11 8
      match itemParts s n i with
      | none => s
      | some (f, r, p, t) =>
        let refs := readableRefs s n f r.id
        if engState s e = 2 && t.running && refs.length = f.refs.length then
          let inp := rowInput f r p t refs (colocatedOf s n f r.id) (t.phase = .tail)
          let c := Config.codeRow inp
          if t.phase = .tail then tailRow (readLines s (e / 8) c.lines) n e i f r p t inp c
          else if t.phase = .coding then normalRow (readLines s (e / 8) c.lines) n e i f r p t refs inp c
          else s
        else s)

/-! ### RESCUE_CHECK (R92, R443) -/

/-- RESCUE_CHECK: acts at the rescue instant on the oldest started frame without a rescue decision; a standby makes none and
waits for the notice. -/
def execRescueCheck (n : Nat) (s : State) : Host.Outcome State Fault Refusal :=
  act (n < 16) s (fun s =>
    match oldest s n (fun f => f.started && !f.rescueDone) with
    | none => s
    | some f =>
      if reached s f.rescueAt && !(chan s n).dead then
        if role s = 2 then
          match (chan s n).notices.find? (fun x => x.1 = f.k) with
          | some x => applyNotice s n f x.2
          | none => modFrame s n f.j (fun f => { f with rescueHeld := true })
        else sendRescue (rescueFrame s n f) n f.j
      else s)

/-! ### TILE_VERIFIED, EDGE_PASS_DONE (R154, R155, R156) -/

/-- The edge passes that the verification of a tile lets run: those to neighbours already verified (R154). -/
def edgesOf (p : RendPic) (i : WorkItem) : List WorkItem :=
  let ok (c : Nat) : Bool := p.tiles.any (fun t => t.col = c && t.phase = .verified)
  (if 0 < i.col && ok (i.col - 1) then [{ i with col := i.col - 1 }] else []) ++ (if ok (i.col + 1) then [i] else [])

/-- Bytes with some of their bits changed. -/
def flipBytes (bs : List Byte) (flips : List (Nat × Byte)) : List Byte :=
  flips.foldl (fun l x => l.set x.1 (l.getD x.1 0 ^^^ x.2)) bs

/-- A tile is verified. -/
def verifyTile (s : State) (n e : Nat) (i : WorkItem) (r : RendPlan) (p : RendPic) (t : TileSt) : State :=
  let w := tileWork r p t
  let s := modTileOf s n i.j i.rid i.col (fun t => { t with phase := .verified })
  let s := count64 (count s (ENG_TILES_DONE e)) (ENG_WORK_LO e) (ENG_WORK_HI e) (w / 65536)
  let es := edgesOf p i
  if es.isEmpty then measureFrame (engRest s e) n i.j
  else wrBit (modEng s e (fun x => { x with edges := es })) (ENG_STAT e) 3 true

/-- TILE_VERIFIED: the bytes of a coded tile are read out, `flips` holding what the read-out changes of them: the places with the bits
that differ. Where their CRC-32C is that of the bytes as they entered the buffer the tile is verified, else it is re-issued as after a
parity event whose element the manual does not give (log entry 6). -/
def execTileVerified (e : Nat) (flips : List (Nat × Byte)) (s : State) : Host.Outcome State Fault Refusal :=
  act (e < 128) s (fun s =>
    match (eng s e).item with
    | none => s
    | some i =>
      let n := rdFld s (ENG_STAT e) 11 8
      match itemParts s n i with
      | none => s
      | some (_, r, p, t) =>
        if engState s e = 2 && t.phase = .coded then
          if crc32c (flipBytes t.bytes flips) = crc32c t.bytes then verifyTile s n e i r p t
          else
            let (x, s) := takeFree s
            enterCheck (dropTile (recordParity s e (Config.freeNat x 0 % 16) 4) e) e
        else s)

/-- EDGE_PASS_DONE: the edge pass in hand ends; a parity error in it is an event and repeats only that pass (R156); its
element and kind are free (log entry 6). -/
def execEdgePassDone (e : Nat) (parity : Bool) (s : State) : Host.Outcome State Fault Refusal :=
  act (e < 128) s (fun s =>
    match (eng s e).item, (eng s e).edges with
    | some i, x :: xs =>
      if engState s e = 2 then
        let n := rdFld s (ENG_STAT e) 11 8
        if parity then
          let (k, s) := takeFree s
          count (recordParity s e (Config.freeNat k 0 % 16) (Config.freeNat k 1 % 5)) (CL_EDGE_REDO (e / 8))
        else
          let s := modEng (passEdges s n [x]) e (fun y => { y with edges := xs })
          if xs.isEmpty then measureFrame (engRest s e) n i.j else s
      else s
    | _, _ => s)

/-! ### ENGINE_PARITY_ERROR, CHECK_END, CACHE_PARITY_ERROR (R153, R156, R159) -/

/-- ENGINE_PARITY_ERROR: what follows depends on the engine's state. -/
def execEngineParityError (e : Nat) (element : BitVec 4) (kind : BitVec 3) (s : State) :
    Host.Outcome State Fault Refusal :=
  act (e < 128) s (fun s =>
    let rec_ (s : State) : State := recordParity s e element.toNat kind.toNat
    match engState s e with
    | 0 | 1 => enterCheck (rec_ s) e
    | 6 => enterCheck (modEng (rec_ s) e (fun x => { x with lastTest := none })) e
    | 2 =>
      if (eng s e).edges.isEmpty then enterCheck (dropTile (rec_ s) e) e
      else count (rec_ s) (CL_EDGE_REDO (e / 8))
    | 3 => modEng (rec_ s) e (fun x => { x with since := s.raw })
    | 4 => rec_ s
    | _ => s)

/-- CHECK_END: acts 50 µs after the engine entered CHECK. -/
def execCheckEnd (e : Nat) (s : State) : Host.Outcome State Fault Refusal :=
  act (e < 128) s (fun s =>
    if engState s e = 3 && ticksSince s (eng s e).since (usTicks 50) then
      setEngState s e (restState s e)
    else s)

/-- A line of a cluster's reference cache is invalidated and fetched again from HBM3E: the copy the cache then holds is the fresh one. -/
def refetchLine (s : State) (c line : Nat) : State :=
  let held := (s.caches.getD c []).filter (fun x => x ≠ line)
  emit { s with caches := s.caches.set c (line :: held) } (.lineFetch c line)

/-- CACHE_PARITY_ERROR: the access that met an error in a line of a cluster's reference cache waits for the fresh line; it is no engine
fault (R159). -/
def execCacheParityError (c line : Nat) (s : State) : Host.Outcome State Fault Refusal :=
  act (c < 16) s (fun s => refetchLine (setEvt (count s (CL_CACHE_PARITY c)) (CL_EVT c) 3) c line)

/-! ### CLUSTER_UP (R153, R164) -/

/-- CLUSTER_UP: a cluster has reloaded its slice and run its self-test; where it passed, its engines leave DOWN. -/
def execClusterUp (c : Nat) (selfTestOk : Bool) (s : State) : Host.Outcome State Fault Refusal :=
  act (c < 16) s (fun s =>
    let down := (List.range 8).filter (fun i => engState s (8 * c + i) = 5)
    if down.isEmpty then s
    else
      let s := wrBit (wrBit s (CL_STAT c) 5 true) (CL_STAT c) 6 selfTestOk
      if selfTestOk then forEach down s (fun i s => setEngState s (8 * c + i) (restState s (8 * c + i))) else s)

/-! ### PICTURE_SIZED (R168, R172, R177, R182, R443) -/

/-- PICTURE_SIZED: the rendition's oldest picture that is verified and not sized; a standby holds it until the notice. -/
def execPictureSized (n r : Nat) (s : State) : Host.Outcome State Fault Refusal :=
  act (n < 16 && r < 40) s (fun s =>
    match oldestPic s n r (fun p => !p.sized) with
    | none => s
    | some (f, rp, p) => if p.verified && noticeIn s n f then sizePicture s n f rp p else s)

/-! ### SELF_TEST_START, SELF_TEST_DONE (R456) -/

/-- The next frame start of a channel: of a frame accepted, or of the next boundary. -/
def nextStart (s : State) (n : Nat) : Option Int :=
  let c := chan s n
  match c.frames.find? (fun f => !f.started) with
  | some f => some f.start
  | none => match c.grid, c.plan with
    | some g, some p => some (gAt g (c.j + p.delay - 1) + 1100000)
    | _, _ => none

/-- Whether a channel lets its units run a test now: nothing in its work list, the next start at least 200 µs away. -/
def testWindow (s : State) (n : Nat) : Bool :=
  (chan s n).work.isEmpty && (match nextStart s n with
    | none => true
    | some t => 200000 ≤ t - nowN s)

/-- The ticks of ST_CTL.PERIOD, 0 treated as 1 (R467). -/
def testPeriod (s : State) : Nat := secTicks (max 1 (rdFld s GOOSE_ST_CTL 31 16))

/-- SELF_TEST_START: an idle engine, or an idle scout, starts its next signature test; a mismatch is repeated at the next
opportunity, which is not bound to the period. -/
def execSelfTestStart (isScout : Bool) (u : Nat) (s : State) : Host.Outcome State Fault Refusal :=
  act (u < (if isScout then 16 else 128)) s (fun s =>
    let x := eng s u
    if !rdBit s GOOSE_ST_CTL 0 then s
    else if isScout then
      if rdFld s (CL_SCT_STAT u) 1 0 = 1 && !x.scoutOn && testWindow s (rdFld s (CL_STAT u) 3 0) &&
          (x.scoutFails != 0 || passed s x.scoutLast (testPeriod s)) then
        modEng s u (fun x => { x with scoutOn := true, scoutLast := some s.raw })
      else s
    else if engState s u = 1 && testWindow s (engChannel s u) && (x.stFails != 0 || passed s x.lastTest (testPeriod s)) then
      setEngState (modEng s u (fun x => { x with lastTest := some s.raw })) u 6
    else s)

/-- A self-test fails: the immediate lasting fault, its ledger entry, the counts, and the cause to give up control (R412,
R452, R456). -/
def selfTestFault (s : State) (unit vector : Nat) (chs : List Nat) : State :=
  let s := setEvt (count s GOOSE_ST_FAIL) GOOSE_ST_EVT 0
  let s := enter s 0x0506 unit chs true s.raw (wordOf vector)
  let s := setEvt (count s GOOSE_IMM_CNT) GOOSE_EVT 6
  let s := forEach chs s (fun n s => wrBit s GOOSE_CH_FAULT n true)
  if role s = 1 then giveUpCause s 2 else forEach chs s (fun n s => diverge s n 0xA)

/-- An engine's test ends. -/
def engineTested (s : State) (u : Nat) (pass : Bool) : State :=
  let x := eng s u
  let chs := if rdBit s (CL_STAT (u / 8)) 4 then [engChannel s u] else []
  let s := wrBit s (CL_STAT (u / 8)) 6 pass
  let s := setEngState s u (restState s u)
  if pass then
    count (modEng s u (fun x => { x with stFails := 0, stVector := (x.stVector + 1) % 4 })) GOOSE_ST_PASS
  else if x.stFails = 0 then modEng s u (fun x => { x with stFails := 1 })
  else selfTestFault (withdrawEngine s u false) u x.stVector chs

/-- A scout's test ends. -/
def scoutTested (s : State) (u : Nat) (pass : Bool) : State :=
  let x := eng s u
  let chs := if rdBit s (CL_STAT u) 4 then [rdFld s (CL_STAT u) 3 0] else []
  let s := wrBit s (CL_STAT u) 6 pass
  let s := modEng s u (fun x => { x with scoutOn := false })
  if pass then
    count (modEng s u (fun x => { x with scoutFails := 0, scoutVector := (x.scoutVector + 1) % 4 })) GOOSE_ST_PASS
  else if x.scoutFails = 0 then modEng s u (fun x => { x with scoutFails := 1 })
  else selfTestFault (wrFld s (CL_SCT_STAT u) 1 0 3) (0x100 + u) x.scoutVector chs

/-- Whether the CRC-32C of the tile bytes and of the reconstruction, or of a scout's two results, are the signatures of a test vector: the
FIRMWARE section carries them, in a form the manual does not give (log entry 62). -/
def testMatches (isScout : Bool) (vector : Nat) (crcs : Word × Word) : Bool :=
  crcs = (Config.testSignature isScout vector 0, Config.testSignature isScout vector 1)

/-- SELF_TEST_DONE: the test in hand of an engine or a scout ends with the check values of what it coded. -/
def execSelfTestDone (isScout : Bool) (u : Nat) (crcs : Word × Word) (s : State) : Host.Outcome State Fault Refusal :=
  act (u < (if isScout then 16 else 128)) s (fun s =>
    let x := eng s u
    if isScout then (if x.scoutOn then scoutTested s u (testMatches true x.scoutVector crcs) else s)
    else if engState s u = 6 then engineTested s u (testMatches false x.stVector crcs) else s)

end Sys2Proof.Machine
end

