-- ==== Sys2Proof/Machine/StateCopy.lean ====
section
/-!
DEFINITION. The copy of a frame's results that a pair compares: the STATE message, and what a standby does with it
(spec/17_pairing.md R446, R447, R461).
-/
namespace Sys2Proof.Machine

/-- The stream of a rendition. -/
def rendStream (n r : Nat) : Nat := n * 64 + r

/-- RET_FIRST of a stream. -/
def retFirst (s : State) (i : Nat) : Nat := rd64 s (STR_RET_FIRST_LO i) (STR_RET_FIRST_HI i)

/-- FLOW_AUD_CRC of a frame: the blocks of the channel's network flows, in flow then block order (R446). -/
def flowAudCrc (f : FrameSt) : Word :=
  let ins (l : List (Nat × AudioBlock)) (x : Nat × AudioBlock) : List (Nat × AudioBlock) :=
    l.takeWhile (fun y => y.1 < x.1 || (y.1 = x.1 && y.2.1 ≤ x.2.1)) ++ [x] ++
      l.dropWhile (fun y => y.1 < x.1 || (y.1 = x.1 && y.2.1 ≤ x.2.1))
  crc32c (((f.flowAud.foldl ins []).map (fun x => Config.audioBytes (blockSamples x.2))).flatten)

/-- CAP_CRC of a frame (R446). -/
def capCrc (f : FrameSt) : Word := crc32c ((f.triplets.map (fun t => leBytes 3 t.toNat)).flatten)

/-- The rendition entry of a sized picture (R446). -/
def renState (s : State) (n : Nat) (p : RendPic) : RenState :=
  { id := p.id, qi := p.qi, lrRow := rowOrNone p.stop, cpb := p.cpbNext, alphaI := p.alphaI, alphaP := p.alphaP, vbrE := p.vbrE
    unitCrc := p.unitCrc, unitSeq := p.unitSeq, retFirst := retFirst s (rendStream n p.id) }

/-- The serial-port entry of a port (R446). -/
def apEntry (s : State) (p : Nat) : ApState :=
  { id := p, state := rdFld s (AP_STAT p) 1 0, fill := rdFld s (AP_STAT p) 15 8, slipDrop := (rd s (AP_SLIP_DROP p)).toNat
    slipRep := (rd s (AP_SLIP_REP p)).toNat, relock := (rd s (AP_RELOCK_CNT p)).toNat }

/-- The device's own STATE of a frame (R446). -/
def ownState (s : State) (n : Nat) (f : FrameSt) : StateBody :=
  { frame := f.k, inputCrc := f.inputCrc, gsig := f.gsig, flowAudCrc := flowAudCrc f, capCrc := capCrc f, govS := f.govS
    rens := f.inIdOrder.map (renState s n)
    prgs := f.prgSeen.map (fun x => { id := x.1, auCnt := x.2.1.toNat, encCrc := x.2.2.1, auCrc := x.2.2.2 })
    aps := ((List.range 8).filter (fun p => apAssigned s p && apChannel s p = n)).map (apEntry s) }

/-- A rendition entry as its 40 bytes (R446). -/
def renBytes (r : RenState) : List Byte :=
  leBytes 1 r.id ++ leBytes 1 r.qi ++ leBytes 2 r.lrRow ++ leBytes 4 r.cpb ++ leBytes 4 r.alphaI ++ leBytes 4 r.alphaP ++
    leInt 4 r.vbrE ++ wordBytes r.unitCrc ++ leBytes 8 r.unitSeq ++ leBytes 8 r.retFirst

/-- A STATE body as bytes (R446). -/
def stateBytes (b : StateBody) : List Byte :=
  leBytes 8 b.frame ++ wordBytes b.inputCrc ++ wordBytes b.gsig ++ wordBytes b.flowAudCrc ++ wordBytes b.capCrc ++
    leBytes 4 b.govS ++ leBytes 1 b.rens.length ++ leBytes 1 b.prgs.length ++ leBytes 1 b.aps.length ++ zeros 1 ++
    (b.rens.map renBytes).flatten ++
    (b.prgs.map (fun g => leBytes 1 g.id ++ zeros 3 ++ leBytes 4 g.auCnt ++ wordBytes g.encCrc ++ wordBytes g.auCrc)).flatten ++
    (b.aps.map (fun a => leBytes 1 a.id ++ leBytes 1 a.state ++ leBytes 1 a.fill ++ zeros 1 ++ leBytes 4 a.slipDrop ++
      leBytes 4 a.slipRep ++ leBytes 4 a.relock)).flatten

/-- Whether every rendition of a frame is sized and packaged: the frame's own STATE is complete (R446). -/
def FrameSt.complete (f : FrameSt) : Bool := f.started && f.rends.all (fun p => p.sized && p.packaged)

/-- The inputs of a STATE agree (R447). -/
def sameInputs (a b : StateBody) : Bool :=
  a.inputCrc = b.inputCrc && a.gsig = b.gsig && a.flowAudCrc = b.flowAudCrc && a.capCrc = b.capCrc

/-- The coding results of two rendition entries agree (R447). -/
def sameRen (a b : RenState) : Bool :=
  a.id = b.id && a.qi = b.qi && a.lrRow = b.lrRow && a.cpb = b.cpb && a.alphaI = b.alphaI && a.alphaP = b.alphaP &&
    a.vbrE = b.vbrE && a.unitCrc = b.unitCrc && a.unitSeq = b.unitSeq

/-- The coding and audio results of a STATE agree (R447). -/
def sameResults (a b : StateBody) : Bool :=
  a.rens.length = b.rens.length && (a.rens.zip b.rens).all (fun x => sameRen x.1 x.2) && a.prgs = b.prgs

/-- The renditions whose RET_FIRST differs (R447). -/
def retDiffs (a b : StateBody) : Nat := ((a.rens.zip b.rens).filter (fun x => x.1.retFirst ≠ x.2.retFirst)).length

/-- The standby adopts a serial-port entry: STATE, the counters, and FILL as the fill its own FIFO is held to (R447). -/
def adoptAp (s : State) (a : ApState) : State :=
  let s := wrFld s (AP_STAT a.id) 1 0 a.state
  let s := wrFld s (AP_STAT a.id) 15 8 a.fill
  wr (wr (wr s (AP_SLIP_DROP a.id) (wordOf a.slipDrop)) (AP_SLIP_REP a.id) (wordOf a.slipRep)) (AP_RELOCK_CNT a.id)
    (wordOf a.relock)

/-- A standby compares a STATE with its own frame and adopts what R447 names; a joined channel whose join frame matches, with
the inputs of the four frames before it, becomes eligible (R447, R461). -/
def compareState (s : State) (n : Nat) (f : FrameSt) (b : StateBody) : State :=
  let own := ownState s n f
  let inOk := sameInputs own b
  let outOk := sameResults own b
  let s := onlyIf (!inOk) s (fun s => diverge s n 0x1)
  let s := onlyIf (!outOk) s (fun s => diverge s n 0x5)
  let s := countBy s MULE_RET_DIFF (retDiffs own b)
  let s := forEach b.aps s (fun a s => if a.id < 8 then adoptAp s a else s)
  let s := modChan s n (fun c => { c with
    s := b.govS
    matched := if own.inputCrc = b.inputCrc then (f.k :: c.matched).take 8 else c.matched
    states := c.states.filter (fun x => x.1 ≠ f.k) })
  let s := modFrame s n f.j (fun f => { f with stateSeen := true })
  let c := chan s n
  if c.joinFrame = some f.k then
    let s := modChan s n (fun c => { c with joinFrame := none })
    if inOk && outOk && (List.range 4).all (fun i => f.k < i + 1 || c.matched.contains (f.k - 1 - i)) then becomeEligible s n f.k
    else s
  else s

/-- A FULL body as bytes (R460). -/
def fullBytes (b : FullBody) : List Byte :=
  leBytes 8 b.frame ++ leBytes 4 b.govS ++ wordBytes b.cmdNext ++ leBytes 4 b.gopPos ++ leBytes 1 b.rens.length ++
    leBytes 1 b.strs.length ++ leBytes 1 b.prgs.length ++ zeros 1 ++ (b.rens.map renBytes).flatten ++
    (b.strs.map (fun x => leBytes 2 x.stream ++ leBytes 2 x.seqNext.toNat ++
      leBytes 8 (x.cc.zipIdx.foldl (fun a c => a + c.1 % 16 * 16 ^ c.2) 0) ++ leBytes 8 x.unitNext ++ zeros 4)).flatten ++
    padUp 8 ((b.efforts.map (fun e => leBytes 1 e)).flatten) ++
    (b.prgs.map (fun g => leBytes 1 g.1 ++ zeros 1 ++ leBytes 2 g.2.2.length ++ leBytes 4 g.2.1 ++ padUp 8 g.2.2)).flatten

/-- The entries of a channel's renditions after frame k - 1: of the frame, or of the models where it has gone (R460). -/
def fullRens (s : State) (n k : Nat) : List RenState :=
  match (chan s n).frames.find? (fun f => f.k + 1 = k) with
  | some f => f.inIdOrder.map (renState s n)
  | none => ((chan s n).models.filter (fun m => m.slice = (chan s n).sliceSeq)).map (fun m =>
      { id := m.id, qi := 0, lrRow := 0xFFFF, cpb := m.b, alphaI := m.alphaI, alphaP := m.alphaP, vbrE := m.e, unitCrc := 0
        unitSeq := 0, retFirst := retFirst s (rendStream n m.id) })

/-- The state of a channel after frame k - 1 (R460). -/
def ownFull (s : State) (n k : Nat) : FullBody :=
  let prev := (chan s n).frames.find? (fun f => f.k + 1 = k)
  { frame := (k + 2 ^ 64 - 1) % 2 ^ 64
    govS := (prev.map (fun f => f.govS)).getD (chan s n).s
    cmdNext := (chan s n).cmdNext
    gopPos := (prev.map (fun f => f.gopPos)).getD (chan s n).pos
    rens := fullRens s n k
    strs := (s.streams.filter (fun x => x.id / 64 = n)).map (fun x =>
      { stream := x.id, seqNext := x.seqNext, cc := x.cc, unitNext := rd64 s (STR_UNIT_NEXT_LO x.id) (STR_UNIT_NEXT_HI x.id) })
    efforts := match prev with
      | some f => f.inIdOrder.map (fun p => p.effort)
      | none => (chan s n).prevE.map (fun e => e.2)
    prgs := (List.range 32).filterMap (fun g => match (prgOf s g).plan with
      | some (m, _) => if m = n then some (g, (nextAuOf s g).getD 0, (prgOf s g).encState) else none
      | none => none) }

/-- The Bellwether sends FULL for the join frame once every rendition of the frame before it is sized (R459). -/
def sendFull (s : State) (n : Nat) : State :=
  match (chan s n).joinFrame with
  | none => s
  | some k =>
    if role s = 1 && (chan s n).frames.all (fun f => f.k + 1 ≠ k || f.complete) then
      modChan (sendMule s 0x13 (BitVec.ofNat 8 n) (fullBytes (ownFull s n k))) n (fun c => { c with joinFrame := none })
    else s

/-- A frame's results are complete: the Bellwether sends its STATE; a standby compares the one it has (R446, R447). -/
def closeResults (s : State) (n j : Nat) : State :=
  match frameAt s n j with
  | none => s
  | some f =>
    if f.complete then
      if role s = 1 then sendFull (sendMule s 0x12 (BitVec.ofNat 8 n) (stateBytes (ownState s n f))) n
      else if role s = 2 then
        match (chan s n).states.find? (fun x => x.1 = f.k) with
        | some x => compareState s n f x.2
        | none => s
      else s
    else s

end Sys2Proof.Machine
end

