-- ==== Sys2Proof/Machine/Ts.lean ====
section
/-!
DEFINITION. Transport streams: PES packets, PSI, SCTE-35 sections, the PCR, stuffing and continuity counters (R270, R272 to R274). The
syntax of ISO/IEC 13818-1 is the standard's, which the manual names and does not restate: PRESUMED (log entry 64).
-/
namespace Sys2Proof.Machine

/-! ### Times (R272) -/

/-- The count at rate `f` of a corrected time. -/
def countAt (f : Nat) (t : Int) : Int := (t * f).fdiv 1000000000

/-- The PTS of a presentation time. -/
def ptsOf (t : Int) : Nat := (countAt 90000 t % 2 ^ 33).toNat

/-- The PCR of a scheduled launch time: its base modulo 2^33 and its extension. -/
def pcrOf (t : Int) : Nat × Nat :=
  let c := countAt 27000000 t
  ((c.fdiv 300 % 2 ^ 33).toNat, (c % 300).toNat)

/-! ### Packets -/

/-- A TS packet before its counter is assigned: the place of its PID in the order of R460, the PID, whether a unit starts in it, its
adaptation field with its length byte, its payload. -/
structure TsOut where
  slot : Nat
  pid : Nat
  start : Bool
  adapt : List Byte
  payload : List Byte
  deriving DecidableEq, Repr

/-- A TS packet with its continuity counter. -/
def TsOut.bytes (x : TsOut) (cc : Nat) : List Byte :=
  [0x47] ++ beBytes 2 (16384 * b2n x.start + x.pid % 8192) ++ beBytes 1 ((if x.adapt.isEmpty then 16 else 48) + cc % 16) ++ x.adapt ++ x.payload

/-- Packets with counters: each carries payload, so each takes the next value of its PID (R270). -/
def numberTs : List Nat → List TsOut → List Byte × List Nat
  | cc, [] => ([], cc)
  | cc, x :: xs =>
    let c := cc.getD x.slot 0
    let r := numberTs (cc.set x.slot ((c + 1) % 16)) xs
    (x.bytes c ++ r.1, r.2)

/-- An adaptation field of `n` bytes in all: a PCR where there is one, then stuffing; discontinuity_indicator is never set (R270). -/
def adaptField (n : Nat) (pcr : Option (Nat × Nat)) (random : Bool) : List Byte :=
  match n with
  | 0 => []
  | 1 => [0]
  | n + 2 =>
    let head : List Byte := match pcr with
      | some p => beBytes 1 (16 + 64 * b2n random) ++ beBytes 6 (p.1 % 2 ^ 33 * 2 ^ 15 + 63 * 2 ^ 9 + p.2 % 2 ^ 9)
      | none => [0]
    beBytes 1 (n + 1) ++ head ++ List.replicate (n + 1 - head.length) 0xFF

/-- The packets of a PES packet: the first with the PCR where there is one, the last filled by adaptation-field stuffing (R274). -/
def pesPackets (slot pid : Nat) (pcr : Option (Nat × Nat)) (random : Bool) (pes : List Byte) : List TsOut :=
  let room := if pcr.isSome then 176 else 184
  let n := 1 + (pes.length - room + 183) / 184
  (List.range n).map (fun i =>
    let cap := if i = 0 then room else 184
    let bs := (pes.drop (if i = 0 then 0 else room + 184 * (i - 1))).take cap
    { slot := slot, pid := pid, start := i = 0, payload := bs
      adapt := adaptField (184 - bs.length) (if i = 0 then pcr else none) (i = 0 && random) })

/-- The packets of a section: it starts a packet of its own, and the rest of its last packet is stuffed. -/
def sectionPackets (slot pid : Nat) (sec : List Byte) : List TsOut :=
  let bs := [0] ++ sec
  (List.range ((bs.length + 183) / 184)).map (fun i =>
    let x := (bs.drop (184 * i)).take 184
    { slot := slot, pid := pid, start := i = 0, adapt := [], payload := x ++ List.replicate (184 - x.length) 0xFF })

/-- A PES packet: data_alignment_indicator 1, a PTS only, PES_packet_length 0 for video and true for audio (R274). -/
def pesPacket (streamId : Nat) (video : Bool) (pts : Nat) (bs : List Byte) : List Byte :=
  let stamp := beBytes 5 (2 * 2 ^ 36 + (pts / 2 ^ 30 % 8 * 2 + 1) * 2 ^ 32 + (pts / 2 ^ 15 % 2 ^ 15 * 2 + 1) * 2 ^ 16 + (pts % 2 ^ 15 * 2 + 1))
  [0, 0, 1] ++ beBytes 1 streamId ++ beBytes 2 (if video then 0 else bs.length + 8) ++ [0x84, 0x80, 5] ++ stamp ++ bs

/-! ### PSI (R273, R274) -/

/-- A section with its length and CRC_32. -/
def psiSection (table : Nat) (ext version : Nat) (body : List Byte) : List Byte :=
  let bs := beBytes 1 table ++ beBytes 2 (0xB000 + (body.length + 9)) ++ beBytes 2 ext ++ beBytes 1 (0xC1 + 2 * (version % 32)) ++ [0, 0] ++ body
  bs ++ beBytes 4 (crcMpeg bs).toNat

/-- The PAT: one program. -/
def patSection (t : TsPlan) : List Byte := psiSection 0 t.tsId 0 (beBytes 2 t.program ++ beBytes 2 (0xE000 + t.pmtPid))

/-- A component of the PMT. -/
def pmtStream (typ pid : Nat) (desc : List Byte) : List Byte :=
  beBytes 1 typ ++ beBytes 2 (0xE000 + pid) ++ beBytes 2 (0xF000 + desc.length) ++ desc

/-- A registration descriptor. -/
def registration (id : List Byte) : List Byte := [5, 4] ++ id

/-- The programmes of a slice in the order of their numbers. -/
def prgOrder (p : ChannelPlan) : List PrgPlan :=
  (p.prgs.foldl (fun (m : List (Nat × PrgPlan)) g => mput m g.prg g) []).map (fun x => x.2)

/-- The programmes that a rendition's transport stream carries, with their places among the channel's (R268, R273). -/
def muxed (p : ChannelPlan) (r : RendPlan) : List (Nat × PrgPlan) :=
  (prgOrder p).zipIdx.filterMap (fun x => if x.1.mux.contains r.id then some (x.2, x.1) else none)

/-- The PID of a programme in a rendition's stream. -/
def audioPid (p : ChannelPlan) (r : RendPlan) (i : Nat) : Nat := r.ts.audioPids.getD ((muxed p r).findIdx (fun x => x.1 = i)) 0

/-- What the PMT of a rendition says beside its version: the PCR on the video PID, the program and component loops (R273). -/
def pmtBody (p : ChannelPlan) (r : RendPlan) : List Byte :=
  let info := registration [0x43, 0x55, 0x45, 0x49]
  let video := match r.codec with
    | 1 => pmtStream 0x24 r.ts.videoPid []
    | 3 => pmtStream 0x33 r.ts.videoPid []
    | _ => pmtStream 0x06 r.ts.videoPid (registration [0x41, 0x56, 0x30, 0x31] ++ r.ts.av1Desc)
  let audio := (muxed p r).map (fun x => pmtStream 0x0F (audioPid p r x.1) ([0x0A, 4] ++ padTo 3 x.2.lang ++ [0]))
  beBytes 2 (0xE000 + r.ts.videoPid) ++ beBytes 2 (0xF000 + info.length) ++ info ++ video ++ audio.flatten ++ pmtStream 0x86 r.ts.sctePid []

/-- The PMT. -/
def pmtSection (p : ChannelPlan) (r : RendPlan) (version : Nat) : List Byte := psiSection 2 r.ts.program version (pmtBody p r)

/-! ### Elementary streams -/

/-- The elementary stream of an access unit: start codes before its NAL units, four bytes long before the first and before a parameter set;
for AV1 before its OBUs, with emulation prevention, as its carriage has it (R273). -/
def elementary (codec : Nat) (parts : List (Part × List Byte)) : List Byte :=
  (parts.zipIdx.map (fun x =>
    if codec = 2 then [0, 0, 1] ++ escapeBytes 0 x.1.2
    else (if x.2 = 0 || [Part.vps, .sps, .pps, .aps].contains x.1.1 then [0] else []) ++ [0, 0, 1] ++ x.1.2)).flatten

/-- An AAC access unit in ADTS: AAC-LC's core at the programme's rate, HE-AAC's at half (R273). -/
def adts (p : PrgPlan) (au : List Byte) : List Byte :=
  let sfi := if p.codec = 1 then 3 else 6
  let cfg := if p.codec = 3 then 1 else if p.chans = 8 then 7 else p.chans
  let n := au.length + 7
  [0xFF, 0xF1] ++ beBytes 1 (64 + 4 * sfi + cfg / 4) ++ beBytes 1 (cfg % 4 * 64 + n / 2048) ++ beBytes 1 (n / 8) ++
    beBytes 1 (n % 8 * 32 + 31) ++ [0xFC] ++ au

/-! ### Units (R274, R278) -/

/-- The packets of a picture: PSI where it is due, the sections of its frame, the video with its PCR, the count of the scheduled time of
the datagram that carries it. -/
def videoTs (f : FrameSt) (r : RendPlan) (p : RendPic) (psi : Bool) (version : Nat) : List TsOut :=
  let front := (if psi then sectionPackets 0 0 (patSection r.ts) ++ sectionPackets 1 r.ts.pmtPid (pmtSection f.plan r version) else []) ++
    (f.sections.map (sectionPackets 11 r.ts.sctePid)).flatten
  let pes := pesPacket (if r.codec = 2 then 0xBD else 0xE0) true (ptsOf (f.g + f.presentOffset)) (elementary r.codec p.parts)
  let packets (t : Int) := pesPackets 2 r.ts.videoPid (some (pcrOf t)) (Config.randomAccess f.idr) pes
  let n := (front.length + (packets 0).length + 6) / 7
  let w := 9 * f.grid.num / (10 * max 1 f.grid.den)
  front ++ packets (f.launch + ((front.length / 7 * w / max 1 n : Nat) : Int))

/-- The packets of an audio access unit that presents at a time, of the programme at place `i` of its channel. -/
def audioTs (p : ChannelPlan) (r : RendPlan) (i : Nat) (g : PrgPlan) (pts : Nat) (au : List Byte) : List TsOut :=
  pesPackets (3 + i) (audioPid p r i) none false (pesPacket (0xC0 + i) false pts (adts g au))

end Sys2Proof.Machine
end

