-- ==== Sys2Proof/Machine/Egress.lean ====
section
/-!
DEFINITION. Output streams: packaging into the retention ring, the launch schedule, host egress packets, metadata records,
splices, fetches and re-sends (spec/10_egress.md, spec/03_channel_time_budget.md R96).
-/
namespace Sys2Proof.Machine

/-! ### Streams and their schedule (R268, R278, R279) -/

/-- STR_CFG.FORM of a stream (R292). -/
def strForm (s : State) (i : Nat) : Nat := rdFld s (STR_CFG i) 2 0
/-- STR_CFG.PORT of a stream. -/
def strPort (s : State) (i : Nat) : Nat := rdFld s (STR_CFG i) 8 4
/-- Whether a form is sent: forms 4 and 6 are retained only (R268). -/
def formSent (f : Nat) : Bool := f = 1 || f = 2 || f = 3 || f = 5
/-- Whether a form's datagrams carry RTP. -/
def formRtp (f : Nat) : Bool := f = 2 || f = 3 || f = 5

/-- The scheduled time of datagram `i` of a unit (R278). -/
def RetUnit.at (u : RetUnit) (i : Nat) : Int := u.launch + ((i * u.span / max 1 u.nDgrams : Nat) : Int)
/-- The scheduled time of a unit's next datagram. -/
def RetUnit.nextAt (u : RetUnit) : Int := u.at u.sent
/-- The datagrams that a unit launches in all: of one that launches nothing more, those that have left. -/
def RetUnit.count (u : RetUnit) : Nat := if u.dead then u.sent else u.nDgrams
/-- Whether a unit still has a datagram to leave. -/
def RetUnit.waits (u : RetUnit) : Bool := u.sent < u.count

/-- The datagrams of a unit (R274, R277, R259). -/
def datagramCount (form len initLen : Nat) : Nat :=
  match form with
  | 1 | 2 => max 1 ((len / 188 + 6) / 7)
  | 3 => (initLen + 1399) / 1400 + max 1 ((len + 1399) / 1400)
  | 5 => 1
  | _ => 0

/-- The bytes of a unit that its datagram `i` carries, without headers (log entry 18). -/
def datagramBytes (u : RetUnit) (i : Nat) : Nat :=
  match u.form with
  | 1 | 2 => min 1316 (u.bytes.length - 1316 * i)
  | 3 =>
    let k := (u.init.length + 1399) / 1400
    if i < k then min 1400 (u.init.length - 1400 * i) else min 1400 (u.bytes.length - 1400 * (i - k))
  | 5 => u.bytes.length
  | _ => min 1400 (u.bytes.length - 1400 * i)

/-- The RTP timestamp of datagram `i` of a unit (R272, R259). -/
def datagramTs (u : RetUnit) (i : Nat) : Word := u.rtpTs.getD (wordOf (count90k (u.at i)))

/-- The launch time of a stream's next picture that is not packaged, accepted or to come; of a channel left with no engine only the
verified ones will be (R158, R278). -/
def nextVideoLaunch (s : State) (i : Nat) : Option Int :=
  let c := chan s (i / 64)
  let r := i % 64
  if 40 ≤ r then none
  else
    match c.frames.find? (fun f => (f.rend r).isSome && (match f.pic r with
      | some p => !p.packaged && (!c.dead || p.verified)
      | none => !c.dead)) with
    | some f => some f.launch
    | none => match c.grid, c.plan with
      | some g, some p =>
        if c.dead || c.stopped || c.gap.isSome || !p.rends.any (fun x => x.id = r) then none
        else some (gAt g (c.j + p.delay) + 1500000)
      | _, _ => none

/-- The lesser of two times that may be none. -/
def minTime (a b : Option Int) : Option Int :=
  match a, b with
  | some x, some y => some (min x y)
  | some x, none => some x
  | none, b => b

/-- The launch time of the next audio unit of a stream that is not packaged (R258, R278). -/
def nextAudioLaunch (s : State) (i : Nat) : Option Int :=
  match streamOf s i with
  | none => none
  | some st =>
    match st.audio with
    | x :: _ => some x.launch
    | [] =>
      (List.range 32).foldl (fun m g =>
        match (prgOf s g).plan, nextAuOf s g with
        | some (n, p), some j =>
          if n = i / 64 && (programmeStreams s n g p).contains i then
            match (chan s n).plan with
            | some c => minTime m (some (auLaunch c p (sampleTime p.rate96 (auLength p * j))))
            | none => m
          else m
        | _, _ => m) none

/-! ### Registers of a stream -/

/-- Show the units held: RET_FIRST and RET_SPAN (R287, R291). -/
def showHeld (s : State) (i : Nat) : State :=
  match streamOf s i with
  | none => s
  | some st =>
    let next := rd64 s (STR_UNIT_NEXT_LO i) (STR_UNIT_NEXT_HI i)
    let first := ((st.held.head?).map (fun u => u.seq)).getD next
    let span := match st.held.head?, st.held.getLast? with
      | some a, some b => (b.ptime - a.ptime).toNat / 1000000
      | _, _ => 0
    wr (wr64 s (STR_RET_FIRST_LO i) (STR_RET_FIRST_HI i) first) (STR_RET_SPAN i) (wordOf span)

/-- A stream becomes LOST: it launches nothing from unit `from_` on, and a lasting fault of its channel is reported (R281,
R412). -/
def loseStream (s : State) (i from_ : Nat) : State :=
  match streamOf s i with
  | none => s
  | some st =>
    if st.lostAt.isSome then modStream s i (fun x => { x with lostAt := x.lostAt.map (fun q => min q from_) })
    else
      let old := ((st.held.find? RetUnit.waits).map (fun u => u.seq)).getD from_
      let s := modStream s i (fun x => { x with lostAt := some from_ })
      let s := wrFld s (STR_STAT i) 1 0 2
      immediateFault (setEvt s (EGR_CH_EVT (i / 64)) 2) 0x0303 i [i / 64] (wordOf old)

/-- Whether a stream's number is one the device gives out when a unit of this form is packaged. -/
def usesSeq (form : Nat) : Bool := formRtp form

/-- The addresses of a stream that is retained only. -/
def noNet : NetPlan :=
  { dstMac := [], srcMac := [], vlan := none, tos := 0, flow := 0, ttl := 0, srcIp := [], dstIp := [], srcPort := 0, dstPort := 0
    ssrc := 0, payloadType := 0 }

/-- The oldest units that must leave a share for `len` more bytes, and those that stay. -/
def evict (share len : Nat) : List RetUnit → List RetUnit × List RetUnit
  | [] => ([], [])
  | u :: us =>
    if (u :: us).foldl (fun a x => a + x.bytes.length) 0 + len ≤ share then ([], u :: us)
    else
      let r := evict share len us
      (u :: r.1, r.2)

/-- What a packaged unit brings besides what the stream gives it: its frame, times, RTP timestamp, FLAGS, bytes, the initialisation segment
sent ahead of it, its addresses, and the stream's counters and PSI time after it. -/
structure UnitMade where
  frame : Option (Nat × Nat)
  ptime : Int
  launch : Int
  span : Nat
  rtpTs : Option Word
  flags : Nat
  bytes : List Byte
  init : List Byte
  net : NetPlan
  cc : List Nat
  psiG : Option Int

/-- The datagrams of a stream that leave after a time: those of the units held that do, audio at the same time after video
(R279). -/
def datagramsAfter (st : StreamSt) (t : Int) (video : Bool) : Nat :=
  st.held.foldl (fun a u =>
    a + ((List.range u.count).filter (fun k => u.sent ≤ k && (t < u.at k || (video && u.at k = t && u.frame.isNone)))).length) 0

/-- The datagrams of a unit that a standby knows the Bellwether has launched (R451). -/
def ackedOf (st : StreamSt) (seq n : Nat) : Nat :=
  match st.lastAck with
  | none => 0
  | some (u, d) => if seq < u then n else if seq = u then min n (d + 1) else 0

/-- The definition that a unit of a stream is packaged by: the one before for a unit of an earlier slice (R64, R287). -/
def streamDef (s : State) (st : StreamSt) (legacy : Bool) : OldStream :=
  match legacy, st.old with
  | true, some o => o
  | _, _ => { form := strForm s st.id, port := strPort s st.id, seqNext := st.seqNext, cc := st.cc, psiG := st.psiG }

/-- Whether a picture belongs to a slice before the stream's present definition. -/
def oldPicture (s : State) (i : Nat) (f : FrameSt) : Bool := ((streamOf s i).map (fun x => decide (f.sliceSeq < x.slice))).getD false

/-- Whether the next audio unit of a stream was queued under the definition before. -/
def oldSound (s : State) (i : Nat) : Bool := ((streamOf s i).map (fun x => x.oldAudio != 0)).getD false

/-- The form of the next unit of a stream. -/
def unitForm (s : State) (i : Nat) (legacy : Bool) : Nat :=
  ((streamOf s i).map (fun x => (streamDef s x legacy).form)).getD 0

/-- Write a packaged unit into its stream's share (R270, R281, R287). -/
def putUnit (s : State) (i : Nat) (legacy : Bool) (m : UnitMade) : State :=
  match streamOf s i with
  | none => s
  | some st =>
    let d := streamDef s st legacy
    let form := d.form
    let fresh := st.freshNext && !legacy
    let seq := rd64 s (STR_UNIT_NEXT_LO i) (STR_UNIT_NEXT_HI i)
    let n := datagramCount form m.bytes.length m.init.length
    let seq0 : BitVec 16 := if !usesSeq form then 0
      else if fresh then d.seqNext
      else d.seqNext - BitVec.ofNat 16 (datagramsAfter st m.launch m.frame.isSome)
    let next : BitVec 16 := if usesSeq form then d.seqNext + BitVec.ofNat 16 n else d.seqNext
    let got := ackedOf st seq n
    let out := if got = 0 then st.outSeq else (if fresh then seq0 else st.outSeq) + BitVec.ofNat 16 got
    let s := wr64 s (STR_UNIT_NEXT_LO i) (STR_UNIT_NEXT_HI i) (seq + 1)
    let s :=
      if legacy then modStream s i (fun x => { x with old := some { d with seqNext := next, cc := m.cc, psiG := m.psiG } })
      else
        modStream (wr s (STR_SEQ_NEXT i) (wordOf next.toNat)) i (fun x => { x with
          cc := m.cc
          psiG := m.psiG
          seqNext := next
          freshNext := false })
    if st.share < m.bytes.length then showHeld (loseStream s i seq) i
    else
      let r := evict st.share m.bytes.length st.held
      let s := onlyIf (r.1.any RetUnit.waits) s (fun s => loseStream s i 0)
      let u : RetUnit :=
        { seq := seq, frame := m.frame, ptime := m.ptime, launch := m.launch, span := m.span, bytes := m.bytes
          flags := BitVec.ofNat 16 m.flags, seq0 := seq0, rtpTs := m.rtpTs, init := m.init, net := m.net, nDgrams := n
          sent := got, acked := 0, crc := crc32c m.bytes, form := form, port := d.port
          fresh := fresh, dead := false }
      let s := modStream s i (fun x => { x with held := r.2 ++ [u], outSeq := if usesSeq form then out else x.outSeq })
      showHeld s i

/-! ### UNIT_PACKAGED (R270, R274, R275, R279, R287) -/

/-- FLAGS of a unit (R287). -/
def unitFlags (idr seg splice sect late lr : Bool) : Nat :=
  b2n idr + 2 * b2n seg + 4 * b2n splice + 8 * b2n sect + 16 * b2n late + 32 * b2n lr

/-- A unit's first datagram is queued after its launch time (R279). -/
def countLate (s : State) (i : Nat) : State := setEvt (count s (STR_LATE_PIC i)) (EGR_CH_EVT (i / 64)) 0

/-- What a slice gives a stream: the newest entry that is not younger. -/
def StreamSt.head (st : StreamSt) (slice : Nat) : StreamHead :=
  (st.heads.find? (fun x => x.slice ≤ slice)).getD { slice := slice, version := 0, pmt := [], init := [] }

/-- Whether a picture carries PSI: an IDR, or one at least 100 ms behind the last that did (R274). -/
def psiDue (last : Option Int) (f : FrameSt) : Bool :=
  f.idr || (match last with
    | none => true
    | some g => g + 100000000 ≤ f.g)

/-- The unit of a sized picture: TS packets or a chunk, with the stream's counters and PSI time after it (R274, R275). -/
def videoUnit (st : StreamSt) (d : OldStream) (f : FrameSt) (r : RendPlan) (p : RendPic) (seq : Nat) : List Byte × List Nat × Option Int :=
  if d.form = 1 || d.form = 2 then
    let psi := psiDue d.psiG f
    let x := numberTs d.cc (videoTs f r p psi (st.head f.sliceSeq).version)
    (x.1, x.2, if psi then some f.g else d.psiG)
  else (videoChunk f r p seq, d.cc, d.psiG)

/-- Whether a unit launched at a time is packaged too late: its first datagram is queued after that time (R279). -/
def lateUnit (s : State) (form : Nat) (launch : Int) : Bool := formSent form && launch < nowN s

/-- What a sized picture's unit brings, by a stream's definition (R270, R274, R275, R287). -/
def videoMade (s : State) (st : StreamSt) (d : OldStream) (f : FrameSt) (r : RendPlan) (p : RendPic) (seq : Nat) : UnitMade :=
  let pt := f.g + f.presentOffset
  let u := videoUnit st d f r p seq
  { frame := some (f.j, f.k), ptime := pt, launch := f.launch, span := 9 * f.grid.num / (10 * max 1 f.grid.den)
    rtpTs := if d.form = 3 then some (wordOf (count90k pt)) else none
    flags := unitFlags f.idr (f.idr && (d.form = 3 || d.form = 4)) f.splice (!f.sections.isEmpty) (lateUnit s d.form f.launch)
      (p.rescue.isSome || p.stop.isSome)
    bytes := u.1, init := if d.form = 3 && f.idr then (st.head f.sliceSeq).init else [], net := r.net, cc := u.2.1, psiG := u.2.2 }

/-- Package a sized picture. -/
def packVideo (s : State) (i : Nat) (f : FrameSt) (r : RendPlan) (p : RendPic) : State :=
  match streamOf s i with
  | none => s
  | some st =>
    let n := i / 64
    let legacy := oldPicture s i f
    let d := streamDef s st legacy
    let late := lateUnit s d.form f.launch
    let seq := rd64 s (STR_UNIT_NEXT_LO i) (STR_UNIT_NEXT_HI i)
    let m := videoMade s st d f r p seq
    let s := onlyIf late s (fun s => setEvt (count (countLate s i) (CH_LATE_CNT n)) (CH_EVT n) 4)
    let s := putUnit s i legacy m
    let s := modPic s n f.j p.id (fun p => { p with packaged := true, late := late, unitCrc := crc32c m.bytes, unitSeq := seq })
    closeResults s n f.j

/-- What the audio of a frame's time needs of it. -/
def FrameSt.mark (f : FrameSt) : FrameMark :=
  { g := f.g, next := gAt f.grid (f.j + 1), offset := f.presentOffset, decided := f.decided, idr := f.idr, splice := f.splice
    sections := f.sections }

/-- The frames of a channel that its audio still looks at, oldest first. -/
def frameMarks (c : Chan) : List FrameMark := c.past ++ c.frames.map FrameSt.mark

/-- The frame in which a time lies. -/
def frameOfTime (s : State) (n : Nat) (t : Int) : Option FrameMark := (frameMarks (chan s n)).find? (fun f => f.g ≤ t && t < f.next)

/-- The sections that an audio chunk carries: those of the frames at or after whose presentation it is the first to present; `prev` is the
time of the chunk before it (R284). -/
def audioSections (s : State) (n : Nat) (t : Int) (prev : Option Int) : List (List Byte) :=
  (((frameMarks (chan s n)).filter (fun f => f.g ≤ t && (match prev with
    | some q => q < f.g
    | none => true))).map (fun f => f.sections)).flatten

/-- The presentation offset of a channel's frames now. -/
def offsetNow (s : State) (n : Nat) : Int := (((frameMarks (chan s n)).getLast?).map (fun f => f.offset)).getD 0

/-- What the audio unit at the head of a stream brings, by the stream's definition (R258, R259, R268, R274, R275). -/
def audioMade (s : State) (i : Nat) (st : StreamSt) (d : OldStream) (x : AudioUnit) : UnitMade :=
  let n := i / 64
  let form := d.form
  let f := frameOfTime s n x.t
  let off := (f.map (fun f => f.offset)).getD (offsetNow s n)
  let cmaf := i % 64 ≥ 40 && (form = 3 || form = 4)
  let idr := cmaf && (f.map (fun f => f.idr)).getD false
  let prev := if st.freshNext && !oldSound s i then none else some (sampleTime x.prg.rate96 (x.pos - auLength x.prg))
  let sections := if cmaf then audioSections s n x.t prev else []
  let seq := rd64 s (STR_UNIT_NEXT_LO i) (STR_UNIT_NEXT_HI i)
  let r := x.plan.rends.find? (fun r => r.id = i % 64)
  let ts : Option (List Byte × List Nat) := if 40 ≤ i % 64 then none
    else r.map (fun r => numberTs d.cc (audioTs x.plan r x.idx x.prg (ptsOf (x.t + off)) x.bytes))
  let bytes := match ts with
    | some y => y.1
    | none => if cmaf then cmafChunk idr idr sections seq x.pos (auLength x.prg) x.bytes else x.bytes
  { frame := none, ptime := x.t + off, launch := x.launch, span := 1000000
    rtpTs := if form = 5 then some (wordOf x.pos) else if form = 3 then some (wordOf (count90k (x.t + off))) else none
    flags := unitFlags idr idr (cmaf && (f.map (fun f => f.splice)).getD false) (!sections.isEmpty) (lateUnit s form x.launch) false
    bytes := bytes, init := if form = 3 && idr then (st.head x.slice).init else []
    net := if 40 ≤ i % 64 then x.prg.net else (r.map (fun r => r.net)).getD x.prg.net
    cc := (ts.map (fun y => y.2)).getD d.cc, psiG := d.psiG }

/-- Package the audio unit at the head of a stream. -/
def packAudio (s : State) (i : Nat) (x : AudioUnit) : State :=
  match streamOf s i with
  | none => s
  | some st =>
    let legacy := oldSound s i
    let d := streamDef s st legacy
    let m := audioMade s i st d x
    let s := onlyIf (lateUnit s d.form x.launch) s (fun s => countLate s i)
    let s := modStream s i (fun y => { y with audio := y.audio.drop 1, oldAudio := y.oldAudio - 1 })
    putUnit s i legacy m

/-- Whether the frame of a CMAF audio chunk is decided, so that its segment start is known (R275). -/
def audioReady (s : State) (i : Nat) (t : Int) : Bool :=
  if i % 64 < 40 || unitForm s i (oldSound s i) = 5 then true
  else match frameOfTime s (i / 64) t with
    | some f => f.decided
    | none => (chan s (i / 64)).grid.isNone || (chan s (i / 64)).dead || (chan s (i / 64)).stopped ||
        (frameMarks (chan s (i / 64))).any (fun f => t < f.g)

/-- Whether the next unit of a stream in launch order is a picture; video goes before audio of the same time (R279). -/
def videoFirst (s : State) (i : Nat) : Bool :=
  match nextVideoLaunch s i, nextAudioLaunch s i with
  | some x, some y => decide (x ≤ y)
  | some _, none => true
  | none, _ => false

/-- UNIT_PACKAGED: the stream's next unit in launch order is packaged: its oldest sized picture, or its next audio unit. -/
def execUnitPackaged (stream : Nat) (s : State) : Host.Outcome State Fault Refusal :=
  act (stream < 1024) s (fun s =>
    match streamOf s stream with
    | none => s
    | some st =>
      if videoFirst s stream then
        match oldestPic s (stream / 64) (stream % 64) (fun p => !p.packaged) with
        | some (f, r, p) => if p.sized && noticeIn s (stream / 64) f then packVideo s stream f r p else s
        | none => s
      else match st.audio with
        | x :: _ => if audioReady s stream x.t then packAudio s stream x else s
        | [] => s)

/-! ### Datagrams (R269, R274, R277) -/

/-- What datagram `i` of a unit carries behind its UDP and RTP headers: seven TS packets, the payload header of R277 and at most 1,400
bytes, or a PCM packet. -/
def datagramData (u : RetUnit) (i : Nat) : List Byte :=
  match u.form with
  | 1 | 2 => (u.bytes.drop (1316 * i)).take 1316
  | 5 => u.bytes
  | _ =>
    let k := (u.init.length + 1399) / 1400
    if i < k then cmafHeader u.seq (1400 * i) 1 ++ (u.init.drop (1400 * i)).take 1400
    else cmafHeader u.seq (1400 * (i - k)) 0 ++ (u.bytes.drop (1400 * (i - k))).take 1400

/-- Datagram `i` of a unit as it leaves: the RTP marker bit is set on the last of a chunk (R269, R277). -/
def datagramWire (u : RetUnit) (a : NetPlan) (i n : Nat) (num : BitVec 16) (ts : Word) : List Byte :=
  let data := datagramData u i
  let marker : Bool := u.form ≠ 2 && u.form ≠ 5 && i + 1 = n
  etherFrame a (ipPacket a (if u.form = 1 then data else rtpPacket marker (rtpType u.form a) num ts a.ssrc data))

/-! ### DATAGRAM_LAUNCH (R279 to R281, R434, R449, R450) -/

/-- A datagram that may leave a port: its stream, its unit and its scheduled time. -/
structure Due where
  stream : Nat
  item : RetUnit
  at_ : Int

/-- The stream's next datagram in the order of the scheduled times, video before audio (R279). -/
def nextOf (st : StreamSt) : Option RetUnit :=
  st.held.foldl (fun best u =>
    let open_ := u.waits && formSent u.form && (match st.lostAt with
      | none => true
      | some q => u.seq < q)
    if open_ then
      match best with
      | none => some u
      | some b => if u.nextAt < b.nextAt || (u.nextAt = b.nextAt && u.frame.isSome && b.frame.isNone) then some u else some b
    else best) none

/-- The datagrams of a stream that have left and are not confirmed (R450). -/
def unconfirmed (st : StreamSt) : Nat := st.held.foldl (fun a u => a + (u.sent - u.acked)) 0

/-- Whether the window of a stream's form lets its next datagram leave (R450). -/
def windowOpen (s : State) (st : StreamSt) (u : RetUnit) : Bool :=
  if role s = 1 && linkUp s then
    match u.form with
    | 1 | 2 => unconfirmed st < 9
    | 3 => st.held.all (fun x => x.seq = u.seq || x.sent ≤ x.acked)
    | _ => unconfirmed st < 1
  else true

/-- Whether a unit that is not packaged yet holds a datagram of its stream scheduled at a time (R279). -/
def heldBack (s : State) (i : Nat) (u : RetUnit) : Bool :=
  (match nextVideoLaunch s i with
    | some l => if u.frame.isSome then l < u.nextAt else l ≤ u.nextAt
    | none => false) ||
  (match nextAudioLaunch s i with
    | some a => a < u.nextAt
    | none => false)

/-- Whether class 0 and class 2 may launch: unpaired, or the device drives BW_HOLD (R434). -/
def mayLaunch (s : State) : Bool := !isPaired s || holdDrive s

/-- Whether a port's egress runs: its link is up and no fault ordered sets hold it (R318, R324, R325). -/
def portUp (s : State) (p : Nat) : Bool := rdFld s (P_PORT_STATE p) 2 0 = 5 && !rdBit s (P_PORT_STATE p) 3

/-- The signed distance of a launch time from now (R302). -/
def diff40 (s : State) (lt : BitVec 40) : Int := (lt - now40 s).toInt

/-- Whether the scheduled time of a live datagram has come, by its low 40 bits (R301, R302). -/
def launchDue (s : State) (t : Int) : Bool := diff40 s (BitVec.ofInt 40 t) ≤ 0

/-- The live datagram a port launches now: the least scheduled time, then the least stream ID (R280). -/
def dueLive (s : State) (p : Nat) : Option Due :=
  if mayLaunch s && portUp s p then
    s.streams.foldl (fun best st =>
      match nextOf st with
      | none => best
      | some u =>
        if u.port = p && launchDue s u.nextAt && windowOpen s st u && !heldBack s st.id u then
          match best with
          | none => some { stream := st.id, item := u, at_ := u.nextAt }
          | some b =>
            if u.nextAt < b.at_ || (u.nextAt = b.at_ && st.id < b.stream) then
              some { stream := st.id, item := u, at_ := u.nextAt }
            else some b
        else best) none
  else none

/-- The time at which a host packet is due, relative to now. -/
def hostDiff (s : State) (k : HostPkt) : Int := if k.now then 0 else diff40 s k.launch

/-- The host packet a port launches now: the first packet of each queue, the least launch time, then the least queue number
(R280, R282, R302). -/
def dueHost (s : State) (p : Nat) : Option HostPkt :=
  if portUp s p then
    let firsts := (portOf s p).hostQ.foldl (fun (l : List HostPkt) k => if l.any (fun x => x.q = k.q) then l else l ++ [k]) []
    (firsts.filter (fun k => hostDiff s k ≤ 0)).foldl (fun best k =>
      match best with
      | none => some k
      | some b => if hostDiff s k < hostDiff s b || (hostDiff s k = hostDiff s b && k.q < b.q) then some k else some b) none
  else none

/-- The lateness of a live datagram is counted (R279, R281). -/
def countPace (s : State) (i : Nat) (at_ : Int) : State :=
  let late := nowN s - at_
  let s := wr s (STR_MAX_LATE i) (wordOf (min (2 ^ 32 - 1) (max (rd s (STR_MAX_LATE i)).toNat late.toNat)))
  onlyIf (2000 < late) s (fun s => setEvt (count s (STR_PACE_LATE i)) (EGR_CH_EVT (i / 64)) 1)

/-- Note what the next ACK says of a stream (R449). -/
def noteAck (l : List (Nat × Nat × Nat)) (i d u : Nat) : List (Nat × Nat × Nat) :=
  match l with
  | [] => [(i, d, u)]
  | x :: xs => if x.1 = i then (i, d, u) :: xs else x :: noteAck xs i d u

/-- A live datagram leaves (R270, R279, R280, R449). -/
def launchLive (s : State) (p : Nat) (d : Due) : State :=
  let u := d.item
  let i := d.stream
  let num := ((streamOf s i).map (fun x => if u.fresh && u.sent = 0 then u.seq0 else x.outSeq)).getD 0
  let rtp := formRtp u.form
  let s := modStream s i (fun x => { x with
    outSeq := if rtp then num + 1 else x.outSeq
    held := x.held.map (fun y => if y.seq = u.seq then { y with sent := y.sent + 1 } else y) })
  let s := bump s (STR_DGRAMS i)
  let s := count64 s (STR_BYTES_LO i) (STR_BYTES_HI i) (datagramBytes u u.sent)
  let s := bump (countPace s i d.at_) (P_TX_FRAMES p)
  let s := onlyIf (role s = 1) s (fun s => modPair s (fun x => { x with ackDue := noteAck x.ackDue i u.sent u.seq }))
  let s := match u.frame with
    | some (j, _) => if u.sent = 0 then modPic s (i / 64) j (i % 64) (fun x => { x with launched := true }) else s
    | none => s
  emit s (.datagram p i u.seq u.sent d.at_ (if rtp then some num else none) (if rtp then some (datagramTs u u.sent) else none)
    (datagramWire u u.net u.sent u.nDgrams num (datagramTs u u.sent)))

/-- The unit a re-send sends next; none when it has been overwritten (R289). -/
def resendUnit (s : State) (j : ResendJob) : Option RetUnit :=
  (streamOf s j.stream).bind (fun st => st.held.find? (fun u => u.seq = j.next))

/-- A re-send ends: its completion is written and RESEND_ACT counts down (R289, R290). -/
def endResend (s : State) (j : ResendJob) (status : Nat) : State :=
  let s := { s with resends := s.resends.filter (fun x => !(x.q = j.q && x.slot = j.slot)) }
  let s := wrFld s EGR_RESEND_ACT 4 0 s.resends.length
  finish s j.q j.slot status (leBytes 4 j.sent)

/-- The datagrams a re-send makes of a unit: as the live stream's form, of one for the retained-only forms' bytes. -/
def resendCount (u : RetUnit) : Nat := if u.nDgrams = 0 then max 1 ((u.bytes.length + 1399) / 1400) else u.nDgrams

/-- A re-sent datagram leaves (R289): the next is due after its bits at RATE, in whole ticks (R301; log entry 18); the last of the last unit completes the
command. -/
def launchResend (s : State) (p : Nat) (j : ResendJob) : State :=
  match resendUnit s j with
  | none => endResend s j 0x04
  | some u =>
    let s := bump (count s (STR_RESENT j.stream)) (P_TX_FRAMES p)
    let s := emit s (.resent p j.stream u.seq j.dgram j.seq
      (datagramWire u { resendNet u.net p j.dest j.udp with ssrc := j.ssrc } j.dgram (resendCount u) j.seq (datagramTs u j.dgram)))
    let bits := 8 * datagramBytes u j.dgram
    let lastOf := resendCount u ≤ j.dgram + 1
    let j' : ResendJob := { j with
      seq := j.seq + 1
      sent := j.sent + 1
      dgram := if lastOf then 0 else j.dgram + 1
      next := if lastOf then j.next + 1 else j.next
      left := if lastOf then j.left - 1 else j.left
      due := j.due + BitVec.ofNat 48 (bits * 1250000000 / max 1 j.rate) }
    if lastOf && j.left ≤ 1 then endResend s j' 0x00
    else { s with resends := s.resends.map (fun x => if x.q = j.q && x.slot = j.slot then j' else x) }

/-- The re-send a port serves now: the least scheduled time, then the least queue number (R280). -/
def dueResend (s : State) (p : Nat) : Option ResendJob :=
  if mayLaunch s && portUp s p then
    s.resends.foldl (fun best j =>
      if j.port = p && ticksSince s j.due 0 then
        match best with
        | none => some j
        | some b => if sdiff j.due b.due < 0 || (j.due = b.due && j.q < b.q) then some j else some b
      else best) none
  else none

/-- DATAGRAM_LAUNCH: the port's next datagram of class 0, or of class 2 where none of class 0 or 1 is due. -/
def execDatagramLaunch (p : Nat) (s : State) : Host.Outcome State Fault Refusal :=
  act (p < 24) s (fun s =>
    match dueLive s p with
    | some d => launchLive s p d
    | none =>
      if (dueHost s p).isSome then s
      else match dueResend s p with
        | some j => launchResend s p j
        | none => s)

/-- HOST_EGRESS_LAUNCH: the port's next host packet leaves where no live datagram is due; its stamp is captured or discarded
and its completion finishes (R280, R282, R302, R307, R378). -/
def execHostEgressLaunch (p : Nat) (s : State) : Host.Outcome State Fault Refusal :=
  act (p < 24) s (fun s =>
    if (dueLive s p).isSome then s
    else match dueHost s p with
      | none => s
      | some k =>
        let late := !k.now && hostDiff s k < -2000
        let s := modPort s p (fun x => { x with hostQ := x.hostQ.erase k })
        let s := onlyIf (late || k.past) s (fun s => count s (TXP_HQ_LATE p))
        let (s, gone) := if k.ts then captureTxts s p k.id else (s, false)
        let s := emit (bump s (P_TX_FRAMES p)) (.hostPacket p k.q k.id (k.bytes ++ wordBytes (crcOf 0 k.bytes)))
        finish s k.q k.slot 0x00 (leBytes 2 k.id.toNat ++
          leBytes 1 (b2n k.ts + 2 * b2n gone + 4 * b2n late + 8 * b2n k.past)))

/-! ### METADATA_WRITE (R96, R268, R287) -/

/-- Whether a picture's part of R96's condition is met: its first packet has launched, or for a form that launches nothing
its unit is packaged and the launch time has come; a stream that is LOST or diverged from launching does not hold it. -/
def metaReady (s : State) (n : Nat) (f : FrameSt) (p : RendPic) : Bool :=
  let i := rendStream n p.id
  let form := unitForm s i (oldPicture s i f)
  p.packaged && reached s f.launch &&
    (p.launched || !formSent form || (match streamOf s i with
      | none => true
      | some st => st.lostAt.isSome || (st.held.all (fun u => u.frame ≠ some (f.j, f.k) || 0 < u.sent))))

/-- A frame goes; what the audio of its time needs of it stays, for the newest 256 frames: its chunks launch at most 45 ms after it
(R258). -/
def keepMark (past : List FrameMark) (f : FrameSt) : List FrameMark := (past ++ [f.mark]).drop (past.length - 255)

/-- Write the metadata record of a frame and let the frame go (R96, R97). -/
def writeMeta (s : State) (n : Nat) (f : FrameSt) : State :=
  let bs := metaRecord f n
  let s := modChan s n (fun c => { c with
    metaRing := c.metaRing ++ [bs]
    frames := c.frames.filter (fun x => x.j ≠ f.j)
    past := keepMark c.past f })
  let s := settleRelease s n
  let s := putUnit s (n * 64 + 48) false
    { frame := none, ptime := f.g, launch := f.launch, span := 0, rtpTs := none, flags := 0, bytes := bs, init := []
      net := noNet, cc := List.replicate 12 0, psiG := none }
  if tbit (f.reg (CH_META_CTL n)) 15 then
    let r := putRecord s (f.fld (CH_META_CTL n) 14 0) bs
    if r.2 then r.1 else setEvt (count r.1 (CH_META_DROP n)) (CH_EVT n) 3
  else s

/-- METADATA_WRITE: acts on the channel's oldest frame once every rendition's part is met. A frame of a channel left with no
engine goes without a record once its launch time has passed and what it has verified is packaged (R158). -/
def execMetadataWrite (n : Nat) (s : State) : Host.Outcome State Fault Refusal :=
  act (n < 16) s (fun s =>
    match (chan s n).frames with
    | [] => s
    | f :: _ =>
      if f.started && f.rends.all (metaReady s n f) && reached s f.launch then writeMeta s n f
      else if (chan s n).dead && reached s f.launch && f.rends.all (fun p => p.packaged || !p.verified) then
        settleRelease (modChan s n (fun c => { c with frames := c.frames.drop 1, past := keepMark c.past f })) n
      else s)

/-! ### SPLICE (R283) -/

/-- The splice commands of a channel that are pending: not bound, or bound with their splice frame to come (R283 to R285). -/
def pendingSplices (s : State) (n : Nat) : Nat := ((chan s n).cmds.filter PendCmd.isSplice).length + (chan s n).splices.length

/-- SPLICE: the next command of a queue is a splice. -/
def execSplice (q : Nat) (s : State) : Host.Outcome State Fault Refusal :=
  act (q < 32768) s (fun s => onCommand s q 0x05 (fun o p s =>
    let n := leAt p 0 1
    let len := leAt p 2 2
    let sec := (p.drop 16).take len
    let refuse (st : Nat) : State := refuseCmd (count s EGR_SPLICE_REJ) q o.slot st
    if 15 < n || !chanDefined s n then refuse 0x01
    else if len < 16 || 1024 < len || sec.length ≠ len || spliceMalformed sec || spliceEncrypted sec then refuse 0x02
    else if !spliceKindOk sec then refuse 0x03
    else if 8 ≤ pendingSplices s n then refuse 0x04
    else addCmd (count s EGR_SPLICE_CNT) n { late := false, q := q, slot := o.slot, target := leInt64 p 8, payload := p
                                             kind := .splice sec (spliceImmediate sec) }))

/-! ### RETENTION_FETCH, RESEND (R287 to R289, R375, R378) -/

/-- Whether a stream is defined. -/
def strDefined (s : State) (i : Nat) : Bool := i < 1024 && (streamOf s i).isSome && strForm s i ≠ 0

/-- Whether a stream's share holds a unit. -/
def unitHeld (s : State) (i seq : Nat) : Bool :=
  ((streamOf s i).map (fun st => st.held.any (fun u => u.seq = seq))).getD false

/-- The index entry of a unit (R287). -/
def indexEntry (u : RetUnit) : List Byte :=
  leBytes 8 u.seq ++ leInt 8 u.ptime ++ leBytes 4 u.bytes.length ++ leBytes 2 u.flags.toNat ++ leBytes 2 u.seq0.toNat ++
    zeros 4 ++ wordBytes u.crc

/-- RESULT of a fetch (R378). -/
def fetchResult (s : State) (i units bytes : Nat) : List Byte :=
  leBytes 4 units ++ zeros 4 ++ leBytes 8 bytes ++ leBytes 8 (retFirst s i)

/-- RETENTION_FETCH: the next command of a queue is a fetch; one that cannot start finishes at once. -/
def execRetentionFetch (q : Nat) (s : State) : Host.Outcome State Fault Refusal :=
  act (q < 32768) s (fun s => onCommand s q 0x07 (fun o p s =>
    let i := leAt p 0 2
    let first := leAt p 8 8
    if !strDefined s i then finish (count s EGR_FETCH_CNT) q o.slot 0x01 (fetchResult s i 0 0)
    else if !unitHeld s i first then finish (count s EGR_FETCH_CNT) q o.slot 0x02 (fetchResult s i 0 0)
    else s))

/-- What a fetch writes for one unit. -/
def fetchBytes (indexOnly : Bool) (u : RetUnit) : List Byte := if indexOnly then indexEntry u else indexEntry u ++ u.bytes

/-- The units a fetch writes: at most `cnt` from `seq`, in order, while each is held and its bytes fit; and why it stopped. -/
def fetchUnits (held : List RetUnit) (indexOnly : Bool) (seq room : Nat) : Nat → List RetUnit × Nat
  | 0 => ([], 0x00)
  | cnt + 1 =>
    match held.find? (fun u => u.seq = seq) with
    | none => ([], 0x04)
    | some u =>
      let b := (fetchBytes indexOnly u).length
      if room < b then ([], 0x03)
      else
        let r := fetchUnits held indexOnly (seq + 1) (room - b) cnt
        (u :: r.1, r.2)

/-- RETENTION_FETCH_DONE: the copy of the queue's oldest running fetch ends; `copied` units had been copied when a DMA error
stopped it. -/
def execRetentionFetchDone (q copied : Nat) (dmaErr : Bool) (s : State) : Host.Outcome State Fault Refusal :=
  act (q < 32768) s (fun s =>
    match (queueSt s q).outst.find? (fun o => o.opcode = 7 && o.handed && o.done.isNone) with
    | none => s
    | some o =>
      let p := o.payload.getD []
      let i := leAt p 0 2
      let index := leAt p 20 4 % 2 = 1
      let held := ((streamOf s i).map (fun st => st.held)).getD []
      let r := fetchUnits held index (leAt p 8 8) (leAt p 32 8) (leAt p 16 4)
      let us := if dmaErr then r.1.take copied else r.1
      let bs := (us.map (fetchBytes index)).flatten
      let s := onlyIf (!us.isEmpty && !o.dead) s (fun s => emit (leaveL1 s) (.hostWrite (leAt p 24 8) bs))
      finish (count s EGR_FETCH_CNT) q o.slot (if dmaErr then 0x05 else r.2) (fetchResult s i us.length bs.length))

/-- RESEND: the next command of a queue is a re-send; at most 16 run at once. -/
def execResend (q : Nat) (s : State) : Host.Outcome State Fault Refusal :=
  act (q < 32768) s (fun s => onCommand s q 0x08 (fun o p s =>
    let i := leAt p 0 2
    let first := leAt p 8 8
    if !strDefined s i then finish s q o.slot 0x01 (leBytes 4 0)
    else if !unitHeld s i first then finish s q o.slot 0x02 (leBytes 4 0)
    else if 16 ≤ s.resends.length then finish s q o.slot 0x06 (leBytes 4 0)
    else
      let j : ResendJob :=
        { q := q, slot := o.slot, stream := i, port := leAt p 2 1, next := first, left := leAt p 4 4, dgram := 0
          seq := BitVec.ofNat 16 (leAt p 34 2), ssrc := wordOf (leAt p 36 4), dest := (p.drop 16).take 16, udp := leAt p 32 2
          rate := leAt p 40 8, due := s.raw, sent := 0 }
      wrFld { s with resends := s.resends ++ [j] } EGR_RESEND_ACT 4 0 (s.resends.length + 1)))

end Sys2Proof.Machine
end

