-- ==== Sys2Proof/Machine/Lanes.lean ====
section
/-!
DEFINITION. Network lanes, ports and receive flows (spec/12_lanes_ports.md).
-/
namespace Sys2Proof.Machine

/-! ### Ports and their lanes (R316 to R318) -/

/-- PORT_STATE.STATE. -/
def portState (s : State) (p : Nat) : Nat := rdFld s (P_PORT_STATE p) 2 0
/-- Set PORT_STATE.STATE. -/
def putPortState (s : State) (p st : Nat) : State := wrFld s (P_PORT_STATE p) 2 0 st
/-- The lanes of a port. -/
def portLanes (s : State) (p : Nat) : List Nat :=
  (List.range (rdFld s (P_PORT_CFG p) 12 9)).map (fun i => rdFld s (P_PORT_CFG p) 8 3 + i)
/-- The port of a lane; none where no image gives it one. -/
def lanePort (s : State) (l : Nat) : Option Nat :=
  let p := rdFld s (LN_STAT l) 10 5
  if p < 24 then some p else none
/-- Whether a port's lanes signal in NRZ (R316). -/
def portNrz (s : State) (p : Nat) : Bool := 5 ≤ rdFld s (P_PORT_CFG p) 2 0
/-- Whether LOS is clear on every lane of a port. -/
def losClear (s : State) (p : Nat) : Bool := (portLanes s p).all (fun l => rdBit s (LN_STAT l) 0)
/-- Whether LOL is clear on every lane of a port. -/
def lolClear (s : State) (p : Nat) : Bool := (portLanes s p).all (fun l => rdBit s (LN_STAT l) 1)

/-- The streams of a port. -/
def portStreams (s : State) (p : Nat) : List Nat :=
  (s.streams.map (fun x => x.id)).filter (fun i => formSent (strForm s i) && strPort s i = p)

/-- Show whether a port holds its egress, and count a hold begun; its streams read holding (R281, R290, R292, R325). -/
def showPortHold (s : State) (p : Nat) : State :=
  let defined := rdFld s (P_PORT_CFG p) 12 9 ≠ 0
  let hold := defined && !portUp s p
  let s := onlyIf (hold && !rdBit s (EGR_PORT_STAT p) 0) s (fun s => count s EGR_HOLD_CNT)
  let s := wrBit s (EGR_PORT_STAT p) 0 hold
  forEach (portStreams s p) s (fun i s =>
    if rdFld s (STR_STAT i) 1 0 = 2 then s else wrFld s (STR_STAT i) 1 0 (if hold then 3 else 1))

/-- Every lane of a port loses its alignment. -/
def unalign (s : State) (p : Nat) : State := forEach (portLanes s p) s (fun l s => wrBit s (LN_STAT l) 2 false)

/-! ### Attempts (R319, R320, R322) -/

/-- The lanes of a port enter hunting: RX_INV is judged afresh (R322). -/
def hunt (s : State) (p : Nat) : State := forEach (portLanes s p) (unalign s p) (fun l s => wrBit s (LN_STAT l) 3 false)

/-- A stage of an attempt begins; the lane trims that wait take effect in TRAIN, or in ALIGN for a port without training (R320, R473). -/
def enterStage (s : State) (p st : Nat) : State :=
  let s := modPort (putPortState s p st) p (fun x => { x with since := s.raw, waitEnd := none, losAtEnd := false })
  if st = 2 || (st = 4 && rdBit s (P_PORT_CFG p) 13) then s else takeTrims s (4 * rdFld s (P_PORT_CFG p) 8 3) (4 * rdFld s (P_PORT_CFG p) 12 9)

/-- TX_INV of a port's lanes takes effect as the port leaves DOWN (R322). -/
def leaveDown (s : State) (p : Nat) : State := forEach (portLanes s p) s (fun l s => wrBit s (LN_STAT l) 4 (rdBit s (LN_CTL l) 0))

/-- An attempt starts: with AN_EN the port negotiates, else it aligns (R319, R322). -/
def startAttempt (s : State) (p : Nat) : State :=
  enterStage (hunt (leaveDown s p) p) p (if rdBit s (P_PORT_CFG p) 13 then 2 else 4)

/-- The wait before the next attempt: 10 ms, or 1 s after 16 consecutive failures (R320). -/
def retryTicks (s : State) (p : Nat) : Nat := if 16 ≤ rdFld s (P_PORT_STATE p) 20 16 then secTicks 1 else msTicks 10

/-- A port enters DOWN and waits. -/
def enterDown (s : State) (p : Nat) : State :=
  let s := putPortState (unalign s p) p 1
  modPort s p (fun x => { x with waitEnd := some (s.raw + BitVec.ofNat 48 (retryTicks s p)), losAtEnd := false })

/-- An attempt fails (R319, R320). -/
def failAttempt (s : State) (p code : Nat) : State :=
  let an := code ≤ 2
  let s := count s (if an then P_AN_FAIL p else P_TRAIN_FAIL p)
  let s := setEvt s (P_EVT p) (if an then 3 else 2)
  let s := wrFld s (P_PORT_STATE p) 15 8 code
  enterDown (wrFld s (P_PORT_STATE p) 20 16 (min 31 (rdFld s (P_PORT_STATE p) 20 16 + 1))) p

/-- Whether a stage has run for its time limit. -/
def stageOver (s : State) (p ticks : Nat) : Bool := ticksSince s (portOf s p).since ticks

/-- The time in which every lane must reach receiver ready (R319). -/
def trainTicks (s : State) (p : Nat) : Nat := if portNrz s p then msTicks 500 else secTicks 3

/-- Inversion is detected on lanes of a port, numbered within the port (R322). -/
def invert (s : State) (p : Nat) (ls : List Nat) : State :=
  forEach (ls.filter (fun i => i < rdFld s (P_PORT_CFG p) 12 9)) s (fun i s =>
    let l := rdFld s (P_PORT_CFG p) 8 3 + i
    setEvt (count (wrBit s (LN_STAT l) 3 true) (LN_INV_CNT l)) (LN_EVT l) 2)

/-- PORT_ATTEMPT_START: a port in DOWN whose wait is over starts when LOS is clear on every lane. -/
def execPortAttemptStart (p : Nat) (s : State) : Host.Outcome State Fault Refusal :=
  act (p < 24) s (fun s =>
    let waited := match (portOf s p).waitEnd with
      | none => true
      | some t => hasCome s t
    if portState s p = 1 && waited && losClear s p then startAttempt s p else s)

/-- The one technology that a port advertises: the one its octet mode gives; a 400G port never negotiates (R316, R319). -/
def advertised (s : State) (p : Nat) : Technology :=
  match rdFld s (P_PORT_CFG p) 2 0 with
  | 2 => .cr4200
  | 3 => .cr2100
  | 4 => .cr50
  | 5 => .cr25
  | 6 => .kr10
  | _ => .other

/-- AN_COMPLETE: the port trains, or fails where the highest common technology is not the one it advertises. -/
def execAnComplete (p : Nat) (common : Technology) (s : State) : Host.Outcome State Fault Refusal :=
  act (p < 24) s (fun s =>
    if portState s p = 2 && !stageOver s p (msTicks 500) then
      if common = advertised s p then enterStage s p 3 else failAttempt s p 0x01
    else s)

/-- AN_TIMEOUT. -/
def execAnTimeout (p : Nat) (s : State) : Host.Outcome State Fault Refusal :=
  act (p < 24) s (fun s => if portState s p = 2 && stageOver s p (msTicks 500) then failAttempt s p 0x02 else s)

/-- TRAIN_COMPLETE. -/
def execTrainComplete (p : Nat) (inverted : List Nat) (s : State) : Host.Outcome State Fault Refusal :=
  act (p < 24) s (fun s =>
    if portState s p = 3 && !stageOver s p (trainTicks s p) then enterStage (invert s p inverted) p 4 else s)

/-- TRAIN_TIMEOUT. -/
def execTrainTimeout (p : Nat) (s : State) : Host.Outcome State Fault Refusal :=
  act (p < 24) s (fun s => if portState s p = 3 && stageOver s p (trainTicks s p) then failAttempt s p 0x03 else s)

/-- The port enters UP (R319, R415). -/
def portUpNow (s : State) (p : Nat) : State :=
  let s := forEach (portLanes s p) s (fun l s => wrBit s (LN_STAT l) 2 true)
  let s := wrFld (putPortState s p 5) (P_PORT_STATE p) 20 16 0
  let s := enter (setEvt (count s (P_LINK_UP_CNT p)) (P_EVT p) 0) 0x0401 p [] false s.raw 0
  showPortHold s p

/-- A valid 64b/66b sync header: 0b01 or 0b10 (R321). -/
def validHeader (h : BitVec 2) : Bool := h = 1 || h = 2

/-- Lock: the last 64 headers are valid (R321). -/
def headerLock (hs : List (BitVec 2)) : Bool := 64 ≤ hs.length && (hs.reverse.take 64).all validHeader

/-- Lock lost: 16 of the last 64 headers are invalid (R321). -/
def headerLoss (hs : List (BitVec 2)) : Bool := 16 ≤ ((hs.reverse.take 64).filter (fun h => !validHeader h)).length

/-- A marker is read in the same form in the last 2 marker periods (R321, R322). -/
def markerTwice (m : Marker) (ms : List Marker) : Bool := ms.reverse.take 2 = [m, m]

/-- Marker lock lost: 4 consecutive marker positions fail to match (R321). -/
def markerLoss (ms : List Marker) : Bool := 4 ≤ ms.length && (ms.reverse.take 4).all (fun m => m ≠ .found)

/-- The block types of 64b/66b; PRESUMED from Clause 49 (log entry 62). -/
def blockTypes : List Byte := [0x1E, 0x2D, 0x33, 0x4B, 0x55, 0x66, 0x78, 0x87, 0x99, 0xAA, 0xB4, 0xCC, 0xD2, 0xE1, 0xFF]

/-- Inversion of a lane without FEC: of its first 64 blocks with header 0b10 more than 32 have an invalid block type whose complement is
valid (R322). -/
def typesInverted (ts : List Byte) : Bool :=
  32 < ((ts.take 64).filter (fun t => !blockTypes.contains t && blockTypes.contains (~~~t))).length

/-- Whether a lane of a port is aligned: its headers lock and, with RS-FEC, its markers are found, or on a lane that did not train their
complements, at their spacing in 2 consecutive periods (R321, R322). -/
def laneAligned (s : State) (p : Nat) (x : LaneRx) : Bool :=
  headerLock x.headers && (!rdBit s (P_PORT_CFG p) 14 || markerTwice .found x.markers ||
    (!rdBit s (P_PORT_CFG p) 13 && markerTwice .complement x.markers))

/-- Whether a lane of a port that did not train is seen to be inverted (R322). -/
def laneInverted (s : State) (p : Nat) (x : LaneRx) : Bool :=
  !rdBit s (P_PORT_CFG p) 13 &&
    (if rdBit s (P_PORT_CFG p) 14 then markerTwice .complement x.markers else typesInverted x.types)

/-- Whether every lane of a port is aligned and its PCS holds block lock (R319, R321); a lane without signal or lock cannot be. -/
def portAligned (s : State) (p : Nat) (lanes : List LaneRx) (pcs : List (BitVec 2)) : Bool :=
  losClear s p && lolClear s p && lanes.length = rdFld s (P_PORT_CFG p) 12 9 && lanes.all (laneAligned s p) && headerLock pcs

/-- The lanes of a port, numbered within it, that alignment shows inverted. -/
def invertedLanes (s : State) (p : Nat) (lanes : List LaneRx) : List Nat :=
  (lanes.zipIdx.filter (fun x => laneInverted s p x.1)).map (fun x => x.2)

/-- ALIGN_COMPLETE: every lane is aligned and block lock holds. -/
def execAlignComplete (p : Nat) (lanes : List LaneRx) (pcs : List (BitVec 2)) (s : State) : Host.Outcome State Fault Refusal :=
  act (p < 24) s (fun s =>
    if portState s p = 4 && !stageOver s p (msTicks 100) && portAligned s p lanes pcs then
      portUpNow (invert s p (invertedLanes s p lanes)) p
    else s)

/-- ALIGN_TIMEOUT. -/
def execAlignTimeout (p : Nat) (s : State) : Host.Outcome State Fault Refusal :=
  act (p < 24) s (fun s => if portState s p = 4 && stageOver s p (msTicks 100) then failAttempt s p 0x04 else s)

/-- RETRY_WAIT_END: the attempt starts if LOS is clear; else the port stays in DOWN until it clears (R320). -/
def execRetryWaitEnd (p : Nat) (s : State) : Host.Outcome State Fault Refusal :=
  act (p < 24) s (fun s =>
    match (portOf s p).waitEnd with
    | none => s
    | some t =>
      if portState s p = 1 && hasCome s t then
        if losClear s p then startAttempt s p else modPort s p (fun x => { x with losAtEnd := true })
      else s)

/-! ### Link loss and detectors (R323, R324, R326) -/

/-- An UP port goes down with a cause; a further cause at the same tick that is numbered lower takes LAST_FAIL (R324, R326). -/
def linkDown (s : State) (p cause : Nat) : State :=
  if portState s p = 5 then
    let s := count (wrRaw s (P_LAST_DOWN_LO p) (P_LAST_DOWN_HI p) s.raw) (P_LINK_DOWN_CNT p)
    let s := setEvt (wrFld s (P_PORT_STATE p) 15 8 cause) (P_EVT p) 1
    let s := enter s 0x0400 p [] false s.raw (wordOf cause)
    showPortHold (enterDown s p) p
  else if portState s p = 1 && 0x10 ≤ rdFld s (P_PORT_STATE p) 15 8 && cause < rdFld s (P_PORT_STATE p) 15 8 &&
      rd s (P_LAST_DOWN_LO p) = wordOf s.raw.toNat && rdFld s (P_LAST_DOWN_HI p) 15 0 = s.raw.toNat / 2 ^ 32 then
    let s := wrFld s (P_PORT_STATE p) 15 8 cause
    { s with waiting := s.waiting.map (fun e =>
        if e.kind = 0x0400 && e.unit = p && e.time = s.raw then { e with data := wordOf cause } else e) }
  else s

/-- A detector asserts on a port: an UP port goes down, an attempt in progress fails with its stage's LAST_FAIL (R324, R326). -/
def detect (s : State) (p cause : Nat) : State :=
  match portState s p with
  | 2 => failAttempt s p 0x02
  | 3 => failAttempt s p 0x03
  | 4 => failAttempt s p 0x04
  | _ => linkDown s p cause

/-- Whether a lane's detectors run (R323). -/
def detecting (s : State) (l : Nat) : Bool :=
  match lanePort s l with
  | none => false
  | some p => portState s p ≠ 0 && portState s p ≠ 6

/-- A detector of a lane asserts. -/
def laneAssert (s : State) (l bit : Nat) (cnt : Reg) (cause : Nat) : State :=
  if detecting s l && rdBit s (LN_STAT l) bit then
    let s := setEvt (count (wrBit s (LN_STAT l) bit false) cnt) (LN_EVT l) bit
    match lanePort s l with
    | none => s
    | some p => detect s p cause
  else s

/-- A detector of a Mule lane asserts, or its lock is lost: the link is down (R323, R437). Lanes 48 to 51 are ML[0] to ML[3] (log entry
62); they have no counters. -/
def muleLaneLost (s : State) (m bit : Nat) : State :=
  if isPaired s && rdBit s (MULE_ML_STAT m) bit then
    muleDown (modPair (wrBit s (MULE_ML_STAT m) bit false) (fun p => { p with aligned := false })) 0
  else s

/-- LOS of a Mule lane asserts or clears; while it is asserted the link does not come up (R437). -/
def muleLos (s : State) (m : Nat) (on : Bool) : State :=
  modPair s (fun p => { p with los := p.los.filter (fun x => x ≠ m) ++ (if on then [m] else []) })

/-- LOS_ASSERT. -/
def execLosAssert (l : Nat) (s : State) : Host.Outcome State Fault Refusal :=
  act (l < 52) s (fun s => if l < 48 then laneAssert s l 0 (LN_LOS_CNT l) 0x10 else muleLaneLost (muleLos s (l - 48) true) (l - 48) 0)

/-- LOL_ASSERT. -/
def execLolAssert (l : Nat) (s : State) : Host.Outcome State Fault Refusal :=
  act (l < 52) s (fun s => if l < 48 then laneAssert s l 1 (LN_LOL_CNT l) 0x11 else muleLaneLost s (l - 48) 1)

/-- LOS_CLEAR: an attempt that waits for the last LOS of its port starts at that tick (R320). -/
def execLosClear (l : Nat) (s : State) : Host.Outcome State Fault Refusal :=
  act (l < 52) s (fun s =>
    if 48 ≤ l then wrBit (muleLos s (l - 48) false) (MULE_ML_STAT (l - 48)) 0 (isPaired s)
    else if detecting s l && !rdBit s (LN_STAT l) 0 then
      let s := setEvt (wrBit s (LN_STAT l) 0 true) (LN_EVT l) 3
      match lanePort s l with
      | none => s
      | some p =>
        let x := portOf s p
        if portState s p = 1 && (x.losAtEnd || x.waitEnd.isNone) && losClear s p then startAttempt s p
        else if 2 ≤ portState s p && portState s p ≤ 4 then hunt s p
        else s
    else s)

/-- LOL_CLEAR: a Mule lane locks again only when its link comes up. -/
def execLolClear (l : Nat) (s : State) : Host.Outcome State Fault Refusal :=
  act (l < 52) s (fun s =>
    if l < 48 && detecting s l then wrBit s (LN_STAT l) 1 true else s)

/-- BLOCK_LOCK_LOSS: a port's stream of blocks has lost its headers; numbers 24 to 27 are the lanes of the Mule (R437, log entry 62). -/
def execBlockLockLoss (p : Nat) (pcs : List (BitVec 2)) (s : State) : Host.Outcome State Fault Refusal :=
  act (p < 28) s (fun s =>
    if headerLoss pcs then (if p < 24 then linkDown s p 0x12 else muleLaneLost s (p - 24) 1) else s)

/-- MARKER_LOCK_LOSS: a lane of a port with FEC has lost its markers. -/
def execMarkerLockLoss (p : Nat) (markers : List Marker) (s : State) : Host.Outcome State Fault Refusal :=
  act (p < 24) s (fun s => if rdBit s (P_PORT_CFG p) 14 && markerLoss markers then linkDown s p 0x13 else s)

/-- RETRAIN: ignored while the port is not UP, but for the tick at which it has just gone down, of whose causes it may be the lowest (R324,
R326). -/
def execRetrain (p : Nat) (s : State) : Host.Outcome State Fault Refusal :=
  act (p < 24) s (fun s => linkDown s p 0x14)

/-- ADMIN_DOWN: the port enters ADMIN at once, with no failure counted, or leaves it for DOWN (R326). -/
def execAdminDown (p : Nat) (v : Bool) (s : State) : Host.Outcome State Fault Refusal :=
  act (p < 24) s (fun s =>
    let s := wrBit s (P_PORT_CTL p) 0 v
    let idle (s : State) : State := modPort s p (fun x => { x with waitEnd := none, losAtEnd := false })
    if portState s p = 0 then s
    else if v then
      let s := onlyIf (portState s p = 5) s (fun s => setEvt s (P_EVT p) 1)
      let s := onlyIf (portState s p = 1) s (fun s => leaveDown s p)
      showPortHold (idle (putPortState (unalign s p) p 6)) p
    else if portState s p = 6 then idle (putPortState s p 1)
    else s)

/-- FAULT_ORDERED_SET_RX: an UP port sets FAULT_RX and holds its egress (R324, R325). -/
def execFaultOrderedSetRx (p : Nat) (s : State) : Host.Outcome State Fault Refusal :=
  act (p < 24) s (fun s =>
    if portState s p = 5 then
      showPortHold (modPort (wrBit s (P_PORT_STATE p) 3 true) p (fun x => { x with faultAt := some s.raw })) p
    else s)

/-- FAULT_RX_CLEAR: acts once no such set has been received for 1 ms. -/
def execFaultRxClear (p : Nat) (s : State) : Host.Outcome State Fault Refusal :=
  act (p < 24) s (fun s =>
    if rdBit s (P_PORT_STATE p) 3 && passed s (portOf s p).faultAt (msTicks 1) then
      showPortHold (wrBit s (P_PORT_STATE p) 3 false) p
    else s)

/-! ### Lane errors (R327) -/

/-- FEC_CORRECTED. -/
def execFecCorrected (p : Nat) (s : State) : Host.Outcome State Fault Refusal :=
  act (p < 24) s (fun s => if portState s p = 5 then bump s (P_FEC_CORR p) else s)

/-- FEC_UNCORRECTABLE: one event of the port's lane-CRC class (R327). -/
def execFecUncorrectable (p : Nat) (s : State) : Host.Outcome State Fault Refusal :=
  act (p < 24) s (fun s => if portState s p = 5 then reportFault (setEvt (count s (P_FEC_UNCORR p)) (P_EVT p) 5) 2 p 1 else s)

/-! ### Reception and merge (R329 to R331) -/

/-- Whether a kind is released in order (R331). -/
def isSequential (k : Nat) : Bool := k = 2 || k = 6 || k = 7

/-- The extended sequence number of a packet (R330). -/
def extendSeq (kind : Nat) (high : Option (BitVec 32)) (seq : Nat) : BitVec 32 :=
  if kind = 1 || kind = 2 then BitVec.ofNat 32 seq
  else match high with
    | none => BitVec.ofNat 32 (seq % 65536)
    | some h => h + (BitVec.ofNat 16 seq - h.setWidth 16).signExtend 32

/-- Note that a path has delivered a packet. -/
def pathDelivers (s : State) (f : Nat) (b : Bool) : State :=
  let s := wrBit s (RXF_STAT f) (b2n b) true
  modFlow s f (fun x => if b then { x with lastB := some s.raw } else { x with lastA := some s.raw })

/-- Release the values that follow without a gap (R331). -/
def releaseRun (s : State) (f : Nat) : Nat → State
  | 0 => s
  | n + 1 =>
    let x := flowOf s f
    match x.nextRel with
    | none => s
    | some r =>
      if x.held.any (fun h => h.1 = r) then
        let s := countMisses s f r r
        releaseRun (modFlow s f (fun x => { x with nextRel := some (r + 1), held := x.held.filter (fun h => h.1 ≠ r) })) f n
      else s

/-- Whether a value stays in what a flow keeps: in the record of 32,768 values, or still to be counted (R330, R335). -/
def keepsValue (y : FlowSt) (top x : BitVec 32) : Bool :=
  -32768 < (x - top).toInt || (match y.counted, y.nextRel with
    | some c, _ => 0 ≤ (x - c).toInt
    | none, some r => 0 ≤ (x - r).toInt
    | none, none => false)

/-- The merge of a flow takes a packet (R330, R331). -/
def mergePacket (s : State) (f : Nat) (b : Bool) (seq : Nat) (ts : BitVec 32) (payload : List Byte) : State :=
  let kind := flowKind s f
  let fl := flowOf s f
  let x := extendSeq kind fl.high seq
  let h := fl.high.getD x
  let s := pathDelivers s f b
  if (x - h).toInt ≤ -32768 then count s (RXF_LATE f)
  else match fl.got.find? (fun g => g.1 = x) with
    | some g =>
      let s := modFlow s f (fun y => { y with
        got := y.got.map (fun z => if z.1 = x then (z.1, z.2.1 || !b, z.2.2.1 || b, z.2.2.2) else z) })
      let s := bump s (RXF_DUP f)
      if g.2.2.2.2 = payload then s else setEvt (count s (RXF_MISMATCH f)) (RXF_EVT f) 3
    | none =>
      let s := bump s (if b then RXF_PKT_B f else RXF_PKT_A f)
      let top := if 0 < (x - h).toInt then x else h
      let s := modFlow s f (fun y => { y with
        high := some top
        got := (x, !b, b, ts, payload) :: y.got.filter (fun g => keepsValue y top g.1) })
      if isSequential kind then
        let nxt := (flowOf s f).nextRel.getD x
        let s := modFlow s f (fun y => { y with
          nextRel := some nxt
          held := if 0 ≤ (x - nxt).toInt then y.held ++ [(x, s.raw)] else y.held })
        releaseRun s f 32768
      else modFlow s f (fun y => { y with counted := some (y.counted.getD x) })

/-- Whether a PTP message on a port is one the port stamps: versionPTP, the low half of byte 1, is 2, and domainNumber, byte 4, is the
domain's; a port that is not UP receives nothing (R306, R325; the places of the two are IEEE 1588's: log entry 64). -/
def ptpMatches (s : State) (p : Nat) (m : PtpMsg) : Bool :=
  portState s p = 5 && rdBit s TIM_PTP_PORTS p && m.carriage < 3 && rdBit s TIM_PTP_CTL (16 + m.carriage) && beAt m.bytes 1 1 % 16 = 2 &&
    (rdBit s TIM_PTP_CTL 28 || beAt m.bytes 4 1 = rdFld s TIM_PTP_CTL 27 20)

/-- Whether a frame on a port matches a path of a flow (R329). -/
def pathServed (s : State) (p : Nat) (f : RxFrame) (i : Nat) (b : Bool) : Bool :=
  flowKind s i ≠ 0 &&
    (if b then rdBit s (RXF_CFG i) 13 && rdFld s (RXF_CFG i) 12 8 = p else rdFld s (RXF_CFG i) 7 3 = p) &&
    matchesPath (if b then (flowOf s i).pathB else (flowOf s i).pathA) f.bytes

/-- The flow path that a frame of at most 9,216 bytes matches; the first in flow order, path A first (R329). -/
def flowPath (s : State) (p : Nat) (f : RxFrame) : Option (Nat × Bool) :=
  if f.bytes.length + 4 ≤ 9216 then
    ((List.range 128).flatMap (fun i => [(i, false), (i, true)])).find? (fun x => pathServed s p f x.1 x.2)
  else none

/-- Whether a frame is a PTP message of its port (R306). -/
def isPtp (s : State) (p : Nat) (f : RxFrame) : Bool := ((framePtp f.bytes).map (ptpMatches s p)).getD false

/-- The record of a control frame (R382). -/
def controlRecord (p : Nat) (f : RxFrame) : List Byte :=
  leBytes 2 0x0C01 ++ leBytes 1 p ++ [0] ++ leBytes 2 f.bytes.length ++ [0, 0] ++ f.bytes

/-- A frame that no flow takes and that is no PTP message: the control queue's, or dropped (R329). -/
def controlFrame (s : State) (p : Nat) (f : RxFrame) : State :=
  if isPtp s p f then s
  else if rdBit s (P_CTRL_Q p) 15 then
    let r := putRecord s (rdFld s (P_CTRL_Q p) 14 0) (controlRecord p f)
    if r.2 then r.1 else count r.1 (P_RX_DROP p)
  else count s (P_RX_DROP p)

/-- Whether a frame's check sequence is right. -/
def fcsOk (f : RxFrame) : Bool := f.fcs = crcOf 0 f.bytes

/-- FRAME_RX: a frame arrives on a port whose link is up. -/
def execFrameRx (p : Nat) (f : RxFrame) (s : State) : Host.Outcome State Fault Refusal :=
  act (p < 24) s (fun s =>
    if portState s p = 5 then
      let s := bump s (P_RX_FRAMES p)
      if !fcsOk f then reportFault (count s (P_FCS_ERR p)) 2 p 0
      else match flowPath s p f with
        | some (i, b) =>
          if passesChecks (flowOf s i).payloadType f.bytes then
            mergePacket s i b (rtpSequence (flowKind s i) (frameRtp f.bytes)) (BitVec.ofNat 32 (beAt (frameRtp f.bytes) 4 4))
              (rtpPayload (frameRtp f.bytes))
          else count s (RXF_BAD i)
        | none => controlFrame s p f
    else s)

/-- The held value furthest on whose wait is over (R331). -/
def expired (s : State) (f : Nat) : Option (BitVec 32) :=
  let r := ((flowOf s f).nextRel).getD 0
  let w := usTicks (rd s (RXF_MERGE_WAIT f)).toNat
  ((flowOf s f).held.filter (fun h => ticksSince s h.2 w)).foldl (fun best h =>
    match best with
    | none => some h.1
    | some b => if (b - r).toNat < (h.1 - r).toNat then some h.1 else some b) none

/-- MERGE_WAIT_EXPIRY: the values missing below one held for MERGE_WAIT are released as gaps, with what is held between. -/
def execMergeWaitExpiry (f : Nat) (s : State) : Host.Outcome State Fault Refusal :=
  act (f < 128) s (fun s =>
    match expired s f, (flowOf s f).nextRel with
    | some x, some r =>
      let s := countMisses s f r x
      let s := modFlow s f (fun y => { y with
        nextRel := some (x + 1)
        held := y.held.filter (fun h => 0 < (h.1 - x).toInt) })
      releaseRun s f 32768
    | _, _ => s)

/-- PATH_INACTIVE: a path that has delivered nothing for 10 ms stops being active; with the other path active that is a path
loss (R330, R415). -/
def execPathInactive (f : Nat) (pathB : Bool) (s : State) : Host.Outcome State Fault Refusal :=
  act (f < 128) s (fun s =>
    let x := flowOf s f
    if rdBit s (RXF_STAT f) (b2n pathB) && passed s (if pathB then x.lastB else x.lastA) (msTicks 10) then
      let s := wrBit s (RXF_STAT f) (b2n pathB) false
      if rdBit s (RXF_CFG f) 13 && rdBit s (RXF_STAT f) (1 - b2n pathB) then
        setEvt (enter s 0x0402 f [flowChannel s f] false s.raw (wordOf (b2n pathB))) (RXF_EVT f) (b2n pathB)
      else s
    else s)

end Sys2Proof.Machine
end

