-- ==== Sys2Proof/Machine/Compose.lean ====
section
/-!
DEFINITION. The sample computations of composition, scaling and the monitor output (spec/08_composition_scaling.md R209, R216
to R224, R231).
-/
namespace Sys2Proof.Machine

/-- A clamp to the 10-bit range. -/
def clamp10 (x : Int) : Int := max 0 (min x 1023)

/-! ### Colour matrices (R218, R219) -/

/-- The presets: nine coefficients, three input offsets, three output offsets. -/
def presetMatrix (i : Nat) : List Int :=
  match i with
  | 2 => [4096, 0, 6306, 4096, -750, -1875, 4096, 7431, 0, 0, 512, 512, 0, 0, 0]
  | 3 => [4096, 0, 5905, 4096, -659, -2288, 4096, 7534, 0, 0, 512, 512, 0, 0, 0]
  | 4 => [871, 2929, 296, -480, -1615, 2095, 2095, -1903, -192, 0, 0, 0, 0, 512, 512]
  | 5 => [1076, 2777, 243, -585, -1510, 2095, 2095, -1927, -168, 0, 0, 0, 0, 512, 512]
  | 6 => [3507, 0, 0, 0, 3507, 0, 0, 0, 3507, 0, 0, 0, 64, 64, 64]
  | _ => [4096, 0, 0, 0, 4096, 0, 0, 0, 4096, 0, 0, 0, 0, 0, 0]

/-- A loadable matrix: two signed 14-bit values a word (R238). -/
def loadedMatrix (w : Nat → Word) : List Int :=
  (List.range 15).map (fun i =>
    (BitVec.ofNat 14 (if i % 2 = 0 then fld (w (i / 2)) 13 0 else fld (w (i / 2)) 29 16)).toInt)

/-- The matrix that an MSEL selects. -/
def matrixOf (msel : Nat) (w : Nat → Word) : List Int := if msel = 0 then loadedMatrix w else presetMatrix msel

/-- Three components. -/
abbrev Rgb := Int × Int × Int

/-- A matrix applied to three components. -/
def applyMatrix (m : List Int) (v : Rgb) : Rgb :=
  let g (i : Nat) : Int := m.getD i 0
  let row (i : Nat) : Int :=
    clamp10 ((g (3 * i) * (v.1 - g 9) + g (3 * i + 1) * (v.2.1 - g 10) + g (3 * i + 2) * (v.2.2 - g 11) + 2048).fdiv 4096 +
      g (12 + i))
  (row 0, row 1, row 2)

/-! ### Layers and blending (R211, R214, R217) -/

/-- A graphics layer of a frame: MODE, whether its plane is ready, the buffer selected, its position, key, global alpha,
matrix, and the plane. -/
structure LayerIn where
  mode : Nat
  ready : Bool
  buf : Nat
  x : Int
  y : Int
  key : Bool
  klo : Int
  kgain : Int
  galpha : Int
  matrix : List Int
  w : Nat
  h : Nat
  px : List (BitVec 64)
  crc : Word
  deriving DecidableEq, Repr

/-- Whether a layer is enabled. -/
def LayerIn.enabled (l : LayerIn) : Bool := l.mode = 1 || l.mode = 2

/-- The plane pixel that covers a position of the picture. -/
def LayerIn.at_ (l : LayerIn) (x y : Nat) : Option (BitVec 64) :=
  let i : Int := x - l.x
  let j : Int := y - l.y
  if l.enabled && l.ready && 0 ≤ i && i < l.w && 0 ≤ j && j < l.h then some (l.px.getD (j.toNat * l.w + i.toNat) 0) else none

/-- Whether a layer takes part in a picture: at some position (R216, R217). -/
def LayerIn.takesPart (l : LayerIn) (w h : Nat) : Bool :=
  l.enabled && l.ready && 0 < l.w && 0 < l.h && l.x < w && 0 < l.x + l.w && l.y < h && 0 < l.y + l.h

/-- wt(a). -/
def wt (a : Int) : Int := a + a.fdiv 512

/-- Component [hi:lo] of a plane pixel. -/
def pixField (p : BitVec 64) (lo : Nat) : Int := (p.toNat / 2 ^ lo % 1024 : Nat)

/-- One component blended. -/
def blendOne (l : LayerIn) (k w s d : Int) : Int :=
  if l.mode = 1 then (s * w + d * (1024 - w) + 512).fdiv 1024
  else
    let s := if l.key then (s * wt k + 512).fdiv 1024 else s
    let s := (s * wt l.galpha + 512).fdiv 1024
    clamp10 (s + (d * (1024 - w) + 512).fdiv 1024)

/-- A layer blended over the result below it, with its weight w (R217). -/
def blend (l : LayerIn) (p : BitVec 64) (d : Rgb) : Rgb × Int :=
  let s := applyMatrix l.matrix (pixField p 20, pixField p 10, pixField p 0)
  let y := (871 * s.1 + 2929 * s.2.1 + 296 * s.2.2 + 2048).fdiv 4096
  let k := clamp10 (((y - l.klo) * l.kgain + 128).fdiv 256)
  let a := pixField p 30
  let a := if l.key then (a * wt k + 512).fdiv 1024 else a
  let a := (a * wt l.galpha + 512).fdiv 1024
  let w := wt a
  ((blendOne l k w s.1 d.1, blendOne l k w s.2.1 d.2.1, blendOne l k w s.2.2 d.2.2), w)

/-- All layers over a working-space sample, and whether the position is clear: w = 0 in every layer (R221). -/
def blendAll (ls : List LayerIn) (x y : Nat) (d : Rgb) : Rgb × Bool :=
  ls.foldl (fun (a : Rgb × Bool) l =>
    match l.at_ x y with
    | none => a
    | some p => let r := blend l p a.1; (r.1, a.2 && r.2 == 0)) (d, true)

/-! ### The composed picture (R209, R220, R221) -/

/-- A sample of a plane as a signed number, the nearest inside where the index lies outside. -/
def smp (p : Plane) (x y : Int) : Int := (sampleAt p x y : Nat)

/-- Horizontal upsampling of 4:2:2 chroma at a luma position. -/
def chroma444 (p : Plane) (x y : Nat) : Int :=
  let i : Int := (x / 2 : Nat)
  if x % 2 = 0 then smp p i y else (smp p i y + smp p (i + 1) y + 1).fdiv 2

/-- The positions of a plane in row order. -/
def positions (w h : Nat) : List (Nat × Nat) := (List.range (w * h)).map (fun i => (i % max 1 w, i / max 1 w))

/-- A plane of signed samples. -/
def planeOf (w h : Nat) (f : Nat → Nat → Int) : Plane :=
  { w := w, h := h, px := (positions w h).map (fun p => (f p.1 p.2).toNat) }

/-- The composed picture of a frame before step 7, from the programme, the layers and the matrices. -/
def compose422 (inp : Picture) (m0 mo : List Int) (ls : List LayerIn) : Picture :=
  let w := inp.y.w
  let h := inp.y.h
  let cell (x y : Nat) : Rgb × Bool :=
    let d := applyMatrix m0 (smp inp.y x y, chroma444 inp.cb x y, chroma444 inp.cr x y)
    let r := blendAll ls x y d
    (applyMatrix mo r.1, r.2)
  let cells := (positions w h).map (fun p => cell p.1 p.2)
  let get (x y : Int) : Rgb × Bool := cells.getD (nearest h y * w + nearest w x) ((0, 0, 0), true)
  let clear (x y : Int) : Bool := (get x y).2
  let chroma (src : Plane) (sel : Rgb → Int) : Plane :=
    planeOf (w / 2) h (fun i y =>
      let x : Int := (2 * i : Nat)
      if clear (x - 1) y && clear x y && clear (x + 1) y then smp src i y
      else (sel (get (x - 1) y).1 + 2 * sel (get x y).1 + sel (get (x + 1) y).1 + 2).fdiv 4)
  { y := planeOf w h (fun x y => if clear x y then smp inp.y x y else (get x y).1.1)
    cb := chroma inp.cb (fun v => v.2.1)
    cr := chroma inp.cr (fun v => v.2.2) }

/-- Vertical chroma downsampling to 4:2:0 (step 7). -/
def chroma420 (p : Plane) : Plane :=
  planeOf p.w (p.h / 2) (fun x j => (smp p x (2 * j : Nat) + smp p x ((2 * j : Nat) + 1 : Int) + 1).fdiv 2)

/-- The composed picture. -/
def composePicture (inp : Picture) (m0 mo : List Int) (ls : List LayerIn) (c420 : Bool) : Picture :=
  let p := compose422 inp m0 mo ls
  if c420 then { p with cb := chroma420 p.cb, cr := chroma420 p.cr } else p

/-- The graphics signature (R216). -/
def graphicsSig (ls : List LayerIn) (w h : Nat) : Word :=
  crc32c ((ls.map (fun l =>
    let t := l.takesPart w h
    leBytes 1 (b2n t) ++ leBytes 1 l.buf ++ zeros 2 ++ (if t then wordBytes l.crc else zeros 4))).flatten)

/-! ### Scaling (R223, R224) -/

/-- pos64 of an output sample. -/
def pos64 (S O x mo bo ms bs : Nat) : Int :=
  (64 * (((2 * mo * x + bo + 1 : Nat) : Int) * S - (1 + bs) * O) + ms * O).fdiv (2 * ms * O)

/-- (m, beta) of the chroma of a format, horizontal and vertical: 0 4:2:0, 1 4:2:2, 2 4:4:4. -/
def sitingOf (fmt : Nat) : (Nat × Nat) × (Nat × Nat) :=
  match fmt with
  | 0 => ((2, 0), (2, 1))
  | 1 => ((2, 0), (1, 0))
  | _ => ((1, 0), (1, 0))

/-- One pass over a line of samples. -/
def filterAt (coef : Nat → Nat → Int) (taps : Nat) (src : Int → Int) (p : Int) : Int :=
  let n := p.fdiv 64
  let ph := (p.fmod 64).toNat
  clamp10 (((List.range taps).foldl (fun a t => a + coef ph t * src (n - (taps / 2 : Nat) + 1 + t)) 128).fdiv 256)

/-- A plane scaled: the vertical pass at source width, then the horizontal pass. -/
def scalePlane (src : Plane) (ow oh vtaps : Nat) (hpos vpos : Nat → Int) (hc vc : Nat → Nat → Int) : Plane :=
  let v := planeOf src.w oh (fun x y => filterAt vc vtaps (fun i => smp src x i) (vpos y))
  planeOf ow oh (fun x y => filterAt hc 8 (fun i => smp v i y) (hpos x))

/-- A picture scaled from one format to another. -/
def scalePicture (src : Picture) (sfmt ofmt ow oh vtaps : Nat) (hc vc : Nat → Nat → Int) : Picture :=
  let sw := src.y.w
  let sh := src.y.h
  let (so, sv) := sitingOf sfmt
  let (oo, ov) := sitingOf ofmt
  let luma := scalePlane src.y ow oh vtaps (fun x => pos64 sw ow x 1 0 1 0) (fun y => pos64 sh oh y 1 0 1 0) hc vc
  let chroma (p : Plane) : Plane := scalePlane p (ow / oo.1) (oh / ov.1) vtaps
    (fun x => pos64 sw ow x oo.1 oo.2 so.1 so.2) (fun y => pos64 sh oh y ov.1 ov.2 sv.1 sv.2) hc vc
  { y := luma, cb := chroma src.cb, cr := chroma src.cr }

/-! ### Displayed samples (R231, R232) -/

/-- Full range from narrow, then the depth. -/
def displayed (bpc8 : Bool) (x : Int) : Int :=
  let v := clamp10 (((x - 64) * 4783 + 2048).fdiv 4096)
  if bpc8 then min 255 ((v + 2).fdiv 4) else v

/-- A tile's picture as displayed R'G'B'. -/
def displayedTile (bt709 bpc8 : Bool) (p : Picture) : List Rgb :=
  (positions p.y.w p.y.h).map (fun q =>
    let v := applyMatrix (presetMatrix (if bt709 then 2 else 3)) (smp p.y q.1 q.2, smp p.cb q.1 q.2, smp p.cr q.1 q.2)
    (displayed bpc8 v.1, displayed bpc8 v.2.1, displayed bpc8 v.2.2))

/-- The border colour that a TALLY selects. -/
def tallyColour (c : Nat) : Rgb :=
  match c with
  | 0 => (128, 128, 128)
  | 1 => (1023, 0, 0)
  | 2 => (0, 1023, 0)
  | 3 => (1023, 640, 0)
  | 4 => (0, 0, 1023)
  | 5 => (1023, 1023, 1023)
  | 6 => (0, 0, 0)
  | _ => (1023, 0, 1023)

end Sys2Proof.Machine
end

