-- ==== Sys2Proof/Machine/Monitor.lean ====
section
/-!
DEFINITION. The commands of compositors, scalers and the monitor output (spec/08_composition_scaling.md).
-/
namespace Sys2Proof.Machine

/-! ### COMPOSED_PICTURE_COMPLETE (R208 to R216) -/

/-- The plane that a frame's layer reads: the content of a buffer. -/
def planeAt (s : State) (n l b : Nat) : List (BitVec 64) :=
  ((((chan s n).planes.find? (fun p => p.1 = l && p.2.1 = b)).map (fun p => p.2.2))).getD []

/-- A graphics layer of a frame. -/
def layerIn (s : State) (n : Nat) (f : FrameSt) (l : Nat) : LayerIn :=
  let ctl := f.reg (LY_L_CTL n l)
  let pos := f.reg (LY_L_POS n l)
  let key := f.reg (LY_L_KEY n l)
  let b := fld ctl 9 8
  { mode := fld ctl 1 0, ready := f.ready.any (fun r => r.1 = l && r.2), buf := b
    x := (BitVec.ofNat 16 (fld pos 15 0)).toInt, y := (BitVec.ofNat 16 (fld pos 31 16)).toInt
    key := tbit ctl 2, klo := (fld key 9 0 : Nat), kgain := (fld key 27 16 : Nat), galpha := (fld ctl 25 16 : Nat)
    matrix := matrixOf (fld ctl 6 4) (fun w => f.reg (LY_LMAT n l w))
    w := rdFld s (LY_BUF_DIM n l b) 15 0, h := rdFld s (LY_BUF_DIM n l b) 31 16, px := planeAt s n l b
    crc := rd s (LY_BUF_CRC n l b) }

/-- The graphics layers 1 to 7 of a frame. -/
def layersOf (s : State) (n : Nat) (f : FrameSt) : List LayerIn := (List.range 7).map (fun i => layerIn s n f (i + 1))

/-- The composed picture of a frame from its input (R208, R209). -/
def composedOf (s : State) (n : Nat) (f : FrameSt) (inp : Picture) : Picture :=
  let m0 := matrixOf (fld (f.reg (LY_L_CTL n 0)) 6 4) (fun w => f.reg (LY_LMAT n 0 w))
  let mo := matrixOf (f.fld (CMP_CTL n) 2 0) (fun w => f.reg (CMP_OMAT n w))
  composePicture inp m0 mo (layersOf s n f) (composes420 f.plan)

/-- The composed picture of a frame is complete. -/
def composeFrame (s : State) (n : Nat) (f : FrameSt) (inp : Picture) : State :=
  let ls := layersOf s n f
  let out := composedOf s n f inp
  let sig := graphicsSig ls f.plan.width f.plan.height
  let s := forEach (ls.zipIdx) s (fun (x : LayerIn × Nat) s =>
    let miss := x.1.enabled && !x.1.ready
    let s := wrBit s (LY_L_STAT n (x.2 + 1)) 11 miss
    onlyIf miss s (fun s => setEvt (count s (CMP_NOTREADY n)) (CMP_EVT n) 0))
  let s := wr (wr64 s (CMP_COMP_FRAME_LO n) (CMP_COMP_FRAME_HI n) f.k) (CMP_GSIG n) sig
  modFrame s n f.j (fun f => { f with composed := some out, gsig := sig })

/-- The input of a frame before its cut-off, once every row of its first source frame has been received (R210). -/
def receivedInput (s : State) (n : Nat) (f : FrameSt) : Option Picture :=
  let c := chan s n
  let mine := c.sources.filter (fun x => inWindow f.grid f.j x.capture)
  match firstSource (mine.filter (fun x => !x.late && (begunInSlot s f.plan f).all (fun b => x.capture ≤ b))) with
  | none => none
  | some x =>
    match x.full with
    | some p => some p
    | none =>
      let r := placeRuns (inputBefore s n f.plan) x.srds
      if r.2 then none else some r.1

/-- COMPOSED_PICTURE_COMPLETE: acts on the oldest frame without a composed picture, once its input is closed or every row of it has been
received (R210). -/
def execComposedPictureComplete (n : Nat) (s : State) : Host.Outcome State Fault Refusal :=
  act (n < 16) s (fun s =>
    match oldest s n (fun f => f.composed.isNone) with
    | none => s
    | some f => match f.input with
      | some p => composeFrame s n f p
      | none => match receivedInput s n f with
        | some p => composeFrame (modFrame s n f.j (fun f => { f with input := some p })) n f p
        | none => s)

/-! ### The IDR decision (R90, R104, R117) -/

/-- The input of a frame: the one it closed with, or every row of its first source frame (R210). -/
def inputNow (s : State) (n : Nat) (f : FrameSt) : Option Picture := if f.input.isSome then f.input else receivedInput s n f

/-- The composed picture of a frame, as a function of its input and its set: also where the compositor is still at work on it (R208). -/
def composedNow (s : State) (n : Nat) (f : FrameSt) : Option Picture :=
  if f.composed.isSome then f.composed else (inputNow s n f).map (composedOf s n f)

/-- The luma of the composed picture at a grid point with its mean (R104). -/
def lumaNow (s : State) (n j : Nat) : Option (Plane × Nat) :=
  match keptLuma s n j with
  | some x => some x
  | none => ((frameAt s n j).bind (composedNow s n)).map (fun p => (p.y, pictureMean p.y))

/-- The field of a frame, as a function of pixels only: the decision reads the same one whether the scouts have already written it or are
late (R28, R31, R104; DEDUCED, log entry 62). -/
def fieldNow (s : State) (n : Nat) (f : FrameSt) : Option Field :=
  if f.field.isSome then f.field else (composedNow s n f).map (fun p => analysisOf f n p.y (lumaNow s n))

/-- The governor and the IDR decision of the device itself for a frame (R90, R117). -/
def decideOwn (s : State) (n : Nat) (f : FrameSt) : State :=
  let cut := ((fieldNow s n f).map (fun x => x.sceneCut)).getD false
  let c := chan s n
  let first := f.k = 0
  let meas := c.measured.filter (fun m => m.slice = f.sliceSeq)
  let r := governor f n (engineCount s n) (if first then govFloor else c.s) meas (if first then [] else c.prevE)
  let d := idrDecision f n c.pos c.prevSeq (c.splices.contains f.j) cut
  let s := wr (wr (wr s (CH_GOV_SPEED n) (wordOf r.sUse)) (CH_GOV_CAP n) (wordOf r.cap)) (CH_GOV_PRED n) (wordOf r.pred)
  let s := forSome meas s (fun m s => wr s (CH_GOV_BUSY n) (wordOf m.busy))
  let s := countBy (countBy s (CH_GOV_LOWER n) r.lowered) (CH_GOV_RAISE n) r.raised
  let s := onlyIf r.atFloor s (fun s => setEvt s (CH_EVT n) 5)
  applyDecision s n f r.es r.sUse r.sNew d.1 d.2.1 d.2.2 (f.joinIdr && d.1)

/-! ### SCALER_OUTPUT_COMPLETE, TILE_BUFFER_DONE (R222 to R224, R230) -/

/-- A coefficient of a scaler in a frame: bank, direction, phase, tap (R225). -/
def coefAt (f : FrameSt) (j bank dir ph t : Nat) : Int :=
  (mget f.coefs (4096 * j + 1024 * bank + 512 * dir + 8 * ph + t)).getD 0

/-- The format of a resolution of a frame: the composed picture's, else its output's. -/
def resFormat (f : FrameSt) (r : Nat) : Nat :=
  if r = 0 then (if composes420 f.plan then 0 else 1)
  else ((f.plan.outs.find? (fun o => o.dst = r)).map (fun o => o.ofmt)).getD 0

/-- A source picture scaled by an output with the taps and banks of a frame's set. -/
def scaleOut (f : FrameSt) (j o : Nat) (src : Picture) (sfmt ofmt ow oh : Nat) : Picture :=
  let ctl := f.reg (OUT_CTL j o)
  scalePicture src sfmt ofmt ow oh (fld ctl 11 8) (coefAt f j (fld ctl 1 0) 0) (coefAt f j (fld ctl 5 4) 1)

/-- The source picture of an output in a frame. -/
def outSource (f : FrameSt) (o : OutPlan) : Option Picture := if o.srcRes = 0 then f.composed else mget f.scaled o.srcRes

/-- SCALER_OUTPUT_COMPLETE: acts on the oldest frame, of any channel whose slices hold the output, that lacks this picture and
has its source. -/
def execScalerOutputComplete (j o : Nat) (s : State) : Host.Outcome State Fault Refusal :=
  act (j < 48 && o < 16) s (fun s =>
    let lacks (f : FrameSt) : Option (FrameSt × OutPlan × Picture) :=
      match f.plan.outs.find? (fun x => x.scl = j && x.out = o) with
      | none => none
      | some x => if (mget f.scaled x.dst).isSome then none else (outSource f x).map (fun p => (f, x, p))
    match (List.range 16).findSome? (fun n => ((chan s n).frames.findSome? lacks).map (fun y => (n, y))) with
    | none => s
    | some (n, f, x, p) =>
      modFrame s n f.j (fun f => { f with
        scaled := mput f.scaled x.dst (scaleOut f j o p (resFormat f x.srcRes) x.ofmt x.dstW x.dstH) }))

/-- The mosaic tile of a number. -/
def tilePlan (s : State) (t : Nat) : Option TilePlan := (mosaicTiles s).find? (fun x => x.tile = t)

/-- A tile buffer is complete: the newest before it, if never selected, is counted (R231). -/
def putTile (s : State) (t k : Nat) (p : Picture) : State :=
  let x := tileOf s t
  let s := onlyIf (x.newest.isSome && !x.selected) s (fun s => bump s DPO_TILE_DROP)
  modTile s t (fun x => { x with newest := some (k, p), selected := false })

/-- TILE_BUFFER_DONE: acts on the oldest composed frame of the tile's channel without this tile. -/
def execTileBufferDone (t : Nat) (s : State) : Host.Outcome State Fault Refusal :=
  act (t < 16) s (fun s =>
    match tilePlan s t with
    | none => s
    | some tp =>
      match oldest s tp.channel (fun f => f.composed.isSome && !f.tilesDone.contains t) with
      | none => s
      | some f =>
        match f.composed with
        | none => s
        | some p =>
          let out := scaleOut f tp.scl tp.out p (resFormat f 0) 2 (tp.w - 2 * tp.border) (tp.h - 2 * tp.border)
          putTile (modFrame s tp.channel f.j (fun f => { f with tilesDone := t :: f.tilesDone })) t f.k out)

/-! ### DISPLAY_FRAME (R231, R232) -/

/-- What a display frame shows: each tile's border colour and picture. -/
def displayTiles (s : State) : List (Nat × Rgb × List Rgb) :=
  let bpc8 := rdBit s DPO_STAT 4
  (mosaicTiles s).map (fun t =>
    let bt709 := ((chan s t.channel).plan.map (fun p => decide (p.colour = 0))).getD false
    let px := match (tileOf s t.tile).shown with
      | none => []
      | some x => displayedTile bt709 bpc8 x.2
    (t.tile, tallyColour (rdFld s (DPO_TALLY t.tile) 2 0), px))

/-- Canvas modes: width and height (R233). -/
def canvasSize (mode : Nat) : Nat × Nat :=
  match mode with
  | 1 => (1920, 1080)
  | 2 => (3840, 2160)
  | 3 => (7680, 4320)
  | _ => (0, 0)

/-- A pixel of the canvas: a tile's picture, its border, black outside every tile; what a tile shows before its first buffer is complete is
free, from the draw `x` (R229, R232; log entry 6). -/
def canvasPixel (x : Nat) (bpc8 : Bool) (tiles : List (TilePlan × Rgb × List Rgb)) (px py : Nat) : Rgb :=
  match tiles.find? (fun t => t.1.x ≤ px && px < t.1.x + t.1.w && t.1.y ≤ py && py < t.1.y + t.1.h) with
  | none => (0, 0, 0)
  | some (t, c, img) =>
    let b := t.border
    let i := px - t.x - b
    let j := py - t.y - b
    if t.x + b ≤ px && px + b < t.x + t.w && t.y + b ≤ py && py + b < t.y + t.h then
      let k := j * (t.w - 2 * b) + i
      img.getD k ((Config.freeNat x (3 * k) % 1024 : Nat), (Config.freeNat x (3 * k + 1) % 1024 : Nat), (Config.freeNat x (3 * k + 2) % 1024 : Nat))
    else if bpc8 then (min 255 ((c.1 + 2).fdiv 4), min 255 ((c.2.1 + 2).fdiv 4), min 255 ((c.2.2 + 2).fdiv 4))
    else c

/-- The canvas of a display frame, row by row (R229, R233). The border's colours are those of the table at 10 bits; at 8 bits they are
converted like any displayed sample (DEDUCED, log entry 62). -/
def canvasImage (s : State) (x : Nat) : List Rgb :=
  let c := canvasSize (rdFld s DPO_CANVAS 1 0)
  let tiles := (mosaicTiles s).zipWith (fun t d => (t, d.2.1, d.2.2)) (displayTiles s)
  (positions c.1 c.2).map (fun q => canvasPixel x (rdBit s DPO_STAT 4) tiles q.1 q.2)

/-- The tick of the display frame after one: 60.000 Hz are 62,500,000 ticks in three frames (R231). -/
def displayAfter (t : Raw × Nat) : Raw × Nat :=
  (t.1 + BitVec.ofNat 48 (20833333 + (if t.2 = 2 then 1 else 0)), (t.2 + 1) % 3)

/-- A display frame: every tile's newest complete buffer is selected; the frame is sent while video is. -/
def displayFrame (s : State) : State :=
  let s := { s with tiles := s.tiles.map (fun x => { x with shown := x.newest, selected := true }) }
  if rdBit s DPO_STAT 6 then
    let (x, s) := takeFree s
    emit (wr64 s DPO_DFRAME_LO DPO_DFRAME_HI (rd64 s DPO_DFRAME_LO DPO_DFRAME_HI + 1)) (.display (displayTiles s) (canvasImage s x))
  else s

/-- DISPLAY_FRAME: acts when the raw counter has come to the next display frame (R301). The manual does not say when the first one comes:
the first command is it (DESIGN CHOICE, log entry 62). -/
def execDisplayFrame (s : State) : Host.Outcome State Fault Refusal :=
  act true s (fun s =>
    let t := s.displayNext.getD (s.raw, 0)
    if hasCome s t.1 then displayFrame { s with displayNext := some (displayAfter t) } else s)

/-! ### Plane loads (R211 to R213) -/

/-- The values an RWF register of a channel has in force, pending, latched for the next boundary, and in the set of every frame that
is not prepared and reads it (R85, R213, R225). -/
def heldValues (s : State) (n : Nat) (r : Reg) (reads : FrameSt → Bool) : List Word :=
  [forceAt s r.addr, rd s r] ++ (((chan s n).bound.bind (fun b => mget b.set r.addr)).toList) ++
    ((chan s n).frames.filter (fun f => !f.prepared && reads f)).map (fun f => f.reg r)

/-- Whether a buffer is busy (R213); MODE 3 is treated as 0 (R217). -/
def bufferBusy (s : State) (n l b : Nat) : Bool :=
  (heldValues s n (LY_L_CTL n l) (fun _ => true)).any (fun v => (fld v 1 0 = 1 || fld v 1 0 = 2) && fld v 9 8 = b)

/-- Show LOADED and LOADING of a buffer. -/
def showBuffer (s : State) (n l b : Nat) (loaded loading : Bool) : State :=
  wrBit (wrBit s (LY_L_STAT n l) b loaded) (LY_L_STAT n l) (4 + b) loading

/-- A buffer no longer holds a plane. -/
def dropPlane (s : State) (n l b : Nat) : State :=
  modChan s n (fun c => { c with
    planes := c.planes.filter (fun p => !(p.1 = l && p.2.1 = b))
    planeTimes := c.planeTimes.filter (fun p => !(p.1 = l && p.2.1 = b)) })

/-- PLANE_LOAD (R212): the next command of a queue is a plane load; it starts a copy or is refused. The statuses name none for an ADDR that is
not 64-byte aligned: such a load is accepted (DESIGN CHOICE, log entry 62). -/
def execPlaneLoad (q : Nat) (s : State) : Host.Outcome State Fault Refusal :=
  act (q < 32768) s (fun s => onCommand s q 0x04 (fun o p s =>
    let n := leAt p 0 1
    let l := leAt p 1 1
    let b := leAt p 2 1
    let w := leAt p 4 2
    let h := leAt p 6 2
    let stride := leAt p 8 4
    if 15 < n || !chanDefined s n || l = 0 || 7 < l || rdFld s (LY_L_STAT n l) 10 8 ≤ b then finish s q o.slot 0x01 []
    else if w = 0 || rdFld s (LY_L_ALLOC n l) 15 0 < w || h = 0 || rdFld s (LY_L_ALLOC n l) 31 16 < h || stride % 64 ≠ 0 ||
        stride < 8 * w then finish s q o.slot 0x02 []
    else if bufferBusy s n l b then finish s q o.slot 0x03 []
    else
      let s := showBuffer (dropPlane s n l b) n l b false true
      modChan s n (fun c => { c with loading := c.loading ++ [(l, b, w, h, q, o.slot)] })))

/-- A copy into a buffer ends. -/
def planeLoaded (s : State) (n l b w h q slot : Nat) (px : Option (List (BitVec 64))) : State :=
  let s := modChan s n (fun c => { c with loading := c.loading.erase (l, b, w, h, q, slot) })
  let more := (chan s n).loading.any (fun x => x.1 = l && x.2.1 = b)
  match px with
  | none => finish (showBuffer (dropPlane s n l b) n l b false more) q slot 0x04 []
  | some ps =>
    let ps := (ps ++ List.replicate (w * h - ps.length) 0).take (w * h)
    let crc := crc32c ((ps.map (fun v => leBytes 8 v.toNat)).flatten)
    let s := wr (wr s (LY_BUF_DIM n l b) (mkWord [(15, 0, w), (31, 16, h)])) (LY_BUF_CRC n l b) crc
    let s := dropPlane s n l b
    let now := nowN s
    let s := modChan s n (fun c => { c with
      planes := c.planes ++ [(l, b, ps)]
      planeTimes := if more then c.planeTimes else c.planeTimes ++ [(l, b, now)] })
    finish (showBuffer s n l b (!more) more) q slot 0x00 (wordBytes crc)

/-- PLANE_LOAD_DONE (R212): the oldest copy into a buffer ends with its pixels, or with a DMA error. -/
def execPlaneLoadDone (n l b : Nat) (px : Option (List (BitVec 64))) (s : State) : Host.Outcome State Fault Refusal :=
  act (n < 16 && 0 < l && l < 8 && b < 4) s (fun s =>
    match (chan s n).loading.find? (fun x => x.1 = l && x.2.1 = b) with
    | none => s
    | some (_, _, w, h, q, slot) => planeLoaded s n l b w h q slot px)

/-! ### Coefficients (R225) -/

/-- Whether an OUT_CTL value selects a bank. -/
def selectsBank (bank : Nat) (v : Word) : Bool := fld v 1 0 = bank || fld v 5 4 = bank

/-- The outputs of a scaler that a frame's pictures and tiles read. -/
def frameOutputs (s : State) (n : Nat) (f : FrameSt) (j : Nat) : List Nat :=
  (f.plan.outs.filter (fun x => x.scl = j)).map (fun x => x.out) ++
    ((mosaicTiles s).filter (fun t => t.channel = n && t.scl = j)).map (fun t => t.out)

/-- Whether a bank of a scaler is in use: by a value in force, pending or latched, or by the set of a frame that is not prepared, be its
output gone from the slice or not (R225). -/
def bankInUse (s : State) (j bank : Nat) : Bool :=
  (List.range 16).any (fun o =>
    rdBit s (OUT_CFG j o) 0 && (heldValues s (rdFld s (OUT_CFG j o) 7 4) (OUT_CTL j o) (fun _ => false)).any (selectsBank bank)) ||
    (List.range 16).any (fun n => (chan s n).frames.any (fun f =>
      !f.prepared && (frameOutputs s n f j).any (fun o => selectsBank bank (f.reg (OUT_CTL j o)))))

/-- BANK_USE of a scaler (R239). -/
def bankUse (s : State) (j : Nat) : Word :=
  wordOf ((List.range 4).foldl (fun a b => if bankInUse s j b then a + 2 ^ b else a) 0)

/-- COEF_IDX goes up by one, wrapping at 4096. -/
def nextCoef (s : State) (j : Nat) : State := wrFld s (SCL_COEF_IDX j) 11 0 ((rdFld s (SCL_COEF_IDX j) 11 0 + 1) % 4096)

/-- COEF_DATA_WRITE. -/
def execCoefDataWrite (j : Nat) (v : BitVec 10) (s : State) : Host.Outcome State Fault Refusal :=
  act (j < 48) s (fun s =>
    let i := rdFld s (SCL_COEF_IDX j) 11 0
    if bankInUse s j (i / 1024) then nextCoef (setEvt (count s (SCL_COEF_REJ j)) (SCL_EVT j) 1) j
    else nextCoef { s with coefs := mset 0 s.coefs (4096 * j + i) v.toInt } j)

/-- COEF_DATA_READ. -/
def execCoefDataRead (m : Master) (j : Nat) (s : State) : Host.Outcome State Fault Refusal :=
  act (j < 48) s (fun s =>
    let i := rdFld s (SCL_COEF_IDX j) 11 0
    let v := (mget s.coefs (4096 * j + i)).getD 0
    nextCoef (emit s (.read m (wordOf (BitVec.ofInt 10 v).toNat))) j)

/-! ### DisplayPort (R233, R234) -/

/-- MAX_RATE, 0 treated as 1. -/
def dpMaxRate (s : State) : Nat := max 1 (rdFld s DPO_CTL 3 2)

/-- Whether a rate carries a canvas mode at 10 or at 8 bits per component. -/
def dpCarries (mode rate : Nat) (bpc8 : Bool) : Bool :=
  (mode = 1 || mode = 2) && 1 ≤ rate || mode = 3 && (if bpc8 then 2 ≤ rate else 3 ≤ rate)

/-- The link is down: no rate, no video, and LINK_SHORT is cleared: the manual only says when it is set (DESIGN CHOICE, log entry 62). -/
def dpDown (s : State) : State := wrFld s DPO_STAT 6 1 0

/-- Training starts. -/
def dpTrain (s : State) : State := emit (count (dpDown s) DPO_TRAIN_CNT) (.training 0x100)

/-- The link is lost. -/
def dpLost (s : State) : State := onlyIf (rdBit s DPO_STAT 1) s (fun s => setEvt s DPO_EVT 3)

/-- HPD_ASSERT. -/
def execHpdAssert (s : State) : Host.Outcome State Fault Refusal :=
  act true s (fun s =>
    if rdBit s DPO_STAT 0 then s
    else
      let s := setEvt (wrBit s DPO_STAT 0 true) DPO_EVT 0
      if rdBit s DPO_CTL 0 then dpTrain s else s)

/-- HPD_LOSS. -/
def execHpdLoss (s : State) : Host.Outcome State Fault Refusal :=
  act true s (fun s =>
    if rdBit s DPO_STAT 0 then setEvt (dpDown (wrBit (dpLost s) DPO_STAT 0 false)) DPO_EVT 0 else s)

/-- IRQ_HPD. -/
def execIrqHpd (linkLost : Bool) (s : State) : Host.Outcome State Fault Refusal :=
  act true s (fun s =>
    if rdBit s DPO_STAT 0 then
      let s := setEvt s DPO_EVT 1
      if linkLost && rdBit s DPO_CTL 0 then dpTrain (dpLost s) else s
    else s)

/-- Video at the depth the trained rate carries, or LINK_SHORT. A device without a canvas sends none. -/
def dpVideo (s : State) (rate : Nat) : State :=
  let mode := rdFld s DPO_CANVAS 1 0
  let ten := dpCarries mode rate false && !rdBit s DPO_CTL 1
  let eight := dpCarries mode rate true
  if ten || eight then emit (wrBit (wrBit s DPO_STAT 4 (!ten)) DPO_STAT 6 true) (.dpVideo rate (!ten))
  else if rate = 0 || mode ≠ 0 then setEvt (wrBit s DPO_STAT 5 true) DPO_EVT 4
  else s

/-- A training has ended with a rate, 0 for none. -/
def dpTrained (s : State) (rate : Nat) : State :=
  dpVideo (if rate = 0 then s else setEvt (wrFld (wrBit s DPO_STAT 1 true) DPO_STAT 3 2 rate) DPO_EVT 2) rate

/-- DP_TRAINING_DONE: the training in hand ends with the rate trained, 0 for none. -/
def execDpTrainingDone (rate : Fin 4) (s : State) : Host.Outcome State Fault Refusal :=
  act true s (fun s =>
    if rdBit s DPO_STAT 0 && rdBit s DPO_CTL 0 && rdFld s DPO_STAT 6 1 = 0 && rate.val ≤ dpMaxRate s then dpTrained s rate else s)

/-- DPO_CTL_WRITE. EN = 0 and a retraining that a write asks for on a link that is up are no loss of it: EVT.LINK_LOST is not set (DESIGN
CHOICE, log entry 62: the manual does not say). -/
def execDpoCtlWrite (v : Word) (s : State) : Host.Outcome State Fault Refusal :=
  act true s (fun s =>
    let old := rd s DPO_CTL
    let new := v &&& 0xF
    let s := wr s DPO_CTL new
    if !tbit new 0 then dpDown s
    else if rdBit s DPO_STAT 0 && old ≠ new then dpTrain s
    else s)

end Sys2Proof.Machine
end

