-- ==== Sys2Proof/Machine/Ox.lean ====
section
/-!
DEFINITION. The Ox memory controllers (spec/13_ox_memory.md): the address map, requests and banks, refresh, training, rate
changes, failures, alerts and checks.
-/
namespace Sys2Proof.Machine

/-! ### Address map (R338 to R342) -/

/-- OX_STAT.STATE. -/
def oxState (s : State) (i : Nat) : Nat := rdFld s (OX_STAT i) 2 0
/-- Set OX_STAT.STATE. -/
def putOxState (s : State) (i st : Nat) : State := wrFld s (OX_STAT i) 2 0 st
/-- The rows of a DDR-5 bank (R338). -/
def ddrRows (s : State) (i : Nat) : Nat :=
  match rdFld s (OX_CFG i) 5 4 with
  | 0 => 65536
  | 1 => 98304
  | _ => 131072
/-- The ranks of a DDR-5 channel. -/
def ddrRanks (s : State) (i : Nat) : Nat := rdFld s (OX_CFG i) 3 2 + 1
/-- The bytes installed at a controller (R338, R339). -/
def oxBytes (s : State) (i : Nat) : Nat :=
  if oxDdr i then
    if oxState s i = 0 || oxState s i = 5 then 0 else ddrRanks s i * ddrRows s i * 0x80000
  else 0x900000000
/-- The targets of a controller (R337). -/
def oxTargets (s : State) (i : Nat) : List Nat := List.range (if oxDdr i then ddrRanks s i else 32)
/-- Whether an address lies in a controller's memory. -/
def inRange (s : State) (i a : Nat) : Bool := oxBase i ≤ a && a < oxBase i + oxBytes s i

/-- Where an address lies: its target, its bank in the target, its row. -/
structure Place where
  target : Nat
  bank : Nat
  row : Nat
  col : Nat
  deriving DecidableEq, Repr

/-- The map of an HBM3E address (R340). -/
def hbmPlace (a : Nat) : Place :=
  let st := a / 0x240000000
  let o := a - st * 0x240000000
  let g := o / 256
  let loc := (g % 8) ^^^ (g / 8 % 8) ^^^ (g / 64 % 8)
  let p := g / 8 * 256 + o % 256
  { target := 8 * (st % 4) + loc, bank := p / 2 ^ 14 % 3 * 16 + p / 2 ^ 10 % 4 * 4 + p / 2 ^ 12 % 4, row := p / 2 ^ 14 / 3
    col := p % 1024 }

/-- The map of an offset in a DDR-5 channel (R341). -/
def ddrPlace (rows o : Nat) : Place :=
  let r := o / 2 ^ 19
  { target := r / max 1 rows, bank := o / 64 % 2 * 32 + o / 2 ^ 16 % 8 * 4 + o / 2 ^ 14 % 4, row := r % max 1 rows
    col := o / 128 % 128 * 64 + o % 64 }

/-- Where an address of a controller lies. -/
def placeOf (s : State) (i a : Nat) : Place := if oxDdr i then ddrPlace (ddrRows s i) (a - oxBase i) else hbmPlace a

/-- The bank group of a bank number. -/
def bankGroup (i b : Nat) : Nat := if oxDdr i then b / 4 % 8 else b / 4 % 4

/-- The set of a stack that a pseudo-channel belongs to (R339). -/
def setOf (pc : Nat) : Nat := pc / 8

/-- The fault-class instance of a target (R409). -/
def targetInstance (i t : Nat) : Nat := if oxDdr i then 64 + 4 * (i - 2) + t else 32 * i + t

/-- The alert domain of a target (R354). -/
def domainOf (i t : Nat) : Nat := if oxDdr i then 0 else t / 2
/-- The targets of an alert domain. -/
def domainTargets (s : State) (i d : Nat) : List Nat := (oxTargets s i).filter (fun t => domainOf i t = d)

/-- Whether a target is in service: neither failed nor in a withdrawn set. -/
def targetIn (s : State) (i t : Nat) : Bool :=
  !(oxOf s i).failed.contains t && (oxDdr i || !rdBit s (OX_SET_STAT i) (setOf t))

/-- Whether a target takes requests: after its own first training, which others of the controller need not have ended (R350). -/
def serves (s : State) (i t : Nat) : Bool :=
  targetIn s i t && (oxState s i = 2 || oxState s i = 3 || (oxState s i = 1 && !(oxOf s i).fullFor.contains t))

/-- The MiB of a target (R338, R339). -/
def targetMib (s : State) (i : Nat) : Nat := if oxDdr i then ddrRows s i / 2 else 1152

/-- Show the capacity in service: of the targets in service that have ended their first training; of an HBM3E set that is withdrawn
nothing (R353, R362). -/
def showCap (s : State) (i : Nat) : State :=
  let ts := (oxTargets s i).filter (fun t => serves s i t)
  wr s (OX_CAP_MIB i) (wordOf (ts.length * targetMib s i))

/-- The bytes of the system region: 512 MiB of staging and what the DEVICE section adds (R342). -/
def systemBytes (s : State) : Nat :=
  (512 + ((s.img.inForce.bind (fun i => i.reading.device)).map (fun d => d.systemMiB)).getD 0) * 2 ^ 20

/-- Whether an address of a controller lies in the system region of the system pair (R342). -/
def inSystem (s : State) (i a : Nat) : Bool := s.systemPair.contains i && a - oxBase i < systemBytes s

/-- Where a sector of the system region lies in the copy of a controller. -/
def copyAt (k i a : Nat) : Nat := oxBase k + (a - oxBase i)

/-! ### Issue (R343 to R347) -/

/-- A bank's state; one not used yet has the counter that was loaded last. -/
def bankOf (o : OxSt) (t b : Nat) : BankSt :=
  (o.banks.find? (fun x => x.target = t && x.bank = b)).getD { target := t, bank := b, row := none, hist := o.initHist, opened := none }
/-- Put a bank's state back. -/
def putBank (o : OxSt) (x : BankSt) : OxSt :=
  { o with banks := x :: o.banks.filter (fun y => !(y.target = x.target && y.bank = x.bank)) }

/-- Whether a target's idle window is open. -/
def windowOn (o : OxSt) (t : Nat) : Bool := o.windowOpen && o.target = t
/-- Whether an alert of a target's domain is in progress. -/
def inAlert (o : OxSt) (i t : Nat) : Bool := o.alerts.any (fun a => a.domain = domainOf i t)

/-- Whether requests of a target wait: an idle window, a full training or an alert of its domain (R349, R352, R355). -/
def targetHeld (s : State) (i t : Nat) : Bool :=
  let o := oxOf s i
  windowOn o t || o.fullFor.contains t || inAlert o i t

/-- The requests of a bank that are in its queue: the oldest 16 (R344). -/
def bankQueue (o : OxSt) (t b : Nat) : List MemReq := (o.reqs.filter (fun r => r.target = t && r.bank = b)).take 16

/-- Whether a row stays open after a column command (R345). -/
def leaveOpen (mode : Nat) (hist : BitVec 2) (row : Nat) (later : List MemReq) : Bool :=
  if mode = 1 then true
  else if mode = 2 then false
  else if later.isEmpty then 2 ≤ hist.toNat
  else later.any (fun r => r.row = row)

/-- The counter after a hit or a miss (R345). -/
def nextHist (h : BitVec 2) (hit : Bool) : BitVec 2 := if hit then (if h = 3 then 3 else h + 1) else (if h = 0 then 0 else h - 1)

/-- A request that has waited 2 µs in its bank queue. -/
def starved (s : State) (r : MemReq) : Bool := ticksSince s r.since (usTicks 2)

/-- A command enters the retry buffer of its domain, which keeps the last 64 (R354). -/
def enterCmd (i : Nat) (o : OxSt) (x : IssuedCmd) : OxSt :=
  let d := domainOf i x.target
  let buf := o.issued ++ [x]
  let full : Bool := 64 < (buf.filter (fun y => domainOf i y.target = d)).length
  { o with issued := if full then buf.eraseP (fun y => domainOf i y.target = d) else buf }

/-- A command to a bank. -/
def bankCmd (now : Raw) (c : OxCmd) (t b row : Nat) : IssuedCmd :=
  { at_ := now, cmd := c, target := t, bank := b, row := row, addr := 0, wr := none }

/-- The open row of a bank is closed. -/
def prechargeBank (now : Raw) (i : Nat) (o : OxSt) (b : BankSt) : OxSt :=
  enterCmd i (putBank o { b with opened := none }) (bankCmd now .precharge b.target b.bank (b.opened.getD 0))

/-- A row of a bank is opened (R344). -/
def activateRow (now : Raw) (i : Nat) (o : OxSt) (t b row : Nat) : OxSt :=
  let o := putBank o { bankOf o t b with opened := some row }
  enterCmd i { o with lastAct := mput o.lastAct t b } (bankCmd now .activate t b row)

/-- The banks that the next refresh of a target covers: all of them, or in MODE 0 one bank of HBM3E and the same bank of every bank group
of DDR-5 (R346). The order in which single refreshes pass over the banks is PRESUMED (log entry 62). -/
def refreshCovers (mode i ptr bank : Nat) : Bool :=
  mode = 1 || (if oxDdr i then bank % 4 = ptr % 4 else bank = ptr % 48)

/-- A refresh is issued: the rows it covers are closed first (R345). -/
def refreshBanks (now : Raw) (mode ptr i t : Nat) (o : OxSt) : OxSt :=
  let bs := o.banks.filter (fun b => b.target = t && refreshCovers mode i ptr b.bank && b.opened.isSome)
  enterCmd i (bs.foldl (fun o b => prechargeBank now i o b) o) (bankCmd now (.refresh mode ptr) t 0 0)

/-- The next refresh of a target is issued, in the mode it fell due in (R346). -/
def issueRefresh (now : Raw) (mode i t : Nat) (o : OxSt) : OxSt :=
  let ptr := (mget o.refNext t).getD 0
  refreshBanks now mode ptr i t { o with refNext := mput o.refNext t (ptr + 1) }

/-- The modes of the refreshes a target has postponed. -/
def postponedOf (o : OxSt) (t : Nat) : List Nat := (mget o.postponed t).getD []
/-- Set them. -/
def putPostponed (o : OxSt) (t : Nat) (ms : List Nat) : OxSt :=
  { o with postponed := if ms.isEmpty then mdel o.postponed t else mput o.postponed t ms }

/-- The oldest refresh that a target has postponed is issued. -/
def issuePostponed (now : Raw) (i t : Nat) (o : OxSt) : OxSt :=
  match postponedOf o t with
  | [] => o
  | m :: ms => issueRefresh now m i t (putPostponed o t ms)

/-- The refreshes of a target that waited for the end of a window or a replay are issued (R349, R361). -/
def issueDue (now : Raw) (i t : Nat) (o : OxSt) : OxSt :=
  { ((mget o.refDue t).getD []).foldl (fun o m => issueRefresh now m i t o) o with refDue := mdel o.refDue t }

/-- The mode in force for a target: that of REF_CTL when its last refresh fell due (R346). -/
def refreshMode (o : OxSt) (t : Nat) : Nat := (mget o.refMode t).getD 0

/-- Whether a target's refreshes are at the limit of the memory standard (R347). -/
def refreshAtLimit (s : State) (i t : Nat) : Bool :=
  let ms := postponedOf (oxOf s i) t
  !ms.isEmpty && Config.refreshLimit (b2n (oxDdr i)) (refreshMode (oxOf s i) t) ≤ ms.length

/-- Whether the banks that the next refresh of a target covers have requests queued. -/
def refreshBusy (mode i t : Nat) (o : OxSt) : Bool :=
  o.reqs.any (fun r => r.target = t && refreshCovers mode i ((mget o.refNext t).getD 0) r.bank)

/-- The open window closes, and the refreshes that fell due in it are issued; what it took stays in force. -/
def closeWindow (s : State) (i : Nat) : State :=
  modOx s i (fun o => issueDue s.raw i o.target { o with windowOpen := false, trimsBefore := [] })

/-- The requests of a target that are in the queues of their banks. -/
def queuedFor (o : OxSt) (t : Nat) : List MemReq := o.reqs.filter (fun r => r.target = t && (bankQueue o t r.bank).contains r)

/-- Whether a request may take a column command: its row is open, and no older request of its bank has waited 2 µs (R344). -/
def columnOk (s : State) (o : OxSt) (r : MemReq) : Bool :=
  (bankOf o r.target r.bank).opened = some r.row &&
    (match (bankQueue o r.target r.bank).head? with
      | none => true
      | some h => h = r || !starved s h)

/-- Rule 2 of R344: the oldest request of a target that may take a column command. -/
def pickColumn (s : State) (i t : Nat) : Option MemReq := (queuedFor (oxOf s i) t).find? (columnOk s (oxOf s i))

/-- The head requests of a target's banks with no row open, in rotation order from the bank after the last activated. -/
def closedHeads (o : OxSt) (t : Nat) : List MemReq :=
  let first := ((mget o.lastAct t).map (fun b => b + 1)).getD 0
  let order := (List.range 64).map (fun k => (first + k) % 64)
  (order.filterMap (fun b => (bankQueue o t b).head?)).filter (fun r => (bankOf o t r.bank).opened.isNone)

/-- The first of some head requests, one of a bank group other than that of the last activate before the others (R344). -/
def preferGroup (o : OxSt) (i t : Nat) (heads : List MemReq) : Option MemReq :=
  match (mget o.lastAct t).bind (fun b => heads.find? (fun r => bankGroup i r.bank ≠ bankGroup i b)) with
  | some r => some r
  | none => heads.head?

/-- Rule 3 of R344: the activate among the banks that the memory standard lets be activated now. -/
def pickActivate (s : State) (i t : Nat) : Option MemReq :=
  let o := oxOf s i
  preferGroup o i t ((closedHeads o t).filter (fun r => Config.activateReady s.raw (32 * i + t) r.bank))

/-- Rule 4 of R344: a bank with requests queued whose open row none of them may hit. -/
def pickPrecharge (s : State) (i t : Nat) : Option BankSt :=
  let o := oxOf s i
  o.banks.find? (fun b => b.target = t && b.opened.isSome && !(bankQueue o t b.bank).isEmpty &&
    !(bankQueue o t b.bank).any (columnOk s o))

/-- A column command: its bank's class, counter and row; the sector counts; a read waits for its return. An HBM3E sector takes two bursts
(R337, R345, R354, R362). -/
def issueColumn (s : State) (i : Nat) (r : MemReq) : State :=
  let o := oxOf s i
  let b := bankOf o r.target r.bank
  let hit := b.row = some r.row
  let hist := nextHist b.hist hit
  let rest := o.reqs.erase r
  let stays := leaveOpen (rdFld s (OX_BANK_POL i) 1 0) hist r.row (bankQueue { o with reqs := rest } r.target r.bank)
  let col (auto : Bool) : IssuedCmd :=
    { at_ := s.raw, cmd := .column auto, target := r.target, bank := r.bank, row := r.row, addr := r.addr, wr := r.wr }
  let s := modOx s i (fun o =>
    let o := putBank o { b with row := some r.row, hist := hist, opened := if stays then some r.row else none }
    let o := if oxDdr i then o else enterCmd i o (col false)
    { enterCmd i o (col (!stays)) with
      reqs := rest
      reads := if r.wr.isNone && r.origin = .unit then o.reads ++ [r] else o.reads })
  let s := bump s (if hit then OX_ROW_HIT i else OX_ROW_MISS i)
  if r.wr.isSome then count64 s (OX_WR_SECT_LO i) (OX_WR_SECT_HI i) 1 else s

/-- One command slot of a target, in the order of R344; a refresh postponed takes a slot that rules 2 and 3 leave, and a bank that may be
activated later is activated then (R347). -/
def commandSlot (s : State) (i t : Nat) : Option State :=
  let act_ (r : MemReq) : State := modOx s i (fun o => activateRow s.raw i o t r.bank r.row)
  if refreshAtLimit s i t then some (modOx s i (issuePostponed s.raw i t))
  else match pickColumn s i t with
    | some r => some (issueColumn s i r)
    | none => match pickActivate s i t with
      | some r => some (act_ r)
      | none =>
        if (postponedOf (oxOf s i) t).isEmpty then
          match pickPrecharge s i t with
          | some b => some (modOx s i (fun o => prechargeBank s.raw i o b))
          | none => (preferGroup (oxOf s i) i t (closedHeads (oxOf s i) t)).map act_
        else some (modOx s i (issuePostponed s.raw i t))

/-- Use the command slots of a target, unless its requests wait. -/
def drain (s : State) (i t : Nat) : Nat → State
  | 0 => s
  | n + 1 =>
    if targetHeld s i t then s
    else match commandSlot s i t with
      | none => s
      | some s' => drain s' i t n

/-- Issue what a target may issue: a request takes at most a precharge, an activate and a column command. -/
def runTarget (s : State) (i t : Nat) : State :=
  drain s i t (3 * (oxOf s i).reqs.length + (postponedOf (oxOf s i) t).length)

/-- Issue what every target of a controller may issue. -/
def drainAll (s : State) (i : Nat) : State := forEach (oxTargets s i) s (fun t s => runTarget s i t)

/-- Store a sector: in the system region, in every copy in service (R342). -/
def storeSector (s : State) (i a : Nat) (bs : List Byte) : State :=
  let sys := inSystem s i a
  let ks := if sys then systemCopies s else [i]
  let s := onlyIf sys s (fun s => { s with rings := mdel (mdel s.rings (a - oxBase i)) (a - oxBase i + 32) })
  { s with dev := ks.foldl (fun m k => putBytes m (copyAt k i a) (padTo 64 bs)) s.dev }

/-- What a sector holds. -/
def sectorAt (s : State) (i a : Nat) : List Byte :=
  if inSystem s i a then systemHalf s i (a - oxBase i) ++ systemHalf s i (a - oxBase i + 32) else bytesAt s.dev a 64

/-- The instants of a domain's alert window (R354), in whole ticks: whether a command lies in that of an alert. -/
def alertCovers (i : Nat) (a : AlertSt) (x : IssuedCmd) : Bool :=
  domainOf i x.target = a.domain && sdiff x.at_ a.at_ < 0 && sdiff a.at_ x.at_ ≤ (if oxDdr i then 50 else 37)

/-- The entries that an alert of their domain will replay: those in its window (R355). -/
def toReplay (o : OxSt) (i : Nat) : List IssuedCmd := o.issued.filter (fun x => o.alerts.any (fun a => alertCovers i a x))

/-- Whether a write to a sector waits in its bank queue or in replay (R343). -/
def writePending (o : OxSt) (i a : Nat) : Bool :=
  o.reqs.any (fun r => r.addr = a && r.wr.isSome) ||
    (toReplay o i).any (fun x => x.addr = a && x.wr.isSome && (x.cmd = .column true || x.cmd = .column false))

/-- A controller queues a request for a sector of it. A write that is accepted drops a patrol's write-back of the sector (R361). -/
def enqueue (s : State) (i a : Nat) (w : Option (List Byte)) (origin : ReqFrom) : State :=
  let p := placeOf s i a
  let r : MemReq :=
    { since := s.raw, addr := a, target := p.target, bank := p.bank, row := p.row, wr := w, data := sectorAt s i a, origin := origin }
  let s := modOx s i (fun o =>
    { o with reqs := (if w.isSome then o.reqs.filter (fun x => !(x.addr = a && x.origin = .back)) else o.reqs) ++ [r] })
  runTarget s i p.target

/-- A read of a sector whose target takes requests: with a write pending it is answered from the controller's own queue (R343, R361). -/
def readSector (s : State) (i a : Nat) : State :=
  if writePending (oxOf s i) i a then emit s (.sector i a (sectorAt s i a)) else enqueue s i a none .unit

/-- A read that no target serves gives free data (R353). -/
def lostRead (s : State) (i a : Nat) : State :=
  let (x, s) := takeFree s
  emit s (.sector i a (freeBytes x 64))

/-- A controller accepts a request. In the system region a write goes to every copy in service and a read to the lower-numbered one (R342);
for a target that has failed a read completes as uncorrectable, which is free, and a write is discarded (R353). -/
def acceptReq (s : State) (i a0 : Nat) (w : Option (List Byte)) : State :=
  let a := a0 / 64 * 64
  if inSystem s i a then
    match w with
    | none => match (systemCopies s).head? with
      | some k => readSector s k (copyAt k i a)
      | none => lostRead s i a
    | some bs => forEach (systemCopies s) (storeSector s i a bs) (fun k s => enqueue s k (copyAt k i a) w .unit)
  else if serves s i (placeOf s i a).target then
    match w with
    | none => readSector s i a
    | some bs => enqueue (storeSector s i a bs) i a w .unit
  else if w.isNone then lostRead s i a
  else s

/-- MEMORY_REQUEST: a read (no data) or a write of the sector that holds an address. -/
def execMemoryRequest (i addr : Nat) (w : Option (List Byte)) (s : State) : Host.Outcome State Fault Refusal :=
  if i < 10 && s.power = .running && !inRange s i addr then .fault .noSuchAddress
  else actStore (i < 10) s (fun s => acceptReq s i addr w)

/-! ### Checks (R357, R358, R359) -/

/-- The channels of SET_CH of a set (R362). -/
def setChannels (s : State) (i j : Nat) : List Nat := (List.range 16).filter (fun n => rdBit s (OX_SET_CH i j) n)
/-- The channels an image defines. -/
def definedChannels (s : State) : List Nat := (List.range 16).filter (fun n => rdBit s (CH_STAT n) 0)

/-- Count an uncorrectable sector and record it (R358). -/
def recordUe (s : State) (i a : Nat) : State :=
  let s := wr64 (count s (OX_UE_CNT i)) (OX_LAST_UE_ADDR_LO i) (OX_LAST_UE_ADDR_HI i) a
  setEvt (wrRaw s (OX_LAST_UE_TIME_LO i) (OX_LAST_UE_TIME_HI i) s.raw) (OX_EVT i) 1

/-- The channel that owns a sector of the retention ring: the ring's layout is open, so it is free among the streams' (log
entry 6). -/
def ringOwner (s : State) : List Nat × State :=
  let (x, s) := takeFree s
  match s.streams with
  | [] => ([], s)
  | l => (((l[Config.freeNat x 0 % l.length]?).map (fun st => [st.id / 64])).getD [], s)

/-- A corrected sector is counted and is one event of its target's memory-correctable class (R357, R409). -/
def correctedSector (s : State) (i a : Nat) : State :=
  reportFault (count s (OX_CE_CNT i)) 0 (targetInstance i (placeOf s i a).target) (wordOf (a / 64))

/-- A channel whose memory is withdrawn, or has given it wrong data, launches what is verified or packaged; it codes nothing further, and its
engines leave what they have in hand, unpaired (R94, R353, R358, R419). -/
def stopChannels (s : State) (chs : List Nat) : State :=
  if isPaired s then s
  else forEach chs s (fun n s =>
    let s := modChan s n (fun c => { c with dead := true, work := [] })
    forEach (List.range 128) s (fun e s => if engState s e = 2 && rdFld s (ENG_STAT e) 11 8 = n then engRest s e else s))

/-- The controller's own request for a sector (R358, R359). -/
def ownRequest (s : State) (i a : Nat) (w : Option (List Byte)) (origin : ReqFrom) : State :=
  if serves s i (placeOf s i a).target then enqueue s i a w origin else s

/-- Both copies of a sector of the system region are lost, or its only one: a lasting fault of every channel (R358). -/
def systemLost (s : State) (i : Nat) (w : Word) : State :=
  lastingFault (enter s 0x0304 i (definedChannels s) true s.raw w) (definedChannels s)

/-- An uncorrectable sector outside the system region: a lasting fault of the channel that owns the stream, or of the channels of the
set, which code nothing further (R94, R358, R412). -/
def wrongData (s : State) (i a : Nat) : State :=
  let w := wordOf (a / 64)
  if oxDdr i then
    let (chs, s) := ringOwner s
    immediateFault s 0x0300 i chs w
  else
    let chs := setChannels s i (setOf (placeOf s i a).target)
    stopChannels (immediateFault s 0x0300 i chs w) chs

/-- An uncorrectable sector is handled by where it lies: in the system region the other copy is read, and where that is good it is written
back (R358, R412). Answers whether the data was repaired. -/
def uncorrectable (s : State) (i a : Nat) (other : SectorRead) : State × Bool :=
  let s := recordUe s i a
  let w := wordOf (a / 64)
  if inSystem s i a then
    match (systemCopies s).find? (fun k => k ≠ i) with
    | some k =>
      let b := copyAt k i a
      let s := ownRequest (count64 s (OX_RD_SECT_LO k) (OX_RD_SECT_HI k) 1) k b none .check
      if other = .uncorrectable then
        let s := recordUe s k b
        let s := immediateFault (immediateFault s 0x0300 i [] w) 0x0300 k [] (wordOf (b / 64))
        (systemLost s i w, false)
      else
        let s := onlyIf (other = .corrected) s (fun s => correctedSector s k b)
        let s := ownRequest { s with dev := putBytes s.dev a (bytesAt s.dev b 64) } i a (some (bytesAt s.dev b 64)) .check
        (immediateFault (count s (OX_MIRROR_FIX i)) 0x0300 i [] w, true)
    | none => (systemLost (immediateFault s 0x0300 i [] w) i w, false)
  else (wrongData s i a, false)

/-- A sector has been read: clean, corrected, or read again before it is reported (R357, R358). Answers whether the data is
good. -/
def checkSector (s : State) (i a : Nat) (r again other : SectorRead) : State × Bool :=
  let s := count64 s (OX_RD_SECT_LO i) (OX_RD_SECT_HI i) 1
  match r with
  | .clean => (s, true)
  | .corrected => (correctedSector s i a, true)
  | .uncorrectable =>
    let s := ownRequest (count64 s (OX_RD_SECT_LO i) (OX_RD_SECT_HI i) 1) i a none .check
    if again = .uncorrectable then uncorrectable s i a other else (correctedSector s i a, true)

/-- READ_COMPLETE: the oldest read issued returns; data that stays uncorrectable reaches the requester as read, which is free. -/
def execReadComplete (i : Nat) (r again other : SectorRead) (s : State) : Host.Outcome State Fault Refusal :=
  actStore (i < 10) s (fun s =>
    match (oxOf s i).reads with
    | [] => s
    | q :: rest =>
      let s := modOx s i (fun o => { o with reads := rest })
      let (s, good) := checkSector s i q.addr r again other
      if good then emit s (.sector i q.addr q.data) else lostRead s i q.addr)

/-- The sectors installed at a controller. -/
def oxSectors (s : State) (i : Nat) : Nat := oxBytes s i / 64

/-- The next sector the patrol reads: a sector of a withdrawn set is passed over (R359). -/
def nextPatrol (s : State) (i k : Nat) : Nat :=
  if oxDdr i then k + 1
  else
    let n := k + 1
    (List.range 4).foldl (fun n j => if n / 0x9000000 = j && rdBit s (OX_SET_STAT i) j then (j + 1) * 0x9000000 else n) n

/-- The hours of a patrol pass (R363). -/
def patrolHours (s : State) (i : Nat) : Nat := min 168 (max 1 (rdFld s (OX_PATROL_CTL i) 15 8))

/-- The ticks between the reads of a patrol: the pass spread evenly over the sectors in service, in whole ticks (R359, log entry 62). -/
def patrolTicks (s : State) (i : Nat) : Nat := patrolHours s i * 3600 * 1250000000 / max 1 ((rd s (OX_CAP_MIB i)).toNat * 16384)

/-- The patrol reads a sector: a corrected one is written back corrected; one with a write pending is answered from the queue, without
error (R359, R361). -/
def patrolSector (s : State) (i a : Nat) (r again other : SectorRead) : State :=
  if writePending (oxOf s i) i a then count64 s (OX_RD_SECT_LO i) (OX_RD_SECT_HI i) 1
  else
    let x := checkSector (ownRequest s i a none .check) i a r again other
    let back : Bool := r = .corrected || (r = .uncorrectable && again ≠ .uncorrectable)
    onlyIf back x.1 (fun s => ownRequest s i a (some (sectorAt s i a)) .back)

/-- Whether the patrol's next read is due. -/
def patrolDue (s : State) (i : Nat) : Bool :=
  rdBit s (OX_PATROL_CTL i) 0 && (oxState s i = 2 || oxState s i = 3) && passed s (oxOf s i).lastPatrol (patrolTicks s i)

/-- PATROL_READ: the patrol reads its next sector, unless its target's requests wait; the end of the memory completes a pass. -/
def execPatrolRead (i : Nat) (r again other : SectorRead) (s : State) : Host.Outcome State Fault Refusal :=
  actStore (i < 10) s (fun s =>
    let k := (oxOf s i).patrol
    let a := oxBase i + 64 * k
    let t := (placeOf s i a).target
    if patrolDue s i && !targetHeld s i t then
      let s := modOx s i (fun o => { o with lastPatrol := some s.raw })
      let s := onlyIf (targetIn s i t) s (fun s => patrolSector s i a r again other)
      let n := nextPatrol s i k
      if oxSectors s i ≤ n then count (modOx s i (fun o => { o with patrol := 0 })) (OX_PATROL_PASS i)
      else modOx s i (fun o => { o with patrol := n })
    else s)

/-! ### Refresh (R346, R347) -/

/-- The ticks between a target's refreshes: the standard's, divided as the indication it read last requires (R346). -/
def refreshTicks (s : State) (i t : Nat) : Nat :=
  Config.refreshInterval (b2n (oxDdr i)) (refreshMode (oxOf s i) t) / max 1 ((mget (oxOf s i).refDiv t).getD 1)

/-- A refresh of a target falls due, in the mode that REF_CTL has then: it waits for the end of an open window, or at the limit for that of a
replay; it is postponed while the banks it covers have requests queued or the target's requests wait; else, and at the limit before
anything else, it is issued (R346, R347, R349, R361). -/
def refreshFalls (s : State) (i t : Nat) : State :=
  let mode := rdFld s (OX_REF_CTL i) 0 0
  let s := modOx s i (fun o => { o with refLast := mput o.refLast t s.raw, refMode := mput o.refMode t mode })
  let o := oxOf s i
  let ms := postponedOf o t
  let lim := Config.refreshLimit (b2n (oxDdr i)) mode
  if windowOn o t || (lim ≤ ms.length && inAlert o i t) then
    modOx s i (fun o => { o with refDue := mput o.refDue t ((mget o.refDue t).getD [] ++ [mode]) })
  else if (refreshBusy mode i t o || targetHeld s i t) && ms.length < lim then
    modOx s i (fun o => putPostponed o t (ms ++ [mode]))
  else runTarget (modOx s i (fun o => issuePostponed s.raw i t (putPostponed o t (ms ++ [mode])))) i t

/-- REFRESH_DUE: at each refresh interval of a target. -/
def execRefreshDue (i t : Nat) (s : State) : Host.Outcome State Fault Refusal :=
  act (i < 10 && t < 32) s (fun s =>
    if (oxTargets s i).contains t && targetIn s i t && 1 ≤ oxState s i && oxState s i ≤ 3 &&
        passed s (mget (oxOf s i).refLast t) (refreshTicks s i t) then
      refreshFalls s i t
    else s)

/-- REFRESH_RATE_POLL: every 16 ms the indication is read, which divides the target's refresh interval (R346). -/
def execRefreshRatePoll (i t divisor : Nat) (s : State) : Host.Outcome State Fault Refusal :=
  act (i < 10 && t < 32) s (fun s =>
    if (oxTargets s i).contains t && passed s (mget (oxOf s i).polled t) (msTicks 16) then
      modOx s i (fun o => { o with refDiv := mput o.refDiv t divisor, polled := mput o.polled t s.raw })
    else s)

/-! ### Training (R348 to R352) -/

/-- The trims of a target (R468): their first index and number. -/
def targetTrims (i t : Nat) : Nat × Nat := if oxDdr i then (400 + 28 * (i - 2) + 6 * t, 6) else (208 + 3 * (32 * i + t), 3)
/-- The VrefCA trim of a DDR-5 rank (R468). -/
def caTrim (i t : Nat) : Nat := 400 + 28 * (i - 2) + 24 + t

/-- The pending trims of a target take effect; of a DDR-5 rank with its VrefCA (R468, R473). -/
def takeTargetTrims (s : State) (i t : Nat) : State :=
  let s := takeTrims s (targetTrims i t).1 (targetTrims i t).2
  if oxDdr i then takeTrims s (caTrim i t) 1 else s

/-- The trims of a target that wait, with the value in force and the one that waits. -/
def trimsWaiting (s : State) (i t : Nat) : List (Nat × BitVec 10 × BitVec 10) :=
  let ns := (List.range (targetTrims i t).2).map (fun k => (targetTrims i t).1 + k)
  (ns ++ (if oxDdr i then [caTrim i t] else [])).filterMap (fun n =>
    let x := s.cal.trims.getD n TrimSt.reset
    x.pend.map (fun v => (n, x.cur, v)))

/-- The values that a window took wait again for the next one: an alert came in it (R480). -/
def giveBackTrims (s : State) (i : Nat) : State :=
  let xs := (oxOf s i).trimsBefore
  let s := { s with cal := { s.cal with trims := xs.foldl (fun ts x =>
    ts.modify x.1 (fun t => { t with cur := x.2.1, pend := some (t.pend.getD x.2.2) })) s.cal.trims } }
  modOx s i (fun o => { o with trimsBefore := [] })

/-- The runs of passing points of a sweep: (first index, length). -/
def runsOf : Nat → List Bool → List (Nat × Nat)
  | _, [] => []
  | k, false :: bs => runsOf (k + 1) bs
  | k, true :: bs =>
    match runsOf (k + 1) bs with
    | (j, n) :: rest => if j = k + 1 then (k, n + 1) :: rest else (k, 1) :: (j, n) :: rest
    | [] => [(k, 1)]

/-- The widest run of passing points, the first of equals. -/
def widestRun (bs : List Bool) : Option (Nat × Nat) :=
  (runsOf 0 bs).foldl (fun best r => match best with
    | none => some r
    | some b => if b.2 < r.2 then some r else some b) none

/-- The result of a sweep: the centre of the widest run, rounded down, with the run's width (R348). -/
def sweepResult (r : SweepResult) : Option (Nat × Nat) := (widestRun r.points).map (fun x => (r.first + (2 * x.1 + x.2 - 1) / 2, x.2))

/-- The trims that a training step of a target sweeps: step 1 the drive, step 6 the two Vref, of each subchannel of DDR-5, step 7 VrefCA
(R348, R468). The other steps sweep a setting with no trim. -/
def stepTrims (i t step : Nat) : List Nat :=
  let b := (targetTrims i t).1
  match step with
  | 1 => if oxDdr i then [b + 2, b + 5] else [b + 2]
  | 6 => if oxDdr i then [b, b + 1, b + 3, b + 4] else [b, b + 1]
  | 7 => if oxDdr i then [caTrim i t] else []
  | _ => []

/-- The last step of a full training (R348). -/
def lastStep (i : Nat) : Nat := if oxDdr i then 7 else 6

/-- Where the setting of a step without a trim stands among the settings of a controller. -/
def settingKey (t step : Nat) : Nat := 8 * t + step

/-- The value in force of what the sweep `k` of a step moves. -/
def settingNow (s : State) (i t step k : Nat) : Nat :=
  match (stepTrims i t step)[k]? with
  | some n => (s.cal.trims.getD n TrimSt.reset).cur.toNat
  | none => (mget (oxOf s i).settings (settingKey t step)).getD 0

/-- The range of a sweep: in a full training the whole range of a trim, else 16 LSB to either side of the value in force (R348). -/
def sweepOf (full : Bool) (v : Nat) (points : List Bool) : SweepResult :=
  if full then { first := 0, points := points.take 1024 }
  else { first := v - 16, points := points.take (min 1023 (v + 16) + 1 - (v - 16)) }

/-- The results of the sweeps of a run of a step, with the widths of their runs; none where one finds no working setting. -/
def runResult (s : State) (i t step : Nat) (full : Bool) (sweeps : List (List Bool)) : Option (List (Nat × Nat)) :=
  let xs := (List.range (max 1 (stepTrims i t step).length)).map (fun k =>
    sweepResult (sweepOf full (settingNow s i t step k) (sweeps.getD k [])))
  if xs.all (fun x => x.isSome) then some (xs.filterMap id) else none

/-- Count a run of a step: one without a working setting, or one with a narrow run of passing points (R348, R352). -/
def countStep (s : State) (i : Nat) (res : Option (List (Nat × Nat))) : State :=
  match res with
  | none => setEvt (count s (OX_STEP_FAIL i)) (OX_EVT i) 5
  | some xs => onlyIf (xs.any (fun x => x.2 < 4)) s (fun s => setEvt (count s (OX_MARGIN_LOW i)) (OX_EVT i) 4)

/-- The agreement that a step's results require: that of its trims (R468, R471). -/
def stepTol (step : Nat) : Nat := if step = 1 then 1 else if step = 6 || step = 7 then 2 else Config.stepTolerance step

/-- Whether the results of a step are done: a pair that agrees, or the retry pair (R349, R471). -/
def pairDone (step : Nat) (rs : List (List Nat)) : Bool :=
  let near (x : Nat × Nat) : Bool := x.1 ≤ x.2 + stepTol step && x.2 ≤ x.1 + stepTol step
  match rs with
  | [a, b] => (a.zip b).all near
  | [_, _, _, _] => true
  | _ => false

/-- What the acceptance rule answers: the value accepted, if any, and whether it retried (R471). -/
def acceptRule (tol a b c d : Nat) : Option Nat × Bool :=
  let near (x y : Nat) : Bool := x ≤ y + tol && y ≤ x + tol
  if near a b then (some ((a + b) / 2), false)
  else if near c d then (some ((c + d) / 2), true)
  else (none, true)

/-- The results of a step are taken: those of its trims wait to be judged; a setting with no trim is in force (R348, R471; log entry 62). -/
def takeResults (s : State) (i t step : Nat) (rs : List (List Nat)) : State :=
  let of (k : Nat) : List Nat := rs.map (fun r => r.getD k 0)
  match stepTrims i t step with
  | [] =>
    let v : Option Nat := match of 0 with
      | [a] => some a
      | [a, b] => (acceptRule (stepTol step) a b a b).1
      | [a, b, c, d] => (acceptRule (stepTol step) a b c d).1
      | _ => none
    forSome v s (fun v s => modOx s i (fun o => { o with settings := mput o.settings (settingKey t step) v }))
  | ns => modOx s i (fun o => { o with
      offers := ns.zipIdx.foldl (fun m x => mput m x.1 (of x.2)) o.offers })

/-- A full training of targets begins, each with its first step (R352). -/
def startFull (s : State) (i : Nat) (ts : List Nat) : State :=
  let ts := ts.filter (fun t => targetIn s i t)
  let s := if oxState s i = 2 then putOxState s i 3 else s
  forEach ts (modOx s i (fun o => { o with
    fullFor := o.fullFor ++ ts.filter (fun t => !o.fullFor.contains t)
    fullStep := ts.foldl (fun m t => mdel m t) o.fullStep
    fullRuns := ts.foldl (fun m t => mdel m t) o.fullRuns
    fullBad := o.fullBad.filter (fun t => !ts.contains t) })) (fun t s => takeTargetTrims s i t)

/-- The seconds between passes (R363). -/
def retrainSecs (s : State) (i : Nat) : Nat := min 600 (max 1 (rdFld s (OX_RETRAIN_CTL i) 25 16))

/-- The first target in service at or after one. -/
def nextTarget (s : State) (i from_ : Nat) : Option Nat := (oxTargets s i).find? (fun t => from_ ≤ t && targetIn s i t)

/-- RETRAIN_PASS_START. -/
def execRetrainPassStart (i : Nat) (s : State) : Host.Outcome State Fault Refusal :=
  act (i < 10) s (fun s =>
    let o := oxOf s i
    if rdBit s (OX_RETRAIN_CTL i) 0 && oxState s i = 2 && !o.passOn && passed s o.lastPass (secTicks (retrainSecs s i)) then
      match nextTarget s i 0 with
      | none => s
      | some t => modOx s i (fun o => { o with passOn := true, lastPass := some s.raw, target := t, step_ := 3, results := [] })
    else s)

/-- The pass goes on to the next target in service, or to its end. -/
def passOnward (s : State) (i : Nat) : State :=
  match nextTarget s i ((oxOf s i).target + 1) with
  | some t => modOx s i (fun o => { o with target := t, step_ := 3, results := [] })
  | none => count (modOx s i (fun o => { o with passOn := false, results := [] })) (OX_RETRAIN_CNT i)

/-- The pass goes on to the next step, the next target, or its end (R349). -/
def nextStep (s : State) (i : Nat) : State :=
  if (oxOf s i).step_ < 6 then modOx s i (fun o => { o with step_ := o.step_ + 1, results := [] }) else passOnward s i

/-- TRAINING_WINDOW: at most one a millisecond, not while a refresh of the target is at its limit; a target withdrawn since is passed over
(R349). -/
def execTrainingWindow (i : Nat) (s : State) : Host.Outcome State Fault Refusal :=
  act (i < 10) s (fun s =>
    let s := onlyIf ((oxOf s i).passOn && !targetIn s i (oxOf s i).target) s (fun s => passOnward s i)
    let o := oxOf s i
    if o.passOn && !o.windowOpen && oxState s i = 2 && passed s o.lastWindow (msTicks 1) && !refreshAtLimit s i o.target &&
        !targetHeld s i o.target then
      let before := trimsWaiting s i o.target
      takeTargetTrims (modOx s i (fun o => { o with windowOpen := true, lastWindow := some s.raw, trimsBefore := before })) i o.target
    else s)

/-- Whether a requested rate waits to begin. -/
def freqWaits (o : OxSt) : Bool :=
  match o.freq with
  | none => false
  | some (r, _) => o.freqOn ≠ some r

/-- The step of a full training that a target is in. -/
def fullStepOf (o : OxSt) (t : Nat) : Nat := (mget o.fullStep t).getD 1

/-- Whether the full training of a target has no step left: all are done, or one found no working setting. -/
def stepsOver (o : OxSt) (i t : Nat) : Bool := o.fullBad.contains t || lastStep i < fullStepOf o t

/-- A rate that waits begins once no training step gathers data and no alert is in progress: issue stops and every target trains at the new
rate (R351, R361). -/
def tryFreq (s : State) (i : Nat) : State :=
  let o := oxOf s i
  if freqWaits o && o.alerts.isEmpty && !o.windowOpen && o.fullFor.all (fun t => o.settled.contains t || stepsOver o i t) then
    startFull (modOx s i (fun o => { o with freqOn := o.freq.map (fun x => x.1), settled := [] })) i (oxTargets s i)
  else s

/-- A run of a periodic step ends: its result is kept, and the step is repeated or passed on; a step without a working setting leads to a
full training of its target; data gathered while a rate waits is discarded (R349, R351, R352). -/
def windowStep (s : State) (i : Nat) (sweeps : List (List Bool)) : State :=
  let o := oxOf s i
  let res := runResult s i o.target o.step_ false sweeps
  let s := closeWindow (countStep s i res) i
  let s :=
    if freqWaits o then tryFreq s i
    else match res with
      | none => nextStep (startFull s i [o.target]) i
      | some xs =>
        let rs := o.results ++ [xs.map (fun x => x.1)]
        if pairDone o.step_ rs then nextStep (takeResults s i o.target o.step_ rs) i else modOx s i (fun o => { o with results := rs })
  runTarget s i o.target

/-- A run of a step of a full training ends: a step with trims runs as a pair, as R471 asks of a calibration, and the next step
follows; a step without a working setting ends the target's training (R348, R351, R352). -/
def fullRun (s : State) (i t : Nat) (sweeps : List (List Bool)) : State :=
  let o := oxOf s i
  let step := fullStepOf o t
  let res := runResult s i t step true sweeps
  let s := countStep s i res
  if freqWaits o then tryFreq (modOx s i (fun o => { o with settled := o.settled ++ [t] })) i
  else match res with
    | none => modOx s i (fun o => { o with fullBad := o.fullBad ++ [t] })
    | some xs =>
      let rs := (mget o.fullRuns t).getD [] ++ [xs.map (fun x => x.1)]
      if (stepTrims i t step).isEmpty || pairDone step rs then
        modOx (takeResults s i t step rs) i (fun o => { o with fullStep := mput o.fullStep t (step + 1), fullRuns := mdel o.fullRuns t })
      else modOx s i (fun o => { o with fullRuns := mput o.fullRuns t rs })

/-- Whether an alert stops the training of a target: one whose replay is to come, unless it waits for that training (R356, R361). -/
def alertStops (o : OxSt) (i t : Nat) : Bool := o.alerts.any (fun a => a.domain = domainOf i t && a.num < 3)

/-- TRAINING_STEP_DONE: a run of a step of a target ends with the points of its sweeps, in order; a step that an alert comes in ends without
a result and runs again (R348, R349, R361). -/
def execTrainingStepDone (i t : Nat) (sweeps : List (List Bool)) (s : State) : Host.Outcome State Fault Refusal :=
  act (i < 10 && t < 32) s (fun s =>
    let o := oxOf s i
    if windowOn o t then windowStep s i sweeps
    else if o.fullFor.contains t && !alertStops o i t && !stepsOver o i t && !(freqWaits o && o.settled.contains t) then fullRun s i t sweeps
    else s)

/-! ### Failure (R353) -/

/-- A read that waited for a target that fails completes as uncorrectable; in the system region it is served from the other copy
(R353, R358). -/
def deadRead (s : State) (i a : Nat) : State :=
  let s := recordUe s i a
  let w := wordOf (a / 64)
  if inSystem s i a then
    match (systemCopies s).find? (fun k => k ≠ i) with
    | some k => readSector (immediateFault s 0x0300 i [] w) k (copyAt k i a)
    | none => lostRead (systemLost (immediateFault s 0x0300 i [] w) i w) i a
  else lostRead (wrongData s i a) i a

/-- What waits for targets that fail: the reads complete as uncorrectable, the writes and what would be replayed are discarded. -/
def dropTargets (s : State) (i : Nat) (lost : Nat → Bool) : State :=
  let o := oxOf s i
  let rs := (o.reads ++ o.reqs).filter (fun r => lost r.target && r.wr.isNone && r.origin = .unit)
  let s := modOx s i (fun o => { o with
    reqs := o.reqs.filter (fun r => !lost r.target)
    reads := o.reads.filter (fun r => !lost r.target)
    issued := o.issued.filter (fun x => !lost x.target) })
  forEach rs s (fun r s => deadRead s i r.addr)

/-- An HBM3E pseudo-channel fails: its set is withdrawn. -/
def failPc (s : State) (i t : Nat) : State :=
  let j := setOf t
  let chs := setChannels s i j
  let first := !rdBit s (OX_SET_STAT i) j
  let s := modOx s i (fun o => { o with failed := o.failed ++ [t], fullFor := o.fullFor.filter (fun x => setOf x ≠ j) })
  let s := setEvt (wrBit (wrBit s (OX_PC_FAIL i) t true) (OX_SET_STAT i) j true) (OX_EVT i) 7
  let s := showCap (onlyIf first s (fun s => setEvt s (OX_EVT i) 8)) i
  let s := stopChannels (immediateFault s 0x0301 i chs (wordOf t)) chs
  dropTargets s i (fun x => setOf x = j)

/-- What a share loses with a withdrawn range: which units lie there is open, so it is free (R287; log entry 6). -/
def shrinkShare (s : State) (i : Nat) : State :=
  match streamOf s i with
  | none => s
  | some st =>
    let (x, s) := takeFree s
    let lost (u : RetUnit) : Bool := Config.freeNat x (u.seq + 1) % 2 = 1
    let gone := st.held.filter lost
    let s := onlyIf (gone.any RetUnit.waits) s (fun s => loseStream s i 0)
    let s := modStream s i (fun y => { y with
      held := y.held.filter (fun u => !lost u)
      share := y.share - min y.share (Config.freeNat x 0) })
    showHeld (setEvt s (EGR_CH_EVT (i / 64)) 7) i

/-- A DDR-5 channel fails: its range is withdrawn, the ring shrinks, the other system copy serves alone. -/
def failDdr (s : State) (i t : Nat) : State :=
  let sys := rdBit s (OX_STAT i) 4
  let capMiB := (rd s (OX_CAP_MIB i)).toNat
  let ring := capMiB - (if sys then systemBytes s / 2 ^ 20 else 0)
  let s := modOx s i (fun o => { o with
    failed := oxTargets s i, fullFor := [], fullBad := [], settled := [], freq := none, freqOn := none, passOn := false })
  let s := wr (setEvt (putOxState s i 4) (OX_EVT i) 7) (OX_CAP_MIB i) 0
  let s := wrBit s (OX_FREQ_STAT i) 2 false
  let s := onlyIf sys s (fun s =>
    let s := forEach s.systemPair s (fun k s => wrBit s (OX_STAT k) 5 false)
    let s := setEvt (wrBit s (OX_STAT i) 4 false) (OX_EVT i) 11
    onlyIf (systemCopies s).isEmpty s (fun s => setLedgerValid s false))
  let s := wr s EGR_RET_SIZE (rd s EGR_RET_SIZE - wordOf (min (rd s EGR_RET_SIZE).toNat ring))
  let before := s.streams.map (fun st => (st.id, st.lostAt.isSome))
  let s := forEach (s.streams.map (fun st => st.id)) s (fun k s => shrinkShare s k)
  let chs := ((s.streams.filter (fun st => st.lostAt.isSome && before.contains (st.id, false))).map (fun st => st.id / 64)).eraseDups
  dropTargets (immediateFault s 0x0301 i chs (wordOf t)) i (fun _ => true)

/-! ### FULL_TRAINING_DONE, FREQ_CMD (R350 to R352) -/

/-- Every bank counter takes INIT (R345). -/
def loadInit (s : State) (i : Nat) : State :=
  let v := BitVec.ofNat 2 (rdFld s (OX_BANK_POL i) 3 2)
  modOx s i (fun o => { o with initHist := v, banks := o.banks.map (fun b => { b with hist := v }) })

/-- The start-up sequence reaches a stage (R487, R504). -/
def setStage (s : State) (k : Nat) : State :=
  if rdFld s GLB_STAT 2 0 = k then s else wr (wrFld s GLB_STAT 2 0 k) GLB_STAGE_TIME (wordOf s.raw.toNat)

/-- When every start-up training has ended the system pair is the two lowest-numbered DDR-5 channels in service, the ledger ring
enters service with it, and the device goes on to its image (R342, R416, R487). -/
def choosePair (s : State) : State :=
  if rdFld s GLB_STAT 2 0 ≤ 2 && (List.range 10).all (fun i => oxState s i ≠ 1) then
    let ks := (((List.range 8).map (fun k => k + 2)).filter (fun i => oxState s i = 2 || oxState s i = 3)).take 2
    let s := { s with systemPair := ks }
    let s := forEach ks s (fun i s => wrBit (wrBit s (OX_STAT i) 4 true) (OX_STAT i) 5 (ks.length == 2))
    let s := onlyIf (!ks.isEmpty) s (fun s => setLedgerValid s true)
    setStage s (if s.pins.bootSel then 3 else 5)
  else s

/-- Show that a rate is in force; a rate below the first derates (R351). -/
def showRate (s : State) (i r : Nat) : State :=
  let s := wrBit (wrFld s (OX_FREQ_STAT i) 1 0 r) (OX_STAT i) 3 (r != 0)
  onlyIf (r != 0) s (fun s => setEvt s (OX_EVT i) 9)

/-- A command is issued again; a column command has its row activated first where it is not open (R355). -/
def replayCmd (now : Raw) (i : Nat) (o : OxSt) (x : IssuedCmd) : OxSt :=
  match x.cmd with
  | .precharge => enterCmd i (putBank o { bankOf o x.target x.bank with opened := none }) { x with at_ := now }
  | .activate => activateRow now i o x.target x.bank x.row
  | .refresh mode ptr => refreshBanks now mode ptr i x.target o
  | .column auto =>
    let o := if (bankOf o x.target x.bank).opened = some x.row then o else activateRow now i o x.target x.bank x.row
    let o := if auto then putBank o { bankOf o x.target x.bank with opened := none } else o
    enterCmd i o { x with at_ := now }

/-- Replay what an alert left: the banks of the targets it affects are precharged, the entries issued in its window follow in order, each
entering the retry buffer anew; then the refreshes that waited, then the requests (R354, R355, R361). -/
def replay (s : State) (i d : Nat) : State :=
  match (oxOf s i).alerts.find? (fun a => a.domain = d) with
  | none => s
  | some a =>
    let es := (oxOf s i).issued.filter (alertCovers i a)
    let s := modOx s i (fun o =>
      let o := { o with alerts := o.alerts.filter (fun x => x.domain ≠ d), released := o.released.filter (fun x => x ≠ d) }
      let o := { o with banks := o.banks.map (fun b => if a.affected.contains b.target then { b with opened := none } else b) }
      es.foldl (fun o x => replayCmd s.raw i o x) o)
    let s := forEach (domainTargets s i d) s (fun t s => modOx s i (issueDue s.raw i t))
    drainAll (countBy s (OX_REPLAY_CNT i) es.length) i

/-- Full training has ended with every target working or failed (R350, R351). -/
def finishFull (s : State) (i : Nat) : State :=
  let o := oxOf s i
  let start := oxState s i = 1
  let s := loadInit (modOx s i (fun o => { o with lastPass := if start then some s.raw else o.lastPass })) i
  let s := if oxState s i = 4 then s else putOxState s i 2
  let s := onlyIf (!start) s (fun s => setEvt (count s (OX_FULL_TRAIN_CNT i)) (OX_EVT i) 6)
  let s := match o.freqOn, o.freq with
    | some r, some (q, tag) =>
      if r = q then
        let s := showRate (modOx s i (fun o => { o with freq := none, freqOn := none })) i r
        setEvt (wrFld (wrFld (wrBit s (OX_FREQ_STAT i) 2 false) (OX_FREQ_STAT i) 15 8 tag.toNat) (OX_FREQ_STAT i) 23 16 0) (OX_EVT i) 10
      else s
    | _, none => modOx s i (fun o => { o with freqOn := none })
    | _, _ => s
  choosePair (drainAll (tryFreq s i) i)

/-- A target leaves full training: at start it enters service; a replay that waited for it runs; the last one ends the training (R350,
R356). -/
def leaveFull (s : State) (i t : Nat) : State :=
  let s := modOx s i (fun o => { o with
    fullFor := o.fullFor.filter (fun x => x ≠ t), fullBad := o.fullBad.filter (fun x => x ≠ t), fullStep := mdel o.fullStep t })
  let s := showCap s i
  let s := forEach ((oxOf s i).released.filter (fun d => (domainTargets s i d).all (fun x => !(oxOf s i).fullFor.contains x))) s
    (fun d s => replay s i d)
  if (oxOf s i).fullFor.isEmpty then finishFull s i else runTarget s i t

/-- The full training of a DDR-5 channel finds no working setting: it trains again one rate lower, unless a later request waits, which is
carried out in its place; at the lowest rate the channel fails (R351, R352). -/
def derateDdr (s : State) (i t : Nat) : State :=
  let o := oxOf s i
  let r := o.freqOn.getD (rdFld s (OX_FREQ_STAT i) 1 0)
  if freqWaits o then tryFreq s i
  else if r < 2 then
    let s := match o.freqOn, o.freq with
      | some _, some (_, tag) => modOx s i (fun o => { o with freqOn := some (r + 1), freq := some (r + 1, tag) })
      | _, _ => showRate s i (r + 1)
    showCap (startFull s i (oxTargets s i)) i
  else choosePair (failDdr s i t)

/-- FULL_TRAINING_DONE: the full training of a target ends, its steps done or one of them without a working setting. A target that works
enters service or goes on serving; a DDR-5 channel that does not trains again or fails; an HBM3E pseudo-channel fails (R350, R352). -/
def execFullTrainingDone (i t : Nat) (s : State) : Host.Outcome State Fault Refusal :=
  act (i < 10 && t < 32) s (fun s =>
    let o := oxOf s i
    if o.fullFor.contains t && !alertStops o i t && stepsOver o i t then
      if !o.fullBad.contains t then leaveFull s i t
      else if oxDdr i then derateDdr s i t
      else leaveFull (failPc s i t) i t
    else s)

/-- A rate request finishes at once with a reason (R351). -/
def refuseFreq (s : State) (i : Nat) (tag : Byte) (code : Nat) : State :=
  wrFld (wrFld s (OX_FREQ_STAT i) 15 8 tag.toNat) (OX_FREQ_STAT i) 23 16 code

/-- FREQ_CMD. -/
def execFreqCmd (i : Nat) (rate : BitVec 2) (tag : Byte) (s : State) : Host.Outcome State Fault Refusal :=
  act (i < 10) s (fun s =>
    let st := oxState s i
    if !oxDdr i && anyRunning s then refuseFreq s i tag 0x01
    else if rate = 3 then refuseFreq s i tag 0x02
    else if st = 0 || st = 4 || st = 5 then refuseFreq s i tag 0x03
    else
      let s := modOx s i (fun o => { o with
        freq := some (rate.toNat, tag)
        settled := if freqWaits o then o.settled else [] })
      tryFreq (wrBit s (OX_FREQ_STAT i) 2 true) i)

/-! ### Alerts (R354 to R356, R361) -/

/-- The targets an alert affects: the rank it names of a DDR-5 channel, both pseudo-channels of an HBM3E channel (R355). -/
def affectedBy (s : State) (i d rank : Nat) : List Nat :=
  if oxDdr i then (domainTargets s i d).filter (fun t => t = rank) else domainTargets s i d

/-- The alert state of a domain after one more alert: the entries that the replay in progress would repeat are repeated by the next, so they
stand in its window too (R356; log entry 62). -/
def addAlert (now : Raw) (i d : Nat) (ts : List Nat) (o : OxSt) : OxSt :=
  let old := o.alerts.find? (fun a => a.domain = d)
  let before (x : IssuedCmd) : IssuedCmd := match old with
    | none => x
    | some a => if alertCovers i a x then { x with at_ := now - 1 } else x
  let a : AlertSt :=
    { domain := d, num := ((old.map (fun a => a.num)).getD 0) + 1, at_ := now
      affected := ((old.map (fun a => a.affected)).getD []).filter (fun t => !ts.contains t) ++ ts }
  { o with
    issued := o.issued.map before
    alerts := a :: o.alerts.filter (fun x => x.domain ≠ d)
    released := o.released.filter (fun x => x ≠ d)
    windowOpen := o.windowOpen && domainOf i o.target ≠ d }

/-- PARITY_ALERT: issue to the domain stops; an open window of it closes without its result; the third alert within one replay
leads to a full training of the targets affected. It is one event of the parity-alert class for every target of its domain
(R354 to R356, R361, R409). -/
def execParityAlert (i d rank : Nat) (s : State) : Host.Outcome State Fault Refusal :=
  act (i < 10 && d < (if oxDdr i then 1 else 16)) s (fun s =>
    let st := oxState s i
    if st = 0 || st = 4 || st = 5 then s
    else
      let o := oxOf s i
      let s := setEvt (count s (OX_ALERT_CNT i)) (OX_EVT i) 2
      let s := forEach (domainTargets s i d) s (fun t s => reportFault s 1 (targetInstance i t) 0)
      let s := onlyIf (o.windowOpen && domainOf i o.target = d) s (fun s => giveBackTrims s i)
      let s := modOx s i (addAlert s.raw i d (affectedBy s i d rank))
      match (oxOf s i).alerts.head? with
      | some a => if a.num = 3 then startFull s i a.affected else s
      | none => s)

/-- ALERT_RELEASE: precharge and replay; after a third alert once its full training has ended (R355, R356). A rate that waits begins after
it (R361). -/
def execAlertRelease (i d : Nat) (s : State) : Host.Outcome State Fault Refusal :=
  act (i < 10 && d < (if oxDdr i then 1 else 16)) s (fun s =>
    let o := oxOf s i
    match o.alerts.find? (fun a => a.domain = d) with
    | none => s
    | some a =>
      if 3 ≤ a.num && a.affected.any (fun t => o.fullFor.contains t) then
        modOx s i (fun o => { o with released := o.released ++ [d] })
      else tryFreq (replay s i d) i)

end Sys2Proof.Machine
end

