-- ==== Sys2Proof/Machine/Cal.lean ====
section
/-!
DEFINITION. Calibration, trims and sensors (spec/18_calibration.md): the temperature sets, interpolation, acceptance, the
running calibrations, the sensors with their thermal limits, and the core voltage.
-/
namespace Sys2Proof.Machine

/-! ### The temperature sets (R469, R470) -/

/-- Where a copy of a temperature set lies in the store. -/
def setBase (k : Nat) (copyB : Bool) : Nat := (if copyB then 0x9000 else 0x4000) + k * 0x1000

/-- Trim `n` in the copy at an offset. -/
def setTrim (s : State) (b n : Nat) : Nat := ofLe (storeBytes s (b + 2 * n) 2)

/-- Whether the copy at an offset is valid. -/
def copyValid (s : State) (b : Nat) : Bool :=
  crc32c (storeBytes s b 0xFFC) == wordOf (ofLe (storeBytes s (b + 0xFFC) 4)) &&
    (List.range 669).all (fun n => setTrim s b n < 1024)

/-- GEN of the copy at an offset. -/
def copyGen (s : State) (b : Nat) : Word := wordOf (ofLe (storeBytes s (b + 0xFF8) 4))

/-- The current one of two copies, by which are valid and whether copy B is the newer. -/
def newerCopy : Bool → Bool → Bool → Option Bool
  | false, false, _ => none
  | true, false, _ => some false
  | false, true, _ => some true
  | true, true, b => some b

/-- Which copy of a set is current, if any is valid: the one with the greater GEN. -/
def currentCopy (s : State) (k : Nat) : Option Bool :=
  newerCopy (copyValid s (setBase k false)) (copyValid s (setBase k true))
    (decide (0 < sdiff (copyGen s (setBase k true)) (copyGen s (setBase k false))))

/-- The set that stands for set `k`: itself, else the nearest with a valid copy, below first (R470). -/
def standIn (s : State) (k : Nat) : Option Nat :=
  (((List.range 5).map (fun d => (if d ≤ k then [k - d] else []) ++ [k + d])).flatten).find?
    (fun j => j < 5 && (currentCopy s j).isSome)

/-- V[k][n] (R470). -/
def setValue (s : State) (k n : Nat) : Nat :=
  match standIn s k with
  | none => 512
  | some j => setTrim s (setBase j ((currentCopy s j).getD false)) n

/-- The interpolated value of a trim between two set values (R470). -/
def interpolate (lo hi tj : Nat) : Nat :=
  let f := tj - 200 * min (tj / 200) 3
  (lo * (200 - f) + hi * f + 100) / 200

/-- Tj in units of 0.125 °C (R475). -/
def tjNow (s : State) : Int := (BitVec.ofNat 12 (rdFld s CAL_TJ 11 0)).toInt

/-- Tj clamped to the sets' range (R470). -/
def tjClamped (s : State) : Nat := (max 0 (min (tjNow s) 800)).toNat

/-- The interpolated value of a trim. -/
def interpolated (s : State) (n : Nat) : Nat :=
  let t := tjClamped s
  let i := min (t / 200) 3
  interpolate (setValue s i n) (setValue s (i + 1) n) t

/-- Show STORE_OK. -/
def showStoreOk (s : State) : State := wrBit s CAL_STAT 7 ((List.range 5).all (fun k => (currentCopy s k).isSome))

/-- The group of a trim (R468). -/
def trimGroup (n : Nat) : Nat :=
  if n < 192 then 0 else if n < 208 then 1 else if n < 400 then 2 else if n < 624 then 3 else if n < 625 then 4
  else if n < 653 then 5 else 6

/-- The first trim of a group and the number of its trims. -/
def groupTrims (g : Nat) : Nat × Nat :=
  match g with
  | 0 => (0, 192)
  | 1 => (192, 16)
  | 2 => (208, 192)
  | 3 => (400, 224)
  | 4 => (624, 1)
  | 5 => (625, 28)
  | _ => (653, 16)

/-- The tolerance of a trim (R468): of equaliser and bias in groups 0 and 1, of drive and Vref in groups 2 and 3. -/
def trimTolerance (n : Nat) : Nat :=
  match trimGroup n with
  | 0 => if n % 2 = 0 then 2 else 4
  | 1 => if n % 2 = 0 then 2 else 4
  | 2 => if (n - 208) % 3 = 2 then 1 else 2
  | 3 => if (n - 400) % 28 < 24 && (n - 400) % 28 % 3 = 2 then 1 else 2
  | 4 => 1
  | 5 => 1
  | _ => 2

/-- A trim. -/
def trimOf (s : State) (n : Nat) : TrimSt := s.cal.trims.getD n TrimSt.reset

/-- Change the calibration state. -/
def modCal (s : State) (f : CalSt → CalSt) : State := { s with cal := f s.cal }

/-- Change a trim. -/
def modTrim (s : State) (n : Nat) (f : TrimSt → TrimSt) : State :=
  modCal s (fun c => { c with trims := c.trims.modify n f })

/-- The clusters whose monitor's trim takes effect at once: those that serve no channel (R473). -/
def freeMonitors (s : State) : List Nat := (List.range 16).filter (fun c => !rdBit s (CL_STAT c) 4)

/-- The pending values that need no boundary take effect: the oscillator's while the reference is in use, the monitors' of
clusters that serve no channel (R473). -/
def takeFreeTrims (s : State) : State :=
  let s := if refInUse s then takeTrims s 624 1 else s
  forEach (freeMonitors s) s (fun c s => takeTrims s (653 + c) 1)

/-! ### TRIM_INTERPOLATION (R470, R473) -/

/-- An interpolated value waits for its boundary; one equal to the value in force leaves nothing waiting. -/
def offerTrim (v : BitVec 10) (t : TrimSt) : TrimSt :=
  if t.heldAt.isSome then t else { t with pend := if v = t.cur then none else some v }

/-- Compute the interpolated value of every trim. -/
def interpolateAll (s : State) : State :=
  let s := showStoreOk s
  let s := modCal s (fun c => { c with
    trims := c.trims.mapIdx (fun n t => offerTrim (BitVec.ofNat 10 (interpolated s n)) t)
    lastInterp := some s.raw })
  takeFreeTrims s

/-- TRIM_INTERPOLATION: once a second. -/
def execTrimInterpolation (s : State) : Host.Outcome State Fault Refusal :=
  act true s (fun s => if passed s s.cal.lastInterp (secTicks 1) then interpolateAll s else s)

/-! ### Running calibrations (R474, R476) -/

/-- Whether a group calibrates. -/
def groupRuns (s : State) (g : Nat) : Bool := rdBit s CAL_STAT g

/-- The trim in hand of a running group. -/
def groupTurn (s : State) (g : Nat) : Nat := (mget s.cal.turn g).getD (groupTrims g).1

/-- Show which sensor or monitor is being calibrated, with TJ_STALE (R476). -/
def showSensorStale (s : State) : State :=
  let t := groupTurn s 5
  let on5 := groupRuns s 5
  let on6 := groupRuns s 6
  let s := forEach (List.range 20) s (fun n s => wrBit s (CAL_TS n) 12 (on5 && t == 625 + n))
  let s := forEach (List.range 8) s (fun n s => wrBit s (CAL_VS n) 12 (on5 && t == 645 + n))
  let s := forEach (List.range 16) s (fun c s => wrBit s (CAL_SPD c) 16 (on6 && groupTurn s 6 == 653 + c))
  wrBit s CAL_STAT 8 (on5 && t < 645)

/-- A group is asked to calibrate: it starts with its first trim, or a running group remembers the request once (R474). -/
def startGroup (s : State) (g : Nat) : State :=
  if groupRuns s g then modCal s (fun c => { c with again := c.again ||| BitVec.ofNat 7 (2 ^ g) })
  else
    let s := wrBit s CAL_STAT g true
    showSensorStale (modCal s (fun c => { c with turn := mput c.turn g (groupTrims g).1 }))

/-- The trim in hand of a running group is done: the next comes, or the group finishes and runs again where a request was
remembered. -/
def nextTrim (s : State) (g : Nat) : State :=
  let t := groupTurn s g
  let last := (groupTrims g).1 + (groupTrims g).2 - 1
  if t < last then showSensorStale (modCal s (fun c => { c with turn := mput c.turn g (t + 1) }))
  else
    let again := s.cal.again.getLsbD g
    let s := wrBit s CAL_STAT g false
    let s := modCal s (fun c => { c with again := c.again &&& ~~~(BitVec.ofNat 7 (2 ^ g)) })
    if again then startGroup s g else showSensorStale s

/-- A write of CAL_CMD (R474): bits 4 to 6 request groups 4 to 6; bits 0 to 3 are ignored. -/
def calCommand (s : State) (v : Word) : State :=
  forEach [4, 5, 6] s (fun g s => if tbit v g then startGroup s g else s)

/-- CAL_CMD. -/
def execCalCmd (v : Word) (s : State) : Host.Outcome State Fault Refusal := act true s (fun s => calCommand s v)

/-- CAL_CTL.PERIOD in seconds (R482). -/
def calPeriod (s : State) : Nat := max 10 (rdFld s CAL_CTL 31 16)

/-- CAL_PERIODIC: groups 4 to 6 calibrate every PERIOD seconds while PERIODIC_EN is set. -/
def execCalPeriodic (s : State) : Host.Outcome State Fault Refusal :=
  act true s (fun s =>
    if rdBit s CAL_CTL 0 && passed s s.cal.lastRun (secTicks (calPeriod s)) then
      forEach [4, 5, 6] (modCal s (fun c => { c with lastRun := some s.raw })) (fun g s => startGroup s g)
    else s)

/-! ### CALIBRATION_RESULT (R471, R472) -/

/-- The sets a junction temperature lies within 2.5 °C of (R472). -/
def nearSets (t : Int) : List Nat := (List.range 5).filter (fun k => (t - 200 * k).natAbs ≤ 20)

/-- The bytes of a set's copy with one trim changed, the next GEN and its CRC. -/
def newCopy (s : State) (b n r : Nat) (gen : Word) : List Byte :=
  let old := storeBytes s b 0xFF8
  withCrc (old.take (2 * n) ++ leBytes 2 r ++ old.drop (2 * n + 2) ++ wordBytes gen)

/-- Write an accepted value into a set: the whole copy that is not current, with GEN + 1. A write that fails twice leaves bytes of
its own in that copy (log entry 6). -/
def writeSet (s : State) (k n r : Nat) (storeOk : Bool) : State :=
  let cur := currentCopy s k
  let from_ := setBase k (cur.getD true)
  let to_ := setBase k (!(cur.getD true))
  if storeOk then
    showStoreOk { s with nv := putBytes s.nv to_ (newCopy s from_ n r (copyGen s from_ + 1)) }
  else
    let (x, s) := takeFree s
    let s := { s with nv := putBytes s.nv to_ (freeBytes x 0x1000) }
    showStoreOk (setEvt (count s CAL_STORE_FAIL) CAL_EVT 15)

/-- An accepted value: pending and HELD, stored where Tj is near a set, counted and stamped (R472). -/
def acceptTrim (s : State) (n r : Nat) (storeOk : Bool) : State :=
  let g := trimGroup n
  let t := tjNow s
  let s := modTrim s n (fun x => { x with pend := some (BitVec.ofNat 10 r), heldAt := some t })
  let s := forEach (nearSets t) s (fun k s => writeSet s k n r storeOk)
  let s := count s (CAL_CNT g)
  let s := wrRaw s (CAL_LAST_TIME_LO g) (CAL_LAST_TIME_HI g) s.raw
  let s := modCal s (fun c => { c with lastTemp := mput c.lastTemp g t })
  takeFreeTrims (setEvt s CAL_EVT g)

/-- The results of a calibration of a trim are judged. -/
def judgeTrim (s : State) (n a b c d : Nat) (storeOk : Bool) : State :=
  let g := trimGroup n
  let r := acceptRule (trimTolerance n) a b c d
  let s := onlyIf r.2 s (fun s => count s (CAL_RETRY_CNT g))
  match r.1 with
  | some v => acceptTrim s n v storeOk
  | none => setEvt (count s (CAL_REJ_CNT g)) CAL_EVT (8 + g)

/-- The controller that trains a trim of group 2 or 3 (R468). -/
def trimOx (n : Nat) : Nat := if n < 400 then (n - 208) / 96 else (n - 400) / 28 + 2

/-- The results of training of a trim of group 2 or 3 that wait: their pair, and the retry pair where there was one (R348, R471). -/
def offerOf (s : State) (n : Nat) : Option (Nat × Nat × Nat × Nat) :=
  match mget (oxOf s (trimOx n)).offers n with
  | some [a, b] => some (a, b, a, b)
  | some [a, b, c, d] => some (a, b, c, d)
  | _ => none

/-- CALIBRATION_RESULT: the pair `a`, `b` of a trim, with the retry pair `c`, `d` where they disagree. Groups 4 to 6 take their trims
in turn while they run, group 4 only while the reference is in use; groups 0 and 1 bring the results of their training; those of groups
2 and 3 are the ones that the sweeps of their target left (R348, R474). -/
def execCalibrationResult (trim : Nat) (a b c d : BitVec 10) (storeOk : Bool) (s : State) : Host.Outcome State Fault Refusal :=
  actStore (trim < 669) s (fun s =>
    let (a, b, c, d) := (a.toNat, b.toNat, c.toNat, d.toNat)
    let g := trimGroup trim
    if g < 2 then judgeTrim s trim a b c d storeOk
    else if g < 4 then
      match offerOf s trim with
      | none => s
      | some (a, b, c, d) =>
        judgeTrim (modOx s (trimOx trim) (fun o => { o with offers := mdel o.offers trim })) trim a b c d storeOk
    else if groupRuns s g && groupTurn s g = trim && (g ≠ 4 || refInUse s) then nextTrim (judgeTrim s trim a b c d storeOk) g
    else s)

/-! ### Core voltage (R478, R479) -/

/-- AVS_STAT.VREQ. -/
def vreq (s : State) : Nat := rdFld s CAL_AVS_STAT 9 0
/-- THERM_CTL.WARN. -/
def warnAt (s : State) : Int := rdFld s CAL_THERM_CTL 9 0

/-- An AVSBus transaction ends; a short of the bus fails it (R479, R493). -/
def avsTransaction (s : State) (ok : Bool) : State :=
  modCal s (fun c => { c with avsFails := if ok && !rdBit s GLB_PIN_STAT 10 then 0 else c.avsFails + 1 })

/-- Whether the read-back or a VDDC sensor differs from the request by more than 15 mV (R479). -/
def avsDiffers (s : State) : Bool :=
  let far (v : Nat) : Bool := v + 15 < vreq s || vreq s + 15 < v
  (s.cal.lastRead.isSome && far s.cal.vread) ||
    (s.cal.lastConv.isSome && (List.range 4).any (fun n => far (rdFld s (CAL_VS n) 10 0)))

/-- Judge the fault conditions: 10 ms of difference or three failures in a row set FAULT; 100 ms without either clears it (R479). -/
def judgeAvs (s : State) : State :=
  let since : Option Raw := if avsDiffers s then some (s.cal.badSince.getD s.raw) else none
  let s := modCal s (fun c => { c with badSince := since })
  let bad : Bool := 3 ≤ s.cal.avsFails || (match s.cal.badSince with
    | none => false
    | some t => ticksSince s t (msTicks 10))
  if bad then
    let s := modCal s (fun c => { c with lastBad := some s.raw })
    if rdBit s CAL_AVS_STAT 26 then s else setEvt (wrBit s CAL_AVS_STAT 26 true) CAL_PWR_EVT 2
  else if rdBit s CAL_AVS_STAT 26 && passed s s.cal.lastBad (msTicks 100) then wrBit s CAL_AVS_STAT 26 false
  else s

/-- The voltage the procedure asks for: `m` is the least speed, none where no cluster is in service (R478). -/
def avsNext (adapt : Bool) (tj warn : Int) (m : Option Nat) (tgt v : Nat) : Nat :=
  if !adapt then 750
  else
    let w : Nat := if warn ≤ tj then v - 5
      else match m with
        | none => v
        | some m => if m < tgt then v + 5 else if tgt + 205 < m then v - 5 else v
    max 700 (min w 850)

/-- The least speed over the clusters in service, with its cluster (R478). -/
def leastSpeed (s : State) : Option (Nat × Nat) :=
  (((List.range 16).filter (fun c => rdBit s (CL_STAT c) 5)).map (fun c => (rdFld s (CAL_SPD c) 15 0, c))).foldl
    (fun best x => match best with
      | none => some x
      | some b => if x.1 < b.1 then some x else some b) none

/-- AVS_DECISION: once a millisecond the monitors are read, but for one being calibrated, and the request is decided; while FAULT
is set the last request is held. -/
def execAvsDecision (spd : Vector (BitVec 16) 16) (s : State) : Host.Outcome State Fault Refusal :=
  act true s (fun s =>
    if passed s s.cal.lastAvs (msTicks 1) then
      let s := modCal s (fun c => { c with lastAvs := some s.raw })
      let s := forEach (List.range 16) s (fun c s => if rdBit s (CAL_SPD c) 16 then s else wrFld s (CAL_SPD c) 15 0 (spd.toList.getD c 0).toNat)
      let m := leastSpeed s
      let s := forSome m s (fun m s => wr s CAL_SPD_MIN (mkWord [(15, 0, m.1), (19, 16, m.2)]))
      if rdBit s CAL_AVS_STAT 26 then s
      else
        let v := avsNext (rdBit s CAL_AVS_CTL 0) (tjNow s) (warnAt s) (m.map (fun x => x.1)) (rdFld s CAL_AVS_CTL 31 16) (vreq s)
        if v = vreq s then s
        else judgeAvs (avsTransaction (emit (wrFld s CAL_AVS_STAT 9 0 v) (.avsTarget v)) true)
    else s)

/-- What the 10 bits of AVS_STAT.VREAD show of a voltage: itself, and where it does not fit them a free value (log entry 6). -/
def vreadShown (s : State) (mv : Nat) : Nat := if mv < 1024 then mv else Config.freeNat s.free 0 % 1024

/-- AVS_READBACK: every 10 ms the regulator's voltage is read; none is a failed transaction. -/
def execAvsReadback (mv : Option Nat) (s : State) : Host.Outcome State Fault Refusal :=
  act true s (fun s =>
    if passed s s.cal.lastRead (msTicks 10) then
      let ok := mv.isSome && !rdBit s GLB_PIN_STAT 10
      let v := mv.getD 0
      let s := if ok then
          modCal { wrFld s CAL_AVS_STAT 25 16 (vreadShown s v) with free := s.free + 1 } (fun c => { c with lastRead := some s.raw, vread := v })
        else s
      judgeAvs (avsTransaction s ok)
    else s)

/-! ### SENSOR_CONVERSION (R475 to R477, R484, R487) -/

/-- The thermal and shutdown entries of the ledger have a kind and a unit the manual does not number (log entry 6). -/
def thermalEntry (s : State) : State :=
  let (x, s) := takeFree s
  enter s (Config.freeNat x 0) (Config.freeNat x 1) [] false s.raw (Config.freeWord x 0)

/-- The sensors that are not being calibrated show their readings, Tj the greatest (R475, R476). -/
def readSensors (s : State) (ts : List Int) (vs : List Nat) : State :=
  let s := forEach (List.range 20) s (fun n s =>
    if rdBit s (CAL_TS n) 12 then s
    else wrFld s (CAL_TS n) 11 0 (BitVec.ofInt 12 (max (-320) (min (ts.getD n 0) 1200))).toNat)
  let s := forEach (List.range 8) s (fun n s => if rdBit s (CAL_VS n) 12 then s else wrFld s (CAL_VS n) 10 0 (min 2047 (vs.getD n 0)))
  let t := (List.range 20).foldl (fun (m : Int) n => max m (BitVec.ofNat 12 (rdFld s (CAL_TS n) 11 0)).toInt) (-2048)
  wrFld s CAL_TJ 11 0 (BitVec.ofInt 12 t).toNat

/-- A trim is HELD until Tj has moved 5 °C from its calibration (R472). -/
def releaseHeld (s : State) : State :=
  modCal s (fun c => { c with trims := c.trims.map (fun t =>
    match t.heldAt with
    | none => t
    | some a => if 40 ≤ (tjNow s - a).natAbs then { t with heldAt := none } else t) })

/-- A group calibrates again when Tj comes to lie TEMP_DELTA or more from its last acceptance (R474). -/
def tempTrigger (s : State) (old : Int) : State :=
  let d : Nat := 8 * max 1 (rdFld s CAL_CTL 15 8)
  forEach [4, 5, 6] s (fun g s =>
    match mget s.cal.lastTemp g with
    | none => s
    | some t => if d ≤ (tjNow s - t).natAbs && (old - t).natAbs < d then startGroup s g else s)

/-- The limits Tj and the VDDC sensors reach (R477, R479). -/
def thermalLimits (s : State) (old : Int) : State :=
  let t := tjNow s
  let s := onlyIf (decide (warnAt s ≤ t)) s (fun s => setEvt s CAL_PWR_EVT 0)
  let s := onlyIf (decide (800 ≤ t)) s (fun s => setEvt s CAL_PWR_EVT 1)
  let s := onlyIf (decide (800 ≤ t) && decide (old < 800)) s thermalEntry
  let out := (List.range 4).any (fun n => rdFld s (CAL_VS n) 10 0 < 680 || 870 < rdFld s (CAL_VS n) 10 0)
  onlyIf out s (fun s => setEvt s CAL_PWR_EVT 3)

/-- VDDQ below its limit drives every DDR_RST_N low, and each DDR-5 channel that is not ABSENT, UNSUPPORTED or FAILED fails (R484,
R503). -/
def vddqLow (s : State) : State :=
  let s := { s with pins := { s.pins with ddrRst := false } }
  let live (s : State) (i : Nat) : Bool := [1, 2, 3].contains (oxState s i)
  choosePair (forEach [2, 3, 4, 5, 6, 7, 8, 9] s (fun i s => if live s i then failDdr s i 0 else s))

/-- The first conversion after t0: the trims take the interpolated values at once (R487, step 2). -/
def firstTrims (s : State) : State :=
  let s := interpolateAll s
  takeTrims s 0 669

/-- DDR_RST_N is released and training begins, with the calibration of groups 5 and 6 (R484, R487, step 3). -/
def releaseDdr (s : State) : State :=
  let s := setStage { s with pins := { s.pins with ddrRst := true } } 2
  startGroup (startGroup s 5) 6

/-- SENSOR_CONVERSION: every 100 µs; the sensors' offsets take effect at its start (R473). -/
def execSensorConversion (ts : Vector Int 20) (vs : Vector Nat 8) (s : State) : Host.Outcome State Fault Refusal :=
  act true s (fun s =>
    if passed s s.cal.lastConv (usTicks 100) then
      let first := s.cal.lastConv.isNone
      let old := tjNow s
      let s := takeTrims s 625 28
      let s := readSensors (modCal s (fun c => { c with lastConv := some s.raw })) ts.toList vs.toList
      let s := if first then firstTrims s else s
      let s := releaseHeld s
      let s := judgeAvs (thermalLimits (tempTrigger s old) old)
      let vddq := rdFld s (CAL_VS 5) 10 0
      if vddq < 1067 then (if s.pins.ddrRst then vddqLow s else s)
      else if rdFld s GLB_STAT 2 0 = 1 then releaseDdr s
      else s
    else s)

end Sys2Proof.Machine
end

