-- ==== Sys2Proof/Machine/Pair.lean ====
section
/-!
DEFINITION. A pair of devices: control of BW_HOLD, the Mule link, running in step, takeover and joining
(spec/17_pairing.md).
-/
namespace Sys2Proof.Machine

/-! ### The link (R437, R439, R466) -/

/-- RESET_LINK takes the link down; R464 gives a host's reset no cause, so the entry's DATA is free (log entry 6). -/
def resetLinkNow (s : State) : State :=
  let (x, s) := takeFree s
  muleDown s (Config.freeWord x 0)

/-- Whether the four Mule lanes are locked and deskewed: each by the rule of lanes without FEC, with a lane marker found (R321, R437). -/
def muleAligned (lanes : List LaneRx) : Bool := lanes.length = 4 && lanes.all (fun x => headerLock x.headers && x.markers.contains .found)

/-- The lanes have locked, their inversion corrected (R322), and the first message leaves on them. -/
def alignLanes (s : State) (lanes : List LaneRx) : State :=
  let s := forEach lanes.zipIdx s (fun x s =>
    wrBit (wrBit (wrBit s (MULE_ML_STAT x.2) 0 true) (MULE_ML_STAT x.2) 1 true) (MULE_ML_STAT x.2) 2 (typesInverted x.1.types))
  let q := s.pair.txSeq
  sendBringUp (modPair s (fun p => { p with aligned := true, firstTx := some q })) 0x01 []

/-- MULE_LINK_UP: the lanes of a paired device lock and deskew, none of them with LOS, and each side sends an IDLE; `h` is the peer's, where
it has arrived. The link is up once a valid message has arrived each way, which the peer's RX_SEQ shows of this device's (R437; log
entry 53). -/
def execMuleLinkUp (lanes : List LaneRx) (h : Option MuleHdr) (s : State) : Host.Outcome State Fault Refusal :=
  act true s (fun s =>
    if isPaired s && !linkUp s && s.pair.restartAt.isNone && s.pair.los.isEmpty && muleAligned lanes then
      let s := onlyIf (!s.pair.aligned) s (fun s => alignLanes s lanes)
      forSome h s (fun h s => onMessage s 0x01 0xFF h [] id)
    else s)

/-- MULE_LINK_TIMEOUT. -/
def execMuleLinkTimeout (s : State) : Host.Outcome State Fault Refusal :=
  act true s (fun s => if linkUp s && passed s s.pair.lastRx (usTicks 100) then muleDown s 1 else s)

/-- MULE_BRINGUP_RESTART: the lanes hunt again, with the trims that waited for bring-up (R437, R473). -/
def execMuleBringupRestart (s : State) : Host.Outcome State Fault Refusal :=
  act true s (fun s =>
    match s.pair.restartAt with
    | none => s
    | some t =>
      if !linkUp s && hasCome s t then
        let s := forEach (List.range 4) s (fun m s => wrBit (wrBit s (MULE_ML_STAT m) 1 false) (MULE_ML_STAT m) 2 false)
        takeTrims (modPair s (fun p => { p with restartAt := none })) 192 16
      else s)

/-- MULE_MESSAGE_CORRUPT: the message is fed to CK[7], whose result differs from its check value; the bytes received are open.
A message after it that is being discarded is not fed. It is one event of class 4, or two when the corruption falls in its ALIVE byte
(R427, R438, R439). -/
def execMuleMessageCorrupt (type : Byte) (s : State) : Host.Outcome State Fault Refusal :=
  act true s (fun s =>
    if !isPaired s || !linkUp s || s.pair.skipping then s
    else
      let (x, s) := takeFree s
      let bs := freeBytes x 28
      let s := reportFault s 4 0 (wordOf type.toNat)
      let s := onlyIf (aliveJudge (ckOpen s 7) 7 (Config.freeByte x 28).toNat != 0) s (fun s => reportFault s 4 0 (wordOf type.toNat))
      let s := ckMessage s 7 bs (~~~(crc32c bs)) (Config.freeByte x 28)
      sendNak (modPair (setEvt s MULE_EVT 7) (fun p => { p with skipping := true })))

/-- IDLE. -/
def execIdle (h : MuleHdr) (s : State) : Host.Outcome State Fault Refusal := act true s (fun s => onMessage s 0x01 0xFF h [] id)

/-- IDLE_SEND: nothing has been sent for 10 µs. -/
def execIdleSend (s : State) : Host.Outcome State Fault Refusal :=
  act true s (fun s => if passed s s.pair.lastTx (usTicks 10) then sendBringUp s 0x01 [] else s)

/-- Retransmit from a message on, with new alive values; one no longer held resets the link (R439). -/
def retransmit (s : State) (from_ : Word) : State :=
  if from_ = s.pair.txSeq then s
  else if s.pair.store.any (fun m => m.lseq = from_) then
    forEach (s.pair.store.filter (fun m => 0 ≤ sdiff m.lseq from_)) s (fun m s => count (transmit s m) MULE_REPLAY_CNT)
  else muleDown s 3

/-- NAK. -/
def execNak (h : MuleHdr) (expected : Word) (s : State) : Host.Outcome State Fault Refusal :=
  act true s (fun s => onMessage s 0x02 0xFF h (wordBytes expected ++ zeros 4) (fun s => retransmit s expected))

/-- TEST. -/
def execTest (h : MuleHdr) (pattern : List Byte) (s : State) : Host.Outcome State Fault Refusal :=
  act true s (fun s => onMessage s 0x03 0xFF h pattern id)

/-! ### HEALTH (R458) -/

/-- HEALTH: shown in HR_LAST; the peer's eligible channels and its drive of the net are taken, deferred causes tested again. -/
def execHealth (h : MuleHdr) (b : HealthBody) (s : State) : Host.Outcome State Fault Refusal :=
  act true s (fun s => onMessage s 0x30 0xFF h ((b.words.map wordBytes).flatten) (fun s =>
    let s := wrWords (bump s GOOSE_HR_RX) GOOSE_HR_LAST 0 (b.words.take 16)
    let w := b.words.getD 0 0
    let s := wrFld s MULE_ELIG 31 16 (fld w 31 16)
    let s := showHold (modPair s (fun p => { p with lastHealthRx := some s.raw, peerDriving := tbit w 8 }))
    retestGiveUp (showStale s)))

/-- HEALTH_SEND: every 100 ms. -/
def execHealthSend (s : State) : Host.Outcome State Fault Refusal :=
  act true s (fun s => if isPaired s && passed s s.pair.lastHealthTx (msTicks 100) then sendHealth s else s)

/-- HEALTH_MISS: none for 250 ms. -/
def execHealthMiss (s : State) : Host.Outcome State Fault Refusal :=
  act true s (fun s =>
    if isPaired s && passed s s.pair.lastHealthRx (msTicks 250) then
      modPair (setEvt (count s GOOSE_HR_MISS) GOOSE_ST_EVT 2) (fun p => { p with lastHealthRx := some s.raw })
    else s)

/-- EYE_MEASURE: (lane, horizontal, vertical); lanes from 48 on are the Mule's. A lane of a port that is not UP is not measured
(R457). -/
def execEyeMeasure (margins : List (Nat × Nat × Nat)) (s : State) : Host.Outcome State Fault Refusal :=
  act true s (fun s =>
    if rdBit s GOOSE_ST_CTL 0 && passed s s.pair.lastEye (secTicks (max 1 (rdFld s GOOSE_ST_CTL 31 16))) then
      let up (l : Nat) : Bool :=
        if l < 48 then
          rdFld s (LN_STAT l) 10 5 < 24 && rdFld s (P_PORT_STATE (rdFld s (LN_STAT l) 10 5)) 2 0 = 5
        else l < 52
      let ms := margins.filter (fun m => up m.1)
      let s := forEach ms s (fun m s =>
        let s := if m.1 < 48 then wr s (LN_EYE_MARGIN m.1) (mkWord [(7, 0, m.2.1), (15, 8, m.2.2)])
          else modPair s (fun p => { p with muleEyes := mput p.muleEyes (m.1 - 48) m.2 })
        if m.2.1 < rdFld s GOOSE_EYE_MIN 7 0 || m.2.2 < rdFld s GOOSE_EYE_MIN 15 8 then
          setEvt (count s GOOSE_EYE_LOW_CNT) GOOSE_ST_EVT 1
        else s)
      let least := ms.foldl (fun (a : Nat × Nat) m => (min a.1 m.2.1, min a.2 m.2.2)) (255, 255)
      modPair s (fun p => { p with lastEye := some s.raw, eyeLeast := if ms.isEmpty then p.eyeLeast else least })
    else s)

/-! ### GOVERNOR_DECISION and the token (R441, R442) -/

/-- An IDR that a join forced or awaited is the join's frame (R459, R463). -/
def noteJoin (s : State) (n j : Nat) : State :=
  match frameAt s n j with
  | none => s
  | some f =>
    if role s = 1 && (f.joinIdr || ((chan s n).joinWait && f.idr && (chan s n).pend.isNone)) then
      sendFull (modChan s n (fun c => { c with joinFrame := some f.k, joinWait := false })) n
    else s

/-- GOVERNOR_DECISION: acts at G_k on the oldest undecided frame, whose input has closed by then, its field complete or late; a standby
takes its decisions from the token (R81, R85, R86, R90, R117, R441, R442). -/
def execGovernorDecision (n : Nat) (s : State) : Host.Outcome State Fault Refusal :=
  act (n < 16) s (fun s =>
    match oldest s n (fun f => !f.decided) with
    | none => s
    | some f =>
      if role s ≠ 2 && !(chan s n).dead && reached s f.gov && (fieldNow s n f).isSome then
        noteJoin (sendToken (decideOwn s n f) n f.j) n f.j
      else s)

/-- A TOKEN body as bytes. -/
def tokenBodyBytes (b : TokenBody) : List Byte :=
  leBytes 8 b.frame ++ leBytes 4 b.rwfGen ++ wordBytes b.setCrc ++ wordBytes b.cmdFirst ++ leBytes 2 b.cmdCount ++ zeros 2 ++
    wordBytes b.cmdCrc ++ leBytes 4 b.gopPos ++ leBytes 1 (b2n b.idr + 2 * b2n b.forced) ++ leBytes 1 b.effort.length ++ zeros 6 ++
    padUp 8 ((b.effort.map (fun e => leBytes 1 (e % 8))).flatten)

/-- The `GOV_*` registers of a standby show the values of the token (R91). R441's token carries the levels and none of these four, so
what they show is free (log entry 62). -/
def showToken (s : State) (n : Nat) : State :=
  let (x, s) := takeFree s
  let s := wr (wr s (CH_GOV_SPEED n) (Config.freeWord x 0)) (CH_GOV_CAP n) (Config.freeWord x 1)
  wr (wr s (CH_GOV_PRED n) (Config.freeWord x 2)) (CH_GOV_BUSY n) (Config.freeWord x 3)

/-- A standby codes a frame with the levels and the IDR decision of its token (R442, R448). -/
def applyToken (s : State) (n : Nat) (f : FrameSt) (b : TokenBody) : State :=
  let same := f.rwfGen.toNat = b.rwfGen && setCrc f n = b.setCrc && f.cmdFirst = b.cmdFirst && f.cmdCount = b.cmdCount &&
    f.cmdCrc = b.cmdCrc
  let ids := (f.plan.rends.foldl (fun m r => mput m r.id ()) ([] : List (Nat × Unit))).map (fun e => e.1)
  let es := ids.zip b.effort
  let c := chan s n
  let join := b.forced || (c.joinWait && b.idr)
  let s := showToken s n
  let s := applyDecision s n f es c.s c.s b.idr b.gopPos false join
  onlyIf (!same) s (fun s => diverge s n 0x4)

/-- TOKEN: applied to its frame, or kept until the frame's boundary; a frame already decided takes none. -/
def execToken (h : MuleHdr) (n : Nat) (b : TokenBody) (s : State) : Host.Outcome State Fault Refusal :=
  act (n < 16) s (fun s => onMessage s 0x10 (BitVec.ofNat 8 n) h (tokenBodyBytes b) (fun s =>
    if role s = 2 then
      match (chan s n).frames.find? (fun f => f.k = b.frame && !f.decided) with
      | some f => applyToken s n f b
      | none =>
        if (chan s n).frames.any (fun f => f.k = b.frame) then s
        else modChan s n (fun c => { c with tokens := (c.tokens ++ [b]).drop ((c.tokens ++ [b]).length - 8) })
    else s))

/-- TOKEN_TIMEOUT: at S_k + 0.1 × Tf a standby decides the frame itself (R442). -/
def execTokenTimeout (n : Nat) (s : State) : Host.Outcome State Fault Refusal :=
  act (n < 16) s (fun s =>
    match oldest s n (fun f => !f.decided) with
    | none => s
    | some f =>
      let at_ : Int := f.start + ((f.grid.num / (10 * max 1 f.grid.den) : Nat) : Int)
      if role s = 2 && !(chan s n).dead && reached s at_ then
        diverge (count (decideOwn s n f) MULE_TOKEN_LATE) n 0x2
      else s)

/-! ### RESCUE, STATE (R443, R446, R447) -/

/-- RESCUE: a notice for a frame that waits is applied; one before the frame's own rescue instant is kept. -/
def execRescue (h : MuleHdr) (n frame : Nat) (rows : List Nat) (s : State) : Host.Outcome State Fault Refusal :=
  let body := leBytes 8 frame ++ leBytes 1 rows.length ++ zeros 7 ++ padUp 8 ((rows.map (leBytes 2)).flatten)
  act (n < 16) s (fun s => onMessage s 0x11 (BitVec.ofNat 8 n) h body (fun s =>
    if role s = 2 then
      match (chan s n).frames.find? (fun f => f.k = frame && f.rescueHeld) with
      | some f => applyNotice s n f rows
      | none => modChan s n (fun c => { c with
          notices := (c.notices ++ [(frame, rows)]).drop ((c.notices ++ [(frame, rows)]).length - 8) })
    else s))

/-- RESCUE_NOTICE_TIMEOUT: a notice absent at T_k: every row is none, and the channel diverges. -/
def execRescueNoticeTimeout (n : Nat) (s : State) : Host.Outcome State Fault Refusal :=
  act (n < 16) s (fun s =>
    match oldest s n (fun f => f.rescueHeld) with
    | none => s
    | some f =>
      if role s = 2 && reached s f.deadline then
        diverge (applyNotice s n f (f.rends.map (fun _ => 0xFFFF))) n 0x3
      else s)

/-- STATE: compared now where the standby has the frame's results, else kept until it has. -/
def execState (h : MuleHdr) (n : Nat) (b : StateBody) (s : State) : Host.Outcome State Fault Refusal :=
  act (n < 16) s (fun s => onMessage s 0x12 (BitVec.ofNat 8 n) h (stateBytes b) (fun s =>
    if role s = 2 then
      match (chan s n).frames.find? (fun f => f.k = b.frame) with
      | none => s
      | some f =>
        let s := modFrame s n f.j (fun f => { f with stateSeen := true })
        if f.complete then compareState s n f b
        else modChan s n (fun c => { c with states := c.states ++ [(b.frame, b)] })
    else s))

/-- STATE_TIMEOUT: no STATE by T_k + Tf; a join that waits on the frame ends. -/
def execStateTimeout (n : Nat) (s : State) : Host.Outcome State Fault Refusal :=
  act (n < 16) s (fun s =>
    match oldest s n (fun f => f.started && !f.stateSeen) with
    | none => s
    | some f =>
      if role s = 2 && reached s (gAt f.grid (f.j + f.plan.delay + 1) + 1100000) then
        let s := modFrame s n f.j (fun f => { f with stateSeen := true, joinIdr := false })
        diverge (modChan s n (fun c => { c with joinWait := false, joinFrame := if c.joinFrame = some f.k then none else c.joinFrame }))
          n 0x6
      else s)

/-! ### ACK, AUDIO (R444, R449, R451) -/

/-- The datagrams of a unit that leave before a datagram of another (R279, R451). -/
def leftBefore (u t : RetUnit) (d : Nat) : Nat :=
  if u.seq = t.seq then min u.count (d + 1)
  else ((List.range u.count).filter (fun k =>
    u.at k < t.at d || (u.at k = t.at d && (u.frame.isSome && t.frame.isNone || (u.frame.isSome == t.frame.isSome && u.seq < t.seq))))).length

/-- A standby marks a datagram and every earlier one of its stream launched (R451). -/
def markLaunched (s : State) (e : Nat × Nat × Nat) : State :=
  match streamOf s e.1 with
  | none => s
  | some st =>
    let s := modStream s e.1 (fun x => { x with lastAck := some (e.2.2, e.2.1) })
    match st.held.find? (fun u => u.seq = e.2.2) with
    | none => s
    | some t =>
      let upTo (u : RetUnit) : Nat := max u.sent (leftBefore u t e.2.1)
      let moved := st.held.foldl (fun a u => a + (upTo u - u.sent)) 0
      let out := match (st.held.filter (fun u => u.fresh && u.sent = 0 && 0 < upTo u)).getLast? with
        | some n => n.seq0 + BitVec.ofNat 16 ((st.held.filter (fun u => n.seq ≤ u.seq)).foldl (fun a u => a + (upTo u - u.sent)) 0)
        | none => st.outSeq + BitVec.ofNat 16 moved
      let s := modStream s e.1 (fun x => { x with
        held := x.held.map (fun u => { u with sent := upTo u, acked := upTo u })
        outSeq := if formRtp t.form then out else x.outSeq })
      forEach st.held s (fun u s => match u.frame with
        | some (j, _) => if 0 < upTo u then modPic s (e.1 / 64) j (e.1 % 64) (fun p => { p with launched := true }) else s
        | none => s)

/-- ACK. -/
def execAck (h : MuleHdr) (entries : List (Nat × Nat × Nat)) (s : State) : Host.Outcome State Fault Refusal :=
  act true s (fun s => onMessage s 0x20 0xFF h (ackBody entries) (fun s =>
    if role s = 2 then forEach entries s (fun e s => markLaunched s e) else s))

/-- ACK_SEND: each 1 µs in which a live datagram has left. -/
def execAckSend (s : State) : Host.Outcome State Fault Refusal :=
  act true s (fun s => if role s = 1 && passed s s.pair.lastAck (usTicks 1) then sendAck s else s)

/-- The samples of an AUDIO message with the channels that are not enabled as zeros. -/
def spread (mask : BitVec 16) (x : AudioFrame) : AudioFrame :=
  let cs := (List.range 16).filter (fun c => mask.getLsbD c)
  (List.range 16).map (fun c => if mask.getLsbD c then x.getD (cs.idxOf c) 0 else 0)

/-- A received block, with the mutes of the standby's own block where it has one. -/
def receivedBlock (s : State) (p b : Nat) (mask : BitVec 16) (xs : List AudioFrame) : AudioBlock :=
  let n := apChans s p
  let own := ((apOf s p).shadows.find? (fun x => x.1 = b)).map (fun x => x.2.map (fun y => y.2))
  (b, ((xs.map (fun x => (spread mask x).take n)).zipIdx).map (fun x => (x.1, (own.getD []).getD x.2 0)))

/-- A block of the Bellwether is used in place of the standby's own and compared with it (R260, R444). -/
def takeAudio (s : State) (ap : Nat) (mask : BitVec 16) (b : Nat) (samples : List (List (BitVec 24))) : State :=
  if role s = 2 && apAssigned s ap && !(apOf s ap).blocks.any (fun x => x.1 = b) then
    let blk := receivedBlock s ap b mask samples
    let s := usePortBlock s ap blk
    match (apOf s ap).shadows.find? (fun x => x.1 = b) with
    | some own => compareShadow s ap b mask (blockSamples own) (blockSamples blk)
    | none => modAp s ap (fun a => { a with early := (a.early ++ [blk]).drop (a.early.length + 1 - 16) })
  else s

/-- The body of an AUDIO message (R444). -/
def audioBody (ap : Nat) (mask : BitVec 16) (b : Nat) (samples : List (List (BitVec 24))) : List Byte :=
  leBytes 1 ap ++ leBytes 1 ((List.range 16).filter (fun c => mask.getLsbD c)).length ++ leBytes 2 mask.toNat ++ zeros 4 ++ leBytes 8 b ++
    ((samples.map (fun x => (x.map (fun v => leBytes 4 v.toNat)).flatten)).flatten)

/-- AUDIO. -/
def execAudio (h : MuleHdr) (ap : Nat) (mask : BitVec 16) (b : Nat) (samples : List (List (BitVec 24))) (s : State) :
    Host.Outcome State Fault Refusal :=
  act (ap < 8) s (fun s => onMessage s 0x21 (BitVec.ofNat 8 (apChannel s ap)) h (audioBody ap mask b samples) (fun s =>
    takeAudio s ap mask b samples))

/-- AUDIO_BLOCK_TIMEOUT: a block not received by t_{b+1} + 1 ms is replaced by the shadow block (R444). -/
def execAudioBlockTimeout (p b : Nat) (s : State) : Host.Outcome State Fault Refusal :=
  act (p < 8) s (fun s =>
    let a := apOf s p
    if role s = 2 && apAssigned s p && !a.blocks.any (fun x => x.1 = b) &&
        reached s (blockTime (rdBit s (AP_CFG p) 2) (b + 1) + 1000000) then
      match a.shadows.find? (fun x => x.1 = b) with
      | none => s
      | some own => diverge (usePortBlock s p own) (apChannel s p) 0x8
    else s)

/-! ### Joining (R459 to R461) -/

/-- IMAGE_ID in force as words. -/
def ownImageId (s : State) : List Word := (List.range 4).map (fun w => rd s (IMG_CUR_ID w))

/-- The channels of a mask. -/
def maskChannels (m : BitVec 16) : List Nat := (List.range 16).filter (fun n => m.getLsbD n)

/-- Send JOIN for channels (R459). -/
def sendJoin (s : State) (chs : List Nat) : State :=
  if chs.isEmpty || !linkUp s then s
  else
    let m := chs.foldl (fun a n => a + 2 ^ n) 0
    let meas := (List.range 16).map (fun n => padTo 32 (s.img.chMeas.getD n []))
    let s := sendMule s 0x31 0xFF (leBytes 2 m ++ zeros 6 ++ ((ownImageId s).map wordBytes).flatten ++ meas.flatten)
    forEach chs s (fun n s => modChan s n (fun c => { c with joinWait := true, lastJoin := some s.raw }))

/-- AUTO_JOIN: a standby asks for its diverged channels, each at most once a second, where epoch and image agree. -/
def execAutoJoin (s : State) : Host.Outcome State Fault Refusal :=
  act true s (fun s =>
    let agree := rd s MULE_EPOCH = rd s MULE_PEER_EPOCH &&
      ownImageId s = (List.range 4).map (fun w => rd s (GOOSE_HR_LAST (w + 2)))
    if role s = 2 && rdBit s MULE_PAIR_CTL 4 && agree then
      sendJoin s ((definedChannels s).filter (fun n => divCause s n != 0 && passed s (chan s n).lastJoin (secTicks 1)))
    else s)

/-- The Bellwether accepts the channels whose image and measurement agree, and shows through ELIG those it refuses; it forces an IDR by its own IDR_REQ.SEQ, or the join awaits one
(R459, R463). -/
def acceptJoin (s : State) (b : JoinBody) : State :=
  if role s = 1 then
    let agrees (n : Nat) : Bool :=
      bytesWords (padTo 16 b.imageId) = ownImageId s && b.chMeas.getD n [] = s.img.chMeas.getD n [] && rdBit s (CH_STAT n) 0
    let asked := maskChannels b.mask
    let s := showElig (modPair s (fun p => { p with
      refused := p.refused.filter (fun n => !asked.contains n) ++ asked.filter (fun n => !agrees n) }))
    forEach (asked.filter agrees) s
      (fun n s =>
        if rdBit s MULE_PAIR_CTL 3 && (chan s n).pend.isNone then
          let s := wrFld s (CH_IDR_REQ n) 7 0 ((rdFld s (CH_IDR_REQ n) 7 0 + 1) % 256)
          modChan s n (fun c => { c with
            joinIdr := true
            dirty := if c.dirty.contains (CH_IDR_REQ n).addr then c.dirty else c.dirty ++ [(CH_IDR_REQ n).addr] })
        else modChan s n (fun c => { c with joinWait := true }))
  else s

/-- The body of a JOIN message (R459). -/
def joinBytes (b : JoinBody) : List Byte :=
  leBytes 2 b.mask.toNat ++ zeros 6 ++ padTo 16 b.imageId ++ (b.chMeas.map (padTo 32)).flatten

/-- JOIN. -/
def execJoin (h : MuleHdr) (b : JoinBody) (s : State) : Host.Outcome State Fault Refusal :=
  act true s (fun s => onMessage s 0x31 0xFF h (joinBytes b) (fun s => acceptJoin s b))

/-- The stream entry of a FULL is loaded (R460). -/
def loadStream (s : State) (x : StrState) : State :=
  let s := wr64 s (STR_UNIT_NEXT_LO x.stream) (STR_UNIT_NEXT_HI x.stream) x.unitNext
  let s := wr s (STR_SEQ_NEXT x.stream) (wordOf x.seqNext.toNat)
  modStream s x.stream (fun y =>
    let held := y.held.filter (fun u => u.seq < x.unitNext)
    { y with
      seqNext := x.seqNext
      cc := x.cc
      held := held
      outSeq := x.seqNext - BitVec.ofNat 16 (held.foldl (fun a u => a + (u.count - u.sent)) 0) })

/-- A standby takes the state of a FULL, and the epoch of its frame (R436, R460). -/
def adoptFull (s : State) (n : Nat) (b : FullBody) (epoch : Word) : State :=
  let k := (b.frame + 1) % 2 ^ 64
  let c := chan s n
  let decided := c.frames.any (fun f => f.k = k && f.decided)
  let f? := c.frames.find? (fun f => f.k = k)
  let plan := match f? with
    | some f => some f.plan
    | none => c.plan
  let slice := (f?.map (fun f => f.sliceSeq)).getD c.sliceSeq
  let rends := (plan.map (fun p => p.rends)).getD []
  let s := forEach b.rens s (fun r s =>
    match rends.find? (fun x => x.id = r.id) with
    | none => s
    | some x => putModel s n { id := r.id, codec := x.codec, dest := x.dest, slice := slice, from_ := none, b := r.cpb, b0 := r.cpb, sinceBp := some (b.gopPos + 1), e := r.vbrE
                               alphaI := r.alphaI, alphaP := r.alphaP })
  let ids := (rends.foldl (fun m r => mput m r.id ()) ([] : List (Nat × Unit))).map (fun e => e.1)
  let s := modChan s n (fun c => { c with
    s := b.govS
    cmdNext := b.cmdNext
    pos := if decided then c.pos else b.gopPos
    prevE := if decided then c.prevE else ids.zip b.efforts
    joinFrame := some k
    joinWait := false })
  let s := forEach (b.strs.filter (fun x => x.stream / 64 = n)) s (fun x s => loadStream s x)
  let s := forEach b.prgs s (fun g s => modPrg s g.1 (fun x => { x with nextAu := some g.2.1, encState := g.2.2 }))
  showElig (wrBit (count (wr s MULE_EPOCH epoch) MULE_JOIN_CNT) MULE_PAIR_STAT 5 false)

/-- FULL. -/
def execFull (h : MuleHdr) (n : Nat) (b : FullBody) (s : State) : Host.Outcome State Fault Refusal :=
  act (n < 16) s (fun s => onMessage s 0x13 (BitVec.ofNat 8 n) h (fullBytes b) (fun s =>
    if role s = 2 then adoptFull s n b h.epoch else s))

/-! ### Control of BW_HOLD (R433 to R436, R452 to R455) -/

/-- CLAIM: the device becomes Bellwether, or the command is refused (R435, R436). -/
def claimNow (s : State) : State :=
  let low := match s.pins.holdLowSince with
    | none => false
    | some t => ticksSince s t (msTicks 10)
  if isPaired s && low && !holdDrive s && (linkUp s || !rdBit s MULE_PAIR_STAT 6) then
    let old := rd s MULE_EPOCH
    let e := wordOf (max old.toNat (rd s MULE_PEER_EPOCH).toNat + 1)
    let s := modPair s (fun p => { p with refused := [] })
    let s := setDrive (wrBit (wr s MULE_EPOCH e) MULE_PAIR_STAT 5 false) true
    let s := enter s 0x0508 0 [] false s.raw e
    sendMule (showElig s) 0x33 0xFF (wordBytes old ++ zeros 4)
  else setEvt (count s MULE_CLAIM_REJ) MULE_EVT 9

/-- A write of PAIR_CMD: its bits act in order (R465). -/
def pairCommand (s : State) (v : Word) : State :=
  let s := onlyIf (tbit v 0) s claimNow
  let s := onlyIf (tbit v 1 && decide (role s = 1)) s (fun s => giveUpNow s 3 true)
  let s := onlyIf (tbit v 2 && decide (role s = 2)) s (fun s =>
    sendJoin s ((maskChannels (BitVec.ofNat 16 (rdFld s MULE_JOIN_MASK 15 0))).filter (fun n => divCause s n != 0)))
  onlyIf (tbit v 3) s resetLinkNow

/-- CLAIM_CMD: a write of PAIR_CMD with CLAIM. -/
def execClaimCmd (v : Word) (s : State) : Host.Outcome State Fault Refusal :=
  act true s (fun s => if tbit v 0 then pairCommand s v else s)
/-- GIVE_UP_CMD: a write of PAIR_CMD with GIVE_UP. -/
def execGiveUpCmd (v : Word) (s : State) : Host.Outcome State Fault Refusal :=
  act true s (fun s => if tbit v 1 then pairCommand s v else s)
/-- JOIN_CMD: a write of PAIR_CMD with JOIN. -/
def execJoinCmd (v : Word) (s : State) : Host.Outcome State Fault Refusal :=
  act true s (fun s => if tbit v 2 then pairCommand s v else s)
/-- RESET_LINK: a write of PAIR_CMD with RESET_LINK. -/
def execResetLink (v : Word) (s : State) : Host.Outcome State Fault Refusal :=
  act true s (fun s => if tbit v 3 then pairCommand s v else s)

/-- HOLD_KEEPER_EXPIRY: the keeper has not been renewed for 2 ms: the net is released and the device is a standby (R434, R453
from step 4). -/
def execHoldKeeperExpiry (s : State) : Host.Outcome State Fault Refusal :=
  act true s (fun s => if holdDrive s then count (divergeAll (setDrive s false) 0xB) MULE_GIVEUP_CNT else s)

/-- The datagrams of a stream scheduled by now that have not left. -/
def overdue (s : State) (st : StreamSt) : Nat :=
  st.held.foldl (fun a u => a + ((List.range u.count).filter (fun k => u.sent ≤ k && reached s (u.at k))).length) 0

/-- The TS packets of a unit. -/
def unitPackets (u : RetUnit) : List (List Byte) := (List.range (u.bytes.length / 188)).map (fun k => (u.bytes.drop (188 * k)).take 188)

/-- The PID of a TS packet. -/
def packetPid (x : List Byte) : Nat := beAt x 1 2 % 8192

/-- A TS packet whose counter goes back by as many packets of its PID as were discarded. -/
def backCc (gone : List (Nat × Nat)) (x : List Byte) : List Byte :=
  let b := beAt x 3 1
  let k := (mget gone (packetPid x)).getD 0
  x.take 3 ++ beBytes 1 (b / 16 * 16 + (b % 16 + 16 - k % 16) % 16) ++ x.drop 4

/-- The packets of the discarded units that had not left with the datagram of the last ACK, by PID. -/
def discardedPids (units : List RetUnit) (t : RetUnit) (d : Nat) : List (Nat × Nat) :=
  (units.flatMap (fun u => (unitPackets u).drop (7 * leftBefore u t d))).foldl
    (fun m x => mput m (packetPid x) ((mget m (packetPid x)).getD 0 + 1)) []

/-- The PID of each place of a stream's counters (R460). -/
def counterPids (s : State) (i : Nat) : List (Option Nat) :=
  match (chan s (i / 64)).plan with
  | none => []
  | some p =>
    match p.rends.find? (fun r => r.id = i % 64) with
    | none => []
    | some r => [some 0, some r.ts.pmtPid, some r.ts.videoPid] ++
        (List.range 8).map (fun k => if (muxed p r).any (fun x => x.1 = k) then some (audioPid p r k) else none) ++ [some r.ts.sctePid]

/-- A stream of a diverged channel: its units up to that of the last ACK are discarded, the later ones take the RTP sequence numbers and
the continuity counters that follow it (R455). -/
def renumber (s : State) (i : Nat) : State :=
  match streamOf s i with
  | none => s
  | some st =>
    let last := (st.lastAck.map (fun a => a.1 + 1)).getD 0
    let held := st.held.filter (fun u => last ≤ u.seq)
    let next : BitVec 16 := match st.lastAck.bind (fun a => (st.held.find? (fun u => u.seq = a.1)).map (fun u => (u, a.2))) with
      | some (u, d) => u.seq0 + BitVec.ofNat 16 (d + 1)
      | none => st.outSeq
    let gone := match st.lastAck.bind (fun a => (st.held.find? (fun u => u.seq = a.1)).map (fun u => (u, a.2))) with
      | some (u, d) => discardedPids (st.held.filter (fun v => v.seq < last && (v.form = 1 || v.form = 2))) u d
      | none => []
    let counters (u : RetUnit) : RetUnit :=
      if u.form = 1 || u.form = 2 then
        let bs := ((unitPackets u).map (backCc gone)).flatten
        { u with bytes := bs, crc := crc32c bs }
      else u
    let renum := held.foldl (fun (x : List RetUnit × BitVec 16) u =>
      (x.1 ++ [{ counters u with seq0 := if formRtp u.form then x.2 else u.seq0 }],
        if formRtp u.form then x.2 + BitVec.ofNat 16 u.count else x.2)) ([], next)
    let pids := counterPids s i
    let s := modStream s i (fun y => { y with
      held := renum.1
      outSeq := next
      seqNext := renum.2
      cc := y.cc.mapIdx (fun k c => (c + 16 - (((pids.getD k none).bind (mget gone)).getD 0) % 16) % 16) })
    showHeld (countBy (wr s (STR_SEQ_NEXT i) (wordOf renum.2.toNat)) MULE_TAKE_DIVERGED held.length) i

/-- A serial port goes on after a takeover: from its shadow, or, locked, it locks again at once (R260; log entry 17). -/
def takePort (s : State) (p : Nat) : State :=
  if !apAssigned s p then s
  else if rdBit s (AP_STAT p) 2 then
    let a := apOf s p
    let last := (a.blocks.getLast?).map (fun x => x.1)
    forEach (a.shadows.filter (fun x => match last with
      | none => true
      | some l => l < x.1)) s (fun x s => usePortBlock s p x)
  else
    let s := onlyIf (decide (apState s p = 2)) s (fun s => lockPort (count s (AP_RELOCK_CNT p)) p)
    modAp s p (fun a => { a with fifo := [], silent := true })

/-- Whether a short of BW_HOLD keeps the device from taking over: the class bit is set or has not been clear for 1 s (R496). -/
def holdShorted (s : State) : Bool := rdBit s GLB_PIN_STAT 8 || !passed s s.pins.holdShortEnd (secTicks 1)

/-- A standby takes over: it drives the net with the next epoch, and goes on with its channels' streams and audio (R454, R455). -/
def takeOver (s : State) : State :=
  let old := rd s MULE_EPOCH
  let bad := (List.range 16).filter (fun n => divCause s n != 0 || !linkUp s || rdBit s MULE_PAIR_STAT 5)
  let s := modPair s (fun p => { p with peerDriving := false, refused := [] })
  let s := setDrive (wrBit (wr s MULE_EPOCH (old + 1)) MULE_PAIR_STAT 5 false) true
  let s := count (sendMule s 0x33 0xFF (wordBytes old ++ zeros 4)) MULE_TAKEOVER_CNT
  let s := enter (wrRaw s MULE_LAST_TAKEOVER_LO MULE_LAST_TAKEOVER_HI s.raw) 0x0501 0 [] false s.raw (old + 1)
  let s := setEvt s MULE_EVT 2
  let s := countBy s MULE_TAKE_RESENT
    ((s.streams.filter (fun st => !bad.contains (st.id / 64))).foldl (fun a st => a + overdue s st) 0)
  let s := forEach ((s.streams.map (fun st => st.id)).filter (fun i => bad.contains (i / 64))) s (fun i s => renumber s i)
  let s := forEach (List.range 8) s (fun p s => takePort s p)
  let s := showElig s
  forEach (List.range 16) s (fun n s =>
    forEach ((chan s n).frames.filter (fun f => f.rescueHeld)) s (fun f s => resumeTiles (rescueFrame s n f) n f.j))

/-- TAKEOVER: BW_HOLD has read low for 2 µs at a standby that does not drive it (R454, R455). -/
def execTakeover (s : State) : Host.Outcome State Fault Refusal :=
  act true s (fun s => if role s = 2 && !holdDrive s && !holdShorted s then takeOver s else s)

/-- GIVE_UP: only the released net causes a takeover (R454). -/
def execGiveUp (h : MuleHdr) (reason : Word) (chFault : BitVec 16) (s : State) : Host.Outcome State Fault Refusal :=
  act true s (fun s => onMessage s 0x32 0xFF h (wordBytes reason ++ leBytes 2 chFault.toNat ++ zeros 2) id)

/-- The peer drives the net. With equal epochs and both driving, the device whose PAIR_SIDE is 1 yields; on a standby the epoch change
diverges every channel (R435, R436, R448). -/
def peerTook (s : State) (epoch : Word) : State :=
  let s := modPair s (fun p => { p with peerDriving := true })
  if holdDrive s then
    if epoch = rd s MULE_EPOCH && rdBit s MULE_PAIR_STAT 6 then divergeAll (setDrive s false) 0xB else showHold s
  else divergeAll (showStale (showHold s)) 0xB

/-- TAKEN. -/
def execTaken (h : MuleHdr) (oldEpoch : Word) (s : State) : Host.Outcome State Fault Refusal :=
  act true s (fun s => onMessage s 0x33 0xFF h (wordBytes oldEpoch ++ zeros 4) (fun s => peerTook s h.epoch))

end Sys2Proof.Machine
end

