-- ==== Sys2Proof/Machine/Power.lean ====
section
/-!
DEFINITION. Reset, start-up, shutdown and pin faults (spec/19_power_pins_start.md).
-/
namespace Sys2Proof.Machine

/-! ### Reset and its release (R485 to R487, R505) -/

/-- The device in reset: what is not powered by the fuses, the store or the cause latch is as at reset; what has left the block
has left it (R53, R70, R505). -/
def heldState (s : State) (l : CauseLatch) : State :=
  { State.reset with
    power := .held
    latch := l
    fuses := s.fuses
    nv := s.nv
    treeNow := s.treeNow
    treeReady := s.treeReady
    treeNext := s.treeNext
    free := s.free
    out := s.out }

/-- The density code of OX_CFG (R363). -/
def densityCode (gbit : Nat) : Nat :=
  match gbit with
  | 16 => 0
  | 24 => 1
  | _ => 2

/-- Whether R338 accepts a DIMM: a registered RDIMM of x4 devices of 16, 24 or 32 Gbit, with one or two ranks. -/
def dimmSupported (d : Dimm) : Bool := d.registered && d.planar && d.x4 && [16, 24, 32].contains d.gbit && (d.ranks = 1 || d.ranks = 2)

/-- Whether R338 accepts what a channel's slots hold: one DIMM or two identical ones. -/
def channelSupported (ds : List Dimm) : Bool :=
  match ds with
  | [d] => dimmSupported d
  | [d, e] => dimmSupported d && d = e
  | _ => false

/-- The first full training of a controller: of all its targets, none of them in service yet (R350, R362). -/
def beginTraining (s : State) (i : Nat) : State :=
  let s := putOxState s i 1
  modOx s i (fun o => { o with fullFor := oxTargets s i })

/-- What start-up finds at a controller: HBM3E is fitted; a DDR-5 channel is absent, UNSUPPORTED with no address range, or trains (R337,
R338, R350, R363). -/
def findMemory (s : State) (i : Nat) (ds : List Dimm) : State :=
  let s := wr64 s (OX_BASE_LO i) (OX_BASE_HI i) (oxBase i)
  if oxDdr i then
    match ds with
    | [] => wr64 s (OX_BASE_LO i) (OX_BASE_HI i) 0
    | d :: more =>
      if channelSupported ds then
        let ranks := d.ranks * ds.length
        let s := wr s (OX_CFG i) (mkWord [(0, 0, 1), (3, 2, ranks - 1), (5, 4, densityCode d.gbit), (6, 6, b2n !more.isEmpty)])
        beginTraining s i
      else wr64 (wr (putOxState s i 5) (OX_CFG i) 1) (OX_BASE_LO i) (OX_BASE_HI i) 0
  else beginTraining s i

/-- The device at t0: the raw counter at 0 in holdover, the straps latched, the training of every controller begun, 750 mV
requested (R293, R350, R479, R486, R487). -/
def released (s : State) (bootSel pairSide : Bool) (dimms : List (List Dimm)) : State :=
  let s := { heldState s s.latch with power := .running }
  let s := { s with pins := { s.pins with
    bootSel := bootSel
    pairSide := pairSide
    perstReleased := false
    holdLowSince := some 0 } }
  let s := wrBit (wrBit s IMG_BOOT_INFO 2 bootSel) MULE_PAIR_STAT 6 pairSide
  let s := forEach (List.range 10) s (fun i s => findMemory s i (dimms.getD (i - 2) []))
  let s := modCal s (fun c => { c with lastRun := some 0 })
  emit s (.avsTarget 750)

/-- POWER_ON_RESET_RELEASE: `dimms` is what the SPDs of the slots of OX[2] to OX[9] show. A device shut down stays so until its power is
removed (R477). -/
def execPowerOnResetRelease (bootSel pairSide : Bool) (dimms : Vector (List Dimm) 8) (s : State) : Host.Outcome State Fault Refusal :=
  actPower s (fun s => if s.power = .tripped then s else released s bootSel pairSide dimms.toList)

/-- PORST_ASSERT: the device is held in reset; after a thermal trip only the loss of VDDIO ends the shutdown (R485, R492, R505). -/
def execPorstAssert (vddioLost : Bool) (s : State) : Host.Outcome State Fault Refusal :=
  actPower s (fun s =>
    if vddioLost then heldState s { power := true, porst := false, brownout := false, rails := 0 }
    else if s.power = .running then heldState s { power := false, porst := true, brownout := false, rails := 0 }
    else s)

/-- BROWNOUT: the monitors that tripped hold the device in reset; with VDDIO's the cause latch itself loses power (R485,
R505). -/
def execBrownout (rails : BitVec 8) (s : State) : Host.Outcome State Fault Refusal :=
  actPower s (fun s =>
    if rails.getLsbD 2 then heldState s { power := true, porst := false, brownout := false, rails := 0 }
    else if rails ≠ 0 && s.power = .running then
      heldState s { power := false, porst := false, brownout := true, rails := rails }
    else s)

/-- RST_CAUSE as the latch shows it (R505). -/
def causeWord (l : CauseLatch) : Word :=
  mkWord [(0, 0, b2n l.power), (1, 1, b2n l.porst), (2, 2, b2n l.brownout), (15, 8, l.rails.toNat)]

/-- THERMAL_SHUTDOWN: a site reaches 105 °C: BW_HOLD is released, THERMTRIP_N driven, the fabric stopped until power is removed
(R477, R492). -/
def execThermalShutdown (s : State) : Host.Outcome State Fault Refusal :=
  actPower s (fun s =>
    if s.power = .running then
      let s := setDrive (thermalEntry s) false
      { s with
        power := .tripped
        pins := { s.pins with thermTrip := true } }
    else s)

/-! ### Pin faults (R493 to R496) -/

/-- A Bellwether whose BW_HOLD is shorted stops launching and releases the net, with no GIVE_UP (R496). -/
def holdShort (s : State) : State :=
  if holdDrive s then count (divergeAll (setDrive s false) 0xB) MULE_GIVEUP_CNT else s

/-- A DDR-5 channel whose DDR_RST_N is shorted fails training and is FAILED (R352, R493). -/
def resetShort (s : State) (i : Nat) : State :=
  if 2 ≤ i && i < 10 && [1, 2, 3].contains (oxState s i) then choosePair (failDdr s i 0) else s

/-- PIN_SHORT: the class bit is set and its onset counted (R493); `ox` is the controller whose DDR_RST_N it is, in that class. -/
def execPinShort (cls : PinClass) (ox : Nat) (s : State) : Host.Outcome State Fault Refusal :=
  act true s (fun s =>
    if rdBit s GLB_PIN_STAT cls.bit then s
    else
      let s := count (wrBit s GLB_PIN_STAT cls.bit true) GLB_PIN_SHORT_CNT
      match cls with
      | .bwHold => holdShort s
      | .ddrRst => resetShort s ox
      | _ => s)

/-- SHORT_CLEARED: the class bit clears; the second of R496 begins for BW_HOLD. -/
def execShortCleared (cls : PinClass) (s : State) : Host.Outcome State Fault Refusal :=
  act true s (fun s =>
    if rdBit s GLB_PIN_STAT cls.bit then
      let s := wrBit s GLB_PIN_STAT cls.bit false
      if cls = .bwHold then { s with pins := { s.pins with holdShortEnd := some s.raw } } else s
    else s)

/-- HOLD_STUCK_HIGH: the net has read high for 10 ms with no device of the pair driving it (R496). -/
def execHoldStuckHigh (s : State) : Host.Outcome State Fault Refusal :=
  act true s (fun s =>
    if isPaired s && !holdDrive s && !s.pair.peerDriving then
      let s := wrBit (wrBit s MULE_PAIR_STAT 3 true) GLB_PIN_STAT 2 true
      { s with pins := { s.pins with holdLowSince := none } }
    else s)

/-- DIODE_SENSE: once a second; both bits are reports (R495). -/
def execDiodeSense (reversed isOpen : Bool) (s : State) : Host.Outcome State Fault Refusal :=
  act true s (fun s =>
    if passed s s.pins.lastDiode (secTicks 1) then
      let s := { s with pins := { s.pins with lastDiode := some s.raw } }
      let s := onlyIf reversed s (fun s => wrBit s GLB_PIN_STAT 1 true)
      onlyIf isOpen s (fun s => wrBit s GLB_PIN_STAT 0 true)
    else s)

end Sys2Proof.Machine
end

