-- ==== Sys2Proof/Machine/Slice.lean ====
section
/-!
DEFINITION. A slice comes into force: what a channel's CHANNEL, SCALER and AUDIO sections give its units (spec/02_zarwyn_image.md
R14, R59 to R65, and the rules of each unit that say what a re-plan keeps).
-/
namespace Sys2Proof.Machine

/-- How a slice comes into force: the number of its log entry, whether the channel's input paused (RESTART, or a full image), and
the time of frame 0 where the grid goes on (R63, R65, R77). -/
structure SliceEntry where
  seq : Nat
  restart : Bool
  since : Option Int

/-- Whether what a slice keeps is kept: a re-plan without RESTART (R201, R215, R257). -/
def SliceEntry.keeps (e : SliceEntry) : Bool := !e.restart


/-- A number with the bits of a list set. -/
def bitsOf (l : List Nat) : Nat := (sortNat l).foldl (fun a i => a + 2 ^ i) 0

/-! ### Clusters and scouts (R103, R105, R153, R164) -/

/-- The clusters that serve a channel. -/
def clustersOf (s : State) (n : Nat) : List Nat :=
  (List.range 16).filter (fun c => rdBit s (CL_STAT c) 4 && rdFld s (CL_STAT c) 3 0 = n)

/-- A cluster that serves no channel, or finishes an earlier slice of another one, comes to serve a channel; an unpowered one
is DOWN until it has loaded its slice and passed its self-test, and one that is DOWN stays so (R153). -/
def claimCluster (s : State) (n c : Nat) : State :=
  let es := (List.range 8).map (fun i => 8 * c + i)
  let s := forEach es s (fun e s =>
    if engState s e = 2 then setEngState (wrBit (dropTile s e) (ENG_STAT e) 3 false) e 1 else s)
  let s := forEach (List.range 16) s (fun m s => modChan s m (fun x => { x with releasing := x.releasing.filter (fun k => k ≠ c) }))
  let s := wrBit (wrFld s (CL_STAT c) 3 0 n) (CL_STAT c) 4 true
  forEach es s (fun e s =>
    if engState s e = 0 || engState s e = 1 then setEngState s e (if rdBit s (CL_STAT c) 5 then 1 else 5) else s)

/-- The clusters of a slice serve its channel, each scout with its band; the others are freed once the frames they code are
finished (R64, R105). -/
def sliceClusters (s : State) (n : Nat) (cs : List Nat) : State :=
  let old := clustersOf s n
  let s := modChan s n (fun c => { c with releasing := old.filter (fun k => !cs.contains k) })
  let s := forEach (sortNat cs).zipIdx s (fun (x : Nat × Nat) s =>
    let s := if old.contains x.1 then s else claimCluster s n x.1
    let st := if rdFld s (CL_SCT_STAT x.1) 1 0 = 3 then 3 else max 1 (rdFld s (CL_SCT_STAT x.1) 1 0)
    wr s (CL_SCT_STAT x.1) (mkWord [(1, 0, st), (11, 8, x.2)]))
  settleRelease s n

/-! ### The ladder's registers (R100, R101, R129, R130, R184) -/

/-- The description of a rendition's slot; 0 where the slice has none. -/
def rendWord (p : ChannelPlan) (r : Nat) : Word :=
  match p.rends.find? (fun x => x.id = r) with
  | none => 0
  | some x => mkWord [(1, 0, x.codec), (7, 4, x.res), (8, 8, b2n x.bits10), (9, 9, b2n x.c422), (21, 16, tileCount (planEngines p) x)]

/-- A rendition that the slice starts anew takes F0 and the initial model (R165, R172, R180). -/
def rendRegs (s : State) (n : Nat) (p : ChannelPlan) (kept : Nat → Bool) (r : Nat) : State :=
  let s := wr s (CH_REN_DESC n r) (rendWord p r)
  match p.rends.find? (fun x => x.id = r) with
  | none =>
    wr (wr (wr (wr (wr (wr s (RC_MODE n r) 0) (RC_BIT_RATE n r) 0) (RC_CPB_SIZE n r) 0) (RC_INIT_DELAY n r) 0) (RC_HDR_MAX n r) 0)
      (RC_LR_MAX n r) 0
  | some x =>
    let s := wr (wr s (RC_MODE n r) (wordOf x.mode)) (RC_BIT_RATE n r) (wordOf x.rate)
    let s := wr (wr s (RC_CPB_SIZE n r) (wordOf x.cpb)) (RC_INIT_DELAY n r) (wordOf x.initDelay)
    let s := wr (wr s (RC_HDR_MAX n r) (wordOf x.hdrMax)) (RC_LR_MAX n r) (wordOf x.lrMax)
    if kept r then s
    else wr (wr (wr s (RC_CPB_FULL n r) (wordOf (initFill x))) (RC_ALPHA_I n r) 0x20000) (RC_ALPHA_P n r) 0x20000

/-- The description of a resolution; index 0 has no scaler. -/
def resRegs (s : State) (n : Nat) (p : ChannelPlan) (i : Nat) : State :=
  match p.resolutions[i]? with
  | none => wr (wr s (CH_RES_DESC n i) 0) (CH_RES_SRC n i) 0
  | some (w, h, c422, src, scl) =>
    let s := wr s (CH_RES_DESC n i) (mkWord [(15, 0, w), (31, 16, h)])
    wr s (CH_RES_SRC n i) (mkWord [(3, 0, if i = 0 then 0xF else src), (9, 4, if i = 0 then 0x3F else scl), (10, 10, b2n c422)])

/-- The registers that show a slice. -/
def channelRegs (s : State) (n : Nat) (p : ChannelPlan) (kept : Nat → Bool) : State :=
  let s := wrBit s (CH_STAT n) 0 (!p.rends.isEmpty)
  let s := wr (wr s (CH_TF_NUM n) (wordOf p.tfNum)) (CH_TF_DEN n) (wordOf p.tfDen)
  let s := wr s (CH_DELAY n) (mkWord [(4, 0, p.delay), (12, 8, p.delay - 2)])
  let s := wr s (CH_LAD_STAT n)
    (mkWord [(5, 0, p.rends.length), (11, 8, p.resolutions.length), (20, 16, p.clusters.length), (25, 24, p.tl - 1)])
  let s := wr s (CH_CL_MASK n) (wordOf (bitsOf p.clusters))
  let s := wr s (CH_ANA_LEN n) (wordOf (if p.rends.isEmpty then 0 else 64 + 32 * ((p.width + 15) / 16) * ((p.height + 15) / 16)))
  let s := forEach (List.range 40) s (fun r s => rendRegs s n p kept r)
  forEach (List.range 12) s (fun i s => resRegs s n p i)

/-! ### Graphics layers (R211, R215) -/

/-- The layers of a slice: where NBUF, PW_MAX and PH_MAX stay and the re-plan keeps, the layer keeps its buffers; else they are
marked not loaded. A plane still on its way into a buffer goes on. -/
def sliceLayers (s : State) (n : Nat) (p : ChannelPlan) (keeps : Bool) : State :=
  let has (l : Nat) : Bool := ((p.layers[l - 1]?).map (fun x => x.1 != 0)).getD false
  let def_ := !p.rends.isEmpty
  let s := wr s (CMP_STAT n) (mkWord [(0, 0, b2n def_), (1, 1, b2n (composes420 p)),
    (15, 8, b2n def_ + bitsOf (((List.range 7).map (fun i => i + 1)).filter has))])
  forEach ((List.range 7).map (fun i => i + 1)) s (fun l s =>
    let x := (p.layers[l - 1]?).getD (0, 0, 0)
    let alloc := mkWord [(15, 0, x.2.1), (31, 16, x.2.2)]
    let same := keeps && rd s (LY_L_ALLOC n l) = alloc && rdFld s (LY_L_STAT n l) 10 8 = x.1
    let s := wrFld (wr s (LY_L_ALLOC n l) alloc) (LY_L_STAT n l) 10 8 x.1
    if same then s
    else modChan (wrFld s (LY_L_STAT n l) 3 0 0) n (fun c => { c with
      planeTimes := c.planeTimes.filter (fun y => y.1 ≠ l) }))

/-! ### Scalers and the values in force (R14, R124, R225, R240) -/

/-- The ladder scalers a channel holds. -/
def scalersOf (s : State) (n : Nat) : List Nat :=
  (List.range 48).filter (fun j => rdFld s (SCL_STAT j) 1 0 = 1 && rdFld s (SCL_STAT j) 7 4 = n)

/-- Take every output of a scaler away. -/
def clearScaler (s : State) (j : Nat) : State :=
  forEach (List.range 16) (wr s (SCL_STAT j) 0) (fun o s =>
    wr (wr (wr (wr s (OUT_CFG j o) 0) (OUT_SRC j o) 0) (OUT_DIM j o) 0) (OUT_STAT j o) 0)

/-- Load the coefficient banks of scalers, the mosaic's among them where a channel's SCALER section gives them (R225). -/
def loadCoefs (s : State) (scls : List Nat) (cs : List (Nat × Nat × Int)) : State :=
  let mine := cs.filter (fun x => scls.contains x.1 && x.2.1 < 4096)
  let kept := s.coefs.filter (fun x => !mine.any (fun y => y.1 = x.1 / 4096))
  let all := mine.foldl (fun m x => mset 0 m (4096 * x.1 + x.2.1) x.2.2) kept
  { s with coefs := all }

/-- The scalers of a slice. -/
def sliceScalers (s : State) (n : Nat) (p : ChannelPlan) : State :=
  let news := sortNat (p.outs.map (fun o => o.scl))
  let s := forEach (scalersOf s n) s (fun j s => clearScaler s j)
  let s := forEach news s (fun j s =>
    wr s (SCL_STAT j) (mkWord [(1, 0, 1), (7, 4, n), (12, 8, (p.outs.filter (fun o => o.scl = j)).length)]))
  let s := forEach p.outs s (fun o s =>
    let s := wr s (OUT_CFG o.scl o.out) (mkWord [(0, 0, 1), (7, 4, n), (11, 8, o.srcRes), (15, 12, o.dst), (17, 16, o.ofmt)])
    let s := wr s (OUT_SRC o.scl o.out) (mkWord [(15, 0, o.srcW), (31, 16, o.srcH)])
    wr s (OUT_DIM o.scl o.out) (mkWord [(15, 0, o.dstW), (31, 16, o.dstH)]))
  loadCoefs s (news ++ ((mosaicTiles s).filter (fun t => t.channel = n)).map (fun t => t.scl)) p.coefs

/-- The initial OUT_CTL of an output. -/
def outCtl (o : OutPlan) : Word := mkWord [(1, 0, o.hbank), (5, 4, o.vbank), (11, 8, o.vtaps)]

/-- Put a value of an RWF register in force. -/
def putForce (s : State) (a : Nat) (v : Word) : State :=
  let m := rwfMask a
  { s with force := mset (resetAt a) s.force a ((resetAt a &&& ~~~m) ||| (v &&& m)) }

/-- The scalers of a slice and the values it puts in force: a register the slice does not name takes its reset value, and reads it
unless a write accepted after the latch waits for the next boundary (R14, R63). -/
def sliceValues (s : State) (n : Nat) (p : ChannelPlan) : State :=
  let olds := (forceOf s n).map (fun e => e.1)
  let s := { s with force := s.force.filter (fun e => rwfOwner s e.1 ≠ some n) }
  let s := sliceScalers s n p
  let given := p.outs.map (fun o => ((OUT_CTL o.scl o.out).addr, outCtl o)) ++ p.rwf.filter (fun e => rwfOwner s e.1 = some n)
  let s := forEach given s (fun (e : Nat × Word) s => putForce s e.1 e.2)
  let s := modChan s n (fun c => { c with
    dirty := c.dirty.filter (fun a => rwfOwner s a = some n) })
  let shown := sortNat (olds ++ given.map (fun e => e.1))
  forEach (shown.filter (fun a => !(chan s n).dirty.contains a)) s (fun a s => dropPending s a)

/-- The mosaic outputs of a channel's tiles take its composed size (R228, R229). -/
def showMosaic (s : State) (n : Nat) (p : ChannelPlan) : State :=
  forEach ((mosaicTiles s).filter (fun t => t.channel = n)) s (fun t s =>
    wr s (OUT_SRC t.scl t.out) (mkWord [(15, 0, p.width), (31, 16, p.height)]))

/-! ### Decode slots (R186, R201, R205, R207) -/

/-- The planned rate of a slot in a unit, luma samples a second as a fraction; 0 where the slice has none there (R187). -/
def slotRate (u : Nat) (p : ChannelPlan) : Nat × Nat :=
  match p.slot with
  | some x => if x.du = u then (x.w * x.h * 1000000000 * x.tfDen, max 1 x.tfNum) else (0, 1)
  | none => (0, 1)

/-- The sum of two fractions. -/
def addRate (a b : Nat × Nat) : Nat × Nat := (a.1 * b.2 + b.1 * a.2, a.2 * b.2)

/-- The sum of fractions. -/
def sumRates (l : List (Nat × Nat)) : Nat × Nat := l.foldl addRate (0, 1)

/-- Show the slots of a decode unit, a bit each (DESIGN CHOICE, log entry 62: R205 does not say whether it is a mask or a number), and its
planned rate in Msample/s, the sum rounded up. -/
def showDecodeUnit (s : State) (u : Nat) : State :=
  let on := (List.range 4).filter (fun k => rdBit s (DS_SLOT_CFG u k) 8)
  let r := sumRates (s.chans.map (fun c => (c.plan.map (slotRate u)).getD (0, 1)))
  wr (wrFld s (DU_STAT u) 3 0 (bitsOf on)) (DU_LOAD u) (wordOf ((r.1 + r.2 * 1000000 - 1) / (r.2 * 1000000) % 65536))

/-- A slot serves no channel. -/
def freeSlot (s : State) (x : SlotPlan) : State :=
  let s := wr (wr (wr s (DS_SLOT_CFG x.du x.slot) 0) (DS_SLOT_FMT x.du x.slot) 0) (DS_SLOT_STAT x.du x.slot) 0
  let s := wr (wr (wr s (DS_CT_OFS x.du x.slot) 0) (DS_TS_ADJ_LO x.du x.slot) 0) (DS_TS_ADJ_HI x.du x.slot) 0
  modSlot (wr s (DS_AU_MAX x.du x.slot) 0) x.du x.slot (fun _ => SlotSt.reset)

/-- A slot serves a channel; one that is not kept waits for a random-access point. -/
def useSlot (s : State) (n : Nat) (x : SlotPlan) (kept : Bool) : State :=
  let s := wr s (DS_SLOT_CFG x.du x.slot) (mkWord [(1, 0, x.codec), (3, 2, x.carriage), (7, 4, n), (8, 8, 1)])
  let s := wr s (DS_SLOT_FMT x.du x.slot) (mkWord [(15, 0, x.w), (31, 16, x.h)])
  let t := (BitVec.ofInt 33 x.tsAdj).toNat
  let s := wr (wr64 s (DS_TS_ADJ_LO x.du x.slot) (DS_TS_ADJ_HI x.du x.slot) t) (DS_CT_OFS x.du x.slot) (wordOf x.ctOfs)
  let s := wr s (DS_AU_MAX x.du x.slot) (wordOf x.auMax)
  let s := if kept then s else modSlot (wr s (DS_SLOT_STAT x.du x.slot) 1) x.du x.slot (fun _ => SlotSt.reset)
  modSlot s x.du x.slot (fun y => { y with windows := x.windows })

/-- Whether a re-plan keeps a channel's slot, carriage, format, CT_OFS and TS_ADJ (R201). -/
def sameSlot (a b : SlotPlan) : Bool :=
  a.du = b.du && a.slot = b.slot && a.codec = b.codec && a.carriage = b.carriage && a.w = b.w && a.h = b.h && a.ctOfs = b.ctOfs &&
    a.tsAdj = b.tsAdj

/-- The slot of a slice, after the channel's plan is in force. -/
def sliceSlot (s : State) (n : Nat) (old new : Option SlotPlan) (keeps : Bool) : State :=
  let kept := keeps && (match old, new with
    | some a, some b => sameSlot a b
    | _, _ => false)
  let s := if kept then s else forSome old s (fun x s => freeSlot s x)
  let s := forSome new s (fun x s => useSlot s n x kept)
  forEach (List.range 4) s (fun u s => showDecodeUnit s u)

/-! ### Audio ports, flows and programmes (R245, R257, R262, R265 to R267) -/

/-- AP_CFG of a port. -/
def apWord (n : Nat) (a : ApPlan) : Word :=
  mkWord [(1, 0, a.mode), (2, 2, b2n a.rate96), (3, 3, b2n a.delay1), (7, 4, a.nslot - 1), (9, 8, a.width), (19, 16, n), (20, 20, 1)]

/-- A port assigned by a slice: it goes on where the slice keeps its channel, mode, rate and ALIGN, else it is reset, to lock again; the
clocks of mode 2 are the grid's own, so it locks at once, unless they are shorted (R247, R262, R493). -/
def usePort (s : State) (n : Nat) (a : ApPlan) : State :=
  let kept := apAssigned s a.ap && apChannel s a.ap = n && apMode s a.ap = a.mode && rdBit s (AP_CFG a.ap) 2 == a.rate96 &&
    rdFld s (AP_ALIGN a.ap) 12 0 = a.align
  let s := wr (wr s (AP_CFG a.ap) (apWord n a)) (AP_ALIGN a.ap) (wordOf a.align)
  if kept then s
  else
    let s := wr s (AP_STAT a.ap) 1
    let now := blockNow s a.rate96 / 1000
    let s := modAp s a.ap (fun x => { ApSt.reset with
      masks := x.masks
      period := now })
    if a.mode = 2 && !rdBit s GLB_PIN_STAT 13 then lockPort s a.ap else s

/-- A port that no channel uses. -/
def freePort (s : State) (p : Nat) : State :=
  modAp (wr (wr (wr s (AP_CFG p) 0) (AP_ALIGN p) 0) (AP_STAT p) 0) p (fun x => { ApSt.reset with
    masks := x.masks })

/-- NF_CFG of a flow. -/
def nfWord (n : Nat) (a : NfPlan) : Word :=
  mkWord [(4, 0, a.port), (5, 5, b2n a.kind31), (6, 6, b2n a.rate96), (7, 7, b2n a.l24), (12, 8, a.chans - 1), (13, 13, b2n a.pt125),
    (17, 14, n), (18, 18, 1)]

/-- A flow assigned by a slice: it goes on where the slice keeps its channel, kind, rate and ALIGN, else it is reset, and has closed what the
grid of its rate has closed (R251, R262). -/
def useFlow (s : State) (n : Nat) (a : NfPlan) : State :=
  let kept := nfAssigned s a.nf && nfChannel s a.nf = n && rdBit s (NF_CFG a.nf) 5 == a.kind31 &&
    rdBit s (NF_CFG a.nf) 6 == a.rate96 && rdFld s (NF_ALIGN a.nf) 12 0 = a.align
  let s := wr (wr s (NF_CFG a.nf) (nfWord n a)) (NF_ALIGN a.nf) (wordOf a.align)
  if kept then s
  else
    let s := wr s (NF_STAT a.nf) 1
    let last := if a.rate96 then s.lastBlock96 else s.lastBlock48
    modNf s a.nf (fun _ => { NfSt.reset with
      closed := (last.filter (fun b => 0 < b)).map (fun b => b - 1) })

/-- A flow that no channel uses. -/
def freeFlow (s : State) (f : Nat) : State :=
  modNf (wr (wr (wr s (NF_CFG f) 0) (NF_ALIGN f) 0) (NF_STAT f) 0) f (fun _ => NfSt.reset)

/-- A source entry of a programme (R267). -/
def srcEntry (p : PrgPlan) (e : Nat) : Nat :=
  match p.src[e]? with
  | none => 0
  | some (k, i, c) => c % 16 + i % 32 * 16 + k % 4 * 512

/-- A programme of a slice: one whose definition stays goes on under a re-plan without RESTART, any other begins anew at frame 0
(R257). -/
def usePrg (s : State) (n : Nat) (p : PrgPlan) (e : SliceEntry) : State :=
  let g := p.prg
  let s := wr s (PRG_CFG g) (mkWord [(2, 0, p.codec), (7, 3, p.chans), (11, 8, n), (12, 12, 1), (13, 13, b2n p.rate96)])
  let s := wr s (PRG_RATE g) (if 4 ≤ p.codec then 0 else wordOf p.bitrate)
  let s := forEach (List.range 8) s (fun w s => wr s (PRG_SRC g w) (mkWord [(15, 0, srcEntry p (2 * w)), (31, 16, srcEntry p (2 * w + 1))]))
  if e.keeps && (prgOf s g).plan = some (n, p) then s
  else modPrg s g (fun _ => { PrgSt.reset with
    plan := some (n, p)
    since := e.since })

/-- A programme that no channel has. -/
def freePrg (s : State) (g : Nat) : State :=
  let s := wr (wr s (PRG_CFG g) 0) (PRG_RATE g) 0
  modPrg (forEach (List.range 8) s (fun w s => wr s (PRG_SRC g w) 0)) g (fun _ => PrgSt.reset)

/-- Whether no port, flow or programme uses the grid of a rate. -/
def gridUnused (s : State) (r96 : Bool) : Bool :=
  !(List.range 8).any (fun p => apAssigned s p && rdBit s (AP_CFG p) 2 == r96) &&
    !(List.range 32).any (fun f => nfAssigned s f && rdBit s (NF_CFG f) 6 == r96) &&
    !(List.range 32).any (fun g => (prgOf s g).plan.any (fun x => x.2.rate96 == r96))

/-- A grid that nothing uses forms no block: the blocks whose instant has come until now are behind it. -/
def restGrids (s : State) : State :=
  let s := if gridUnused s false then { s with lastBlock48 := some (blockNow s false) } else s
  if gridUnused s true then { s with lastBlock96 := some (blockNow s true) } else s

/-- The audio of a slice. -/
def sliceAudio (s : State) (n : Nat) (p : ChannelPlan) (e : SliceEntry) : State :=
  let s := restGrids s
  let s := forEach ((List.range 8).filter (fun a => apAssigned s a && apChannel s a = n && !p.aps.any (fun x => x.ap = a))) s
    (fun a s => freePort s a)
  let s := forEach ((List.range 32).filter (fun f => nfAssigned s f && nfChannel s f = n && !p.nfs.any (fun x => x.nf = f))) s
    (fun f s => freeFlow s f)
  let mine (g : Nat) : Bool := match (prgOf s g).plan with
    | some (m, _) => m = n
    | none => false
  let s := forEach ((List.range 32).filter (fun g => mine g && !p.prgs.any (fun x => x.prg = g))) s (fun g s => freePrg s g)
  let s := forEach p.aps s (fun a s => usePort s n a)
  let s := forEach p.nfs s (fun a s => useFlow s n a)
  forEach p.prgs s (fun g s => usePrg s n g e)

/-! ### Receive flows (R329, R336) -/

/-- A receive flow that no section defines. -/
def freeRxf (s : State) (f : Nat) : State :=
  wr (wr (wr (modFlow s f (fun _ => FlowSt.reset)) (RXF_STAT f) 0) (RXF_CFG f) 0) (RXF_MERGE_WAIT f) 0

/-- A receive flow as a section defines it, with an empty record. -/
def defineRxf (s : State) (x : FlowPlan) : State :=
  let f := x.rxf
  let s := modFlow (freeRxf s f) f (fun y => { y with pathA := x.pathA, pathB := x.pathB, payloadType := x.payloadType })
  let s := wr s (RXF_CFG f) (mkWord [(2, 0, x.kind), (7, 3, x.portA), (12, 8, x.portB), (13, 13, b2n x.dual), (17, 14, x.channel),
    (18, 18, b2n (isSequential x.kind))])
  wr s (RXF_MERGE_WAIT f) (wordOf x.mergeWait)

/-- The receive flows of a slice: one that the slice before defined alike goes on. -/
def sliceFlows (s : State) (old : List FlowPlan) (p : ChannelPlan) : State :=
  let s := forEach (old.filter (fun x => !p.flows.any (fun y => y.rxf = x.rxf))) s (fun x s => freeRxf s x.rxf)
  forEach (p.flows.filter (fun x => !old.contains x)) s (fun x s => defineRxf s x)

/-! ### Streams (R64, R268, R281, R287) -/

/-- A stream as a slice defines it: `key` is what must stay for its numbers to go on (R64), `version` and `pmt` the initial version and the
content of its PMT. -/
structure StreamDef where
  id : Nat
  key : Nat × Nat × Nat
  form : Nat
  port : Nat
  ipv6 : Bool
  sound : Bool
  share : Nat
  seq0 : BitVec 16
  cc : List Nat
  init : List Byte
  version : Nat
  pmt : List Byte
  deriving DecidableEq, Repr

/-- The initial continuity counters of a transport stream in the order of R460: PAT, PMT, video, the audio programmes it carries by
their place, SCTE-35; a PID it does not carry has 0. -/
def initialCc (form cc0 : Nat) (audios : List Nat) : List Nat :=
  if form = 1 || form = 2 then
    [cc0, cc0, cc0] ++ (List.range 8).map (fun i => if audios.contains i then cc0 else 0) ++ [cc0]
  else List.replicate 12 0

/-- The streams of a slice (R268). -/
def planStreams (n : Nat) (p : ChannelPlan) : List StreamDef :=
  let video := p.rends.map (fun r =>
    { id := n * 64 + r.id, key := (r.codec, r.dest, 0), form := r.form, port := r.port, ipv6 := r.ipv6, sound := false
      share := r.share, seq0 := r.seq0
      cc := initialCc r.form r.cc0.toNat ((muxed p r).map (fun x => x.1))
      init := if r.form = 3 || r.form = 4 then initSegment (videoTrack p r) else []
      version := r.ts.version, pmt := if r.form = 1 || r.form = 2 then pmtBody p r else [] : StreamDef })
  let audio := ((prgOrder p).zipIdx.filter (fun x => x.1.form ≠ 0)).map (fun x =>
    { id := n * 64 + 40 + x.2, key := (x.1.codec, x.1.form, x.1.port), form := x.1.form, port := x.1.port, ipv6 := x.1.ipv6, sound := true
      share := x.1.share, seq0 := x.1.seq0, cc := initialCc x.1.form 0 []
      init := if x.1.form = 3 || x.1.form = 4 then initSegment (audioTrack x.1) else [], version := 0, pmt := [] : StreamDef })
  let rec_ : List StreamDef :=
    [{ id := n * 64 + 48, key := (0, 0, 0), form := 6, port := 0, ipv6 := false, sound := false, share := p.metaShare, seq0 := 0
       cc := initialCc 6 0 [], init := [], version := 0, pmt := [] }]
  if p.rends.isEmpty then [] else video ++ audio ++ rec_

/-- What a stream in the slice before leaves behind when its definition ends: the units of a LOST stream that will not launch stay
as they are. -/
def endStream (s : State) (i seq : Nat) : State :=
  let form := strForm s i
  let port := strPort s i
  modStream s i (fun x => { x with
    slice := seq
    old := if form = 0 then x.old else some { form := form, port := port, seqNext := x.seqNext, cc := x.cc, psiG := x.psiG }
    oldAudio := x.audio.length
    held := match x.lostAt with
      | none => x.held
      | some q => x.held.map (fun u => if q ≤ u.seq then { u with dead := true } else u)
    lostAt := none })

/-- What a slice gives a stream when it starts: the version of the PMT rises by one, modulo 32, where its content differs from the one
before; a stream begun anew has the initial version of the image. Of the slices before, those of the channel's `n` frames in flight stay
(R268, R274, R287). -/
def startHead (old : List StreamHead) (n slice : Nat) (kept : Bool) (d : StreamDef) : List StreamHead :=
  let v := match kept, old with
    | true, x :: _ => if x.pmt = d.pmt then x.version else (x.version + 1) % 32
    | _, _ => d.version % 32
  { slice := slice, version := v, pmt := d.pmt, init := d.init } :: old.take (n + 1)

/-- A stream of a slice: kept, begun anew behind what it replaces, or new. -/
def defineStream (s : State) (seq : Nat) (kept : Bool) (d : StreamDef) : State :=
  let cfg := mkWord [(2, 0, d.form), (3, 3, b2n d.ipv6), (8, 4, d.port), (9, 9, b2n d.sound)]
  let flying := (chan s (d.id / 64)).frames.length
  if kept then
    modStream (wr s (STR_CFG d.id) cfg) d.id (fun x => { x with
      share := d.share
      heads := startHead x.heads flying seq true d })
  else
    let s := match streamOf s d.id with
      | some _ => modStream (endStream s d.id seq) d.id (fun x => { x with
          share := d.share
          cc := d.cc
          psiG := none
          heads := startHead x.heads flying seq false d
          seqNext := d.seq0
          freshNext := true })
      | none => { s with streams := s.streams ++
          [{ id := d.id, share := d.share, cc := d.cc, psiG := none, heads := startHead [] flying seq false d
             seqNext := d.seq0, audio := [], held := [], lostAt := none, outSeq := d.seq0
             freshNext := true, slice := seq, old := none, oldAudio := 0, lastAck := none }] }
    let s := wr (wr s (STR_CFG d.id) cfg) (STR_SEQ_NEXT d.id) (wordOf d.seq0.toNat)
    let hold := formSent d.form && rdBit s (EGR_PORT_STAT d.port) 0
    showHeld (wrFld s (STR_STAT d.id) 1 0 (if hold then 3 else 1)) d.id

/-- The streams of a slice. A LOST stream begins anew (R281). -/
def sliceStreams (s : State) (n seq : Nat) (old : Option ChannelPlan) (p : ChannelPlan) : State :=
  let was := (old.map (planStreams n)).getD []
  let now := planStreams n p
  let gone := was.filter (fun d => !now.any (fun x => x.id = d.id))
  let s := forEach gone s (fun d s => wrFld (wr (wr (endStream s d.id seq) (STR_CFG d.id) 0) (STR_SEQ_NEXT d.id) 0) (STR_STAT d.id) 1 0 0)
  forEach now s (fun d s =>
    let kept := was.any (fun x => x.id = d.id && x.key = d.key) &&
      ((streamOf s d.id).map (fun x => x.lostAt.isNone)).getD false
    defineStream s seq kept d)

/-! ### A slice takes effect (R14, R59, R63 to R65) -/

/-- Pending splices are withdrawn: those whose splice frame is still to come, and those not bound yet (R285). -/
def dropSplices (s : State) (n : Nat) : State :=
  let gone := (chan s n).splices.filter (fun j => (chan s n).j ≤ j)
  let lost := gone.length + ((chan s n).cmds.filter PendCmd.isSplice).length
  let s := onlyIf (lost != 0) s (fun s => setEvt (countBy s EGR_SPLICE_DROP lost) (EGR_CH_EVT n) 5)
  modChan s n (fun c => { c with
    splices := c.splices.filter (fun j => !gone.contains j)
    cmds := c.cmds.filter (fun x => !x.isSplice) })

/-- The splices of a channel are withdrawn by a RESTART re-plan: the command of one that had not bound completes with 0x84, withdrawn (DESIGN
CHOICE, log entry 62: the manual names no status for it; a forced full load completes it by R507). -/
def withdrawSplices (s : State) (n : Nat) : State :=
  let waiting := (chan s n).cmds.filter PendCmd.isSplice
  forEach waiting (dropSplices s n) (fun c s => finish s c.q c.slot 0x84 (zeros 24))

/-- The HBM3E sets that hold a channel's buffers (R362). -/
def sliceSets (s : State) (n : Nat) (sets : List Nat) : State :=
  forEach (List.range 8) s (fun k s => wrBit s (OX_SET_CH (k / 4) (k % 4)) n (sets.contains k))

/-- Whether a slice keeps a rendition of the one before, with its model (R64, R180). -/
def keptRend (old : Option ChannelPlan) (p : ChannelPlan) (e : SliceEntry) (r : Nat) : Bool :=
  e.keeps && (match old.bind (fun o => o.rends.find? (fun x => x.id = r)), p.rends.find? (fun x => x.id = r) with
    | some a, some b => a.codec = b.codec && a.dest = b.dest
    | _, _ => false)

/-- The rate models when a slice comes into force: one anew for each of its renditions, which carries on the B of a kept one, and those
that frames of earlier slices still need (R168, R180, R181). -/
def sliceModels (c : Chan) (old : Option ChannelPlan) (p : ChannelPlan) (e : SliceEntry) : List RcModel :=
  p.rends.map (fun r => freshModel r e.seq (if keptRend old p e r.id then some c.sliceSeq else none)) ++
    c.models.filter (fun m => m.slice = c.sliceSeq || c.frames.any (fun f => f.sliceSeq = m.slice) ||
      c.models.any (fun x => x.from_ = some m.slice))

/-- A slice comes into force for its channel. -/
def installSlice (s : State) (p : ChannelPlan) (e : SliceEntry) : State :=
  let n := p.channel
  let c := chan s n
  let old := c.plan
  let s := channelRegs s n p (keptRend old p e)
  let s := showMosaic (sliceValues s n p) n p
  let s := sliceLayers s n p e.keeps
  let s := sliceClusters s n p.clusters
  let s := modChan s n (fun c => { c with
    plan := if p.rends.isEmpty then none else some p
    spare := if p.rends.isEmpty then some p else none
    sliceSeq := e.seq
    pend := none
    gap := none
    dead := false
    k := 0
    grid := if e.since.isSome && !p.rends.isEmpty then c.grid else none
    bound := if e.since.isSome then c.bound else none
    models := sliceModels c old p e
    rects := if e.since.isSome then c.rects else []
    roiSeq := if e.since.isSome then c.roiSeq else 0xFFFFFFFF
    grain := if e.since.isSome then c.grain else none
    sources := if e.since.isSome then c.sources else [] })
  let s := onlyIf (e.since.isNone || p.rends.isEmpty) s (fun s => wrBit s (CH_STAT n) 1 false)
  let s := wrBit s (CH_STAT n) 2 false
  let s := sliceSlot s n (old.bind (fun o => o.slot)) (if p.rends.isEmpty then none else p.slot) e.keeps
  let s := sliceFlows (sliceAudio s n p e) (((old.orElse (fun _ => c.spare)).map (fun o => o.flows)).getD []) p
  let s := sliceStreams s n e.seq old p
  let s := sliceSets s n p.hbmSets
  let s := wrBit s IMG_CH_DEFINED n (!p.rends.isEmpty)
  let s := onlyIf (engineCount s n = 0 && !p.rends.isEmpty && p.clusters.all (fun c =>
      ((List.range 8).all (fun i => engState s (8 * c + i) = 4)))) s (fun s => noEngine s n (8 * p.clusters.headD 0))
  onlyIf (isPaired s) s showElig

end Sys2Proof.Machine
end

