-- ==== Sys2Proof/Machine/Admit.lean ====
section
/-!
DEFINITION. What an image may define: the structure checks of step 10 of R55 on each channel's slice, on the DEVICE section and
across channels, and the units a slice claims (spec/02_zarwyn_image.md R55, R58, R62; R102, R124, R126, R132, R143, R169 and the
rules each check names).
-/
namespace Sys2Proof.Machine

/-- No entry of a list occurs twice. -/
def noTwice (l : List Nat) : Bool := (sortNat l).length = l.length

/-- Whether `n` samples a frame period are at most a rate in samples a second. -/
def rateOk (p : ChannelPlan) (samples rate : Nat) : Bool := samples * 1000000000 * p.tfDen ≤ rate * p.tfNum

/-! ### One channel -/

/-- The picture, period and delay of a channel (R21, R82, R102, check 4 of R33). -/
def formatLimits (p : ChannelPlan) : Bool :=
  p.channel < 16 && 0 < p.tfNum && 0 < p.tfDen && 2 ≤ p.delay && p.delay ≤ 16 && 1 ≤ p.tl && p.tl ≤ 4 &&
    0 < p.width && p.width ≤ 7680 && p.width % 2 = 0 && 0 < p.height && p.height ≤ 4320 && p.height % 2 = 0 && rateOk p (p.width * p.height) 4200000000

/-- The clusters of a channel (R102). -/
def clusterLimits (p : ChannelPlan) : Bool :=
  p.clusters.length ≤ 16 && noTwice p.clusters && p.clusters.all (fun c => c < 16)

/-- A resolution of a ladder: its width, height, whether it is 4:2:2. -/
def resAt (p : ChannelPlan) (i : Nat) : Option (Nat × Nat × Bool × Nat × Nat) := p.resolutions[i]?

/-- The OUT_CTL that a slice puts in force for an output (R14). -/
def givenCtl (p : ChannelPlan) (j o : Nat) (initial : Word) : Word :=
  ((p.rwf.reverse.find? (fun e => e.1 = (OUT_CTL j o).addr)).map (fun e => e.2)).getD initial

/-- Whether a vertical filter on a source of a width is within the line buffer (R226). -/
def tapsFit (v : Word) (srcW : Nat) : Bool := (fld v 11 8 = 4 || fld v 11 8 = 6 || fld v 11 8 = 8) && fld v 11 8 * srcW ≤ 49152

/-- The resolutions and the scaler outputs that make them (R102, R124, R226). -/
def outLimits (p : ChannelPlan) (o : OutPlan) : Bool :=
  o.scl < 48 && o.out < 16 && o.hbank < 4 && o.vbank < 4 && tapsFit (givenCtl p o.scl o.out (outCtl o)) o.srcW &&
    o.srcW ≤ 8 * o.dstW && o.srcH ≤ 8 * o.dstH && 0 < o.dst &&
    (match resAt p o.dst, resAt p o.srcRes with
      | some (w, h, c422, src, scl), some (sw, sh, _, src2, _) =>
        w = o.dstW && h = o.dstH && o.ofmt = (if c422 then 1 else 0) && src = o.srcRes && scl = o.scl && sw = o.srcW && sh = o.srcH &&
          (o.srcRes = 0 || (src2 = 0 && w ≤ sw && h ≤ sh && (w < sw || h < sh)))
      | _, _ => false)

/-- Samples of all planes of an output. -/
def outSamples (o : OutPlan) : Nat := o.dstW * o.dstH * (if o.ofmt = 1 then 4 else 3) / 2

/-- Every resolution but the top is made by exactly one output, each has a rendition, and each scaler keeps check 3 of R33 (R102, R124,
R228). -/
def scalerLimits (p : ChannelPlan) : Bool :=
  (match resAt p 0 with
    | some (w, h, c422, _, _) => w = p.width && h = p.height && c422 = !composes420 p
    | none => false) &&
    1 ≤ p.resolutions.length && p.resolutions.length ≤ 12 &&
    p.resolutions.all (fun r => r.1 ≤ p.width && r.2.1 ≤ p.height) &&
    noTwice (p.resolutions.map (fun r => (r.1 * 65536 + r.2.1) * 2 + b2n r.2.2.1)) &&
    p.outs.all (outLimits p) && noTwice (p.outs.map (fun o => 16 * o.scl + o.out)) && noTwice (p.outs.map (fun o => o.dst)) &&
    p.outs.length + 1 = p.resolutions.length &&
    (List.range p.resolutions.length).all (fun i => p.rends.any (fun r => r.res = i)) &&
    p.outs.all (fun o => rateOk p (((p.outs.filter (fun x => x.scl = o.scl)).map outSamples).sum) 6000000000)

/-- Whether every column tile of a rendition has a width that R126 allows. -/
def columnLimits (p : ChannelPlan) (r : RendPlan) : Bool :=
  let t := tileCount (planEngines p) r
  0 < t && (List.range t).all (fun i =>
    let x := tileStart t r i * ctSize r.codec
    let w := min (tileStart t r (i + 1) * ctSize r.codec) r.w - x
    256 ≤ w && (r.codec ≠ 2 || w ≤ 4096))

/-- The picture and rate limits of a rendition's profile and levels (R132, R143). -/
def profileLimits (p : ChannelPlan) (r : RendPlan) : Bool :=
  1 ≤ r.codec && r.codec ≤ 3 && r.w * r.h ≤ 35651584 && rateOk p (r.w * r.h) (if r.codec = 2 then 4706009088 else 4278190080) &&
    (!r.c422 || (r.codec = 1 && r.bits10)) && (r.bits10 || p.colour < 2) && p.colour < 4 && (levelOf p r).isSome

/-- R x Tf: floor and ceiling, in bits. -/
def frameBits (p : ChannelPlan) (rate : Nat) : Nat × Nat :=
  (rate * p.tfNum / (1000000000 * max 1 p.tfDen), (rate * p.tfNum + 1000000000 * max 1 p.tfDen - 1) / (1000000000 * max 1 p.tfDen))

/-- The rate parameters of a rendition (R165, R167, R169). -/
def rateLimits (p : ChannelPlan) (r : RendPlan) : Bool :=
  let g := r.hdrMax + r.lrMax
  let f0 := initFill r
  let b := frameBits p r.rate
  1 ≤ r.mode && r.mode ≤ 3 && g ≤ b.1 && g ≤ f0 && f0 + 1 ≤ r.cpb && b.2 + 64 ≤ r.cpb &&
    lrMaxOf (tileCount (planEngines p) r) r ≤ r.lrMax && hdrMaxOf p r ≤ r.hdrMax && hrdExact r f0

/-- The payload types that an image may give a form (R269). -/
def typeOk (form : Nat) (a : NetPlan) : Bool := (form ≠ 3 && form ≠ 5) || (96 ≤ a.payloadType && a.payloadType ≤ 127)

/-- A transport stream: its PIDs, and a frame period of at most 100 ms (R273, R274). -/
def tsLimits (p : ChannelPlan) (r : RendPlan) : Bool :=
  r.form = 3 || r.form = 4 ||
    (([r.ts.pmtPid, r.ts.videoPid, r.ts.sctePid] ++ r.ts.audioPids).all (fun x => 0x20 ≤ x && x ≤ 0x1FFE) &&
      noTwice ([r.ts.pmtPid, r.ts.videoPid, r.ts.sctePid] ++ r.ts.audioPids) && r.ts.audioPids.length = (muxed p r).length &&
      p.tfNum ≤ 100000000 * p.tfDen)

/-- A rendition (R102). -/
def rendLimits (p : ChannelPlan) (r : RendPlan) : Bool :=
  r.id < 40 && r.w % 2 = 0 && r.h % 2 = 0 && 128 ≤ r.w && 72 ≤ r.h &&
    (match resAt p r.res with
      | some (w, h, c422, _, _) => w = r.w && h = r.h && c422 = r.c422
      | none => false) &&
    columnLimits p r && profileLimits p r && rateLimits p r && 1 ≤ r.form && r.form ≤ 4 && tsLimits p r && typeOk r.form r.net

/-- A contribution slot (R186 to R191): its format and frame rate are the channel's, and its stream keeps its codec's limits. -/
def slotLimits (p : ChannelPlan) (x : SlotPlan) : Bool :=
  x.du < 4 && x.slot < 4 && x.w = p.width && x.h = p.height && x.sameFormat && 0 < x.tfNum && 0 < x.tfDen &&
    x.tfNum * p.tfDen = p.tfNum * x.tfDen && 1000000000 * x.tfDen ≤ 120 * x.tfNum && x.ctOfs ≤ 4000000000 &&
    -(2 ^ 32) ≤ x.tsAdj && x.tsAdj < 2 ^ 32 &&
    (match x.codec with
      | 1 => x.carriage ≤ 1 && x.w ≤ 7680 && x.h ≤ 4320 && x.w * x.h * 1000000000 * x.tfDen ≤ 2139095040 * x.tfNum
      | 2 => x.carriage = 2 && x.w ≤ 4096 && x.h ≤ 2160
      | _ => false)

/-- A serial port (R245, R246); widths are codes 16, 20, 24, 32. -/
def apLimits (a : ApPlan) : Bool :=
  a.ap < 8 && 1 ≤ a.mode && a.mode ≤ 3 && 1 ≤ a.nslot && a.nslot ≤ 16 && a.width < 4 && a.align ≤ 4800 &&
    (a.mode = 3 || (if a.rate96 then 96000 else 48000) * a.nslot * [16, 20, 24, 32].getD a.width 32 ≤ 49152000)

/-- A network audio flow (R245, R250). -/
def nfLimits (a : NfPlan) : Bool :=
  a.nf < 32 && 1 ≤ a.chans && a.chans ≤ 16 && (!a.kind31 || a.chans % 2 = 0) && a.align ≤ 4800

/-- The channels and bitrates a programme's codec allows (R256). -/
def codecLimits (g : PrgPlan) : Bool :=
  match g.codec with
  | 1 => [1, 2, 6, 8].contains g.chans && 24000 * g.chans ≤ g.bitrate && g.bitrate ≤ 256000 * g.chans && !g.rate96
  | 2 => [1, 2, 6].contains g.chans && 16000 * g.chans ≤ g.bitrate && g.bitrate ≤ 64000 * g.chans && !g.rate96
  | 3 => g.chans = 2 && 16000 ≤ g.bitrate && g.bitrate ≤ 48000 && !g.rate96
  | 4 | 5 => 1 ≤ g.chans && g.chans ≤ 16
  | _ => false

/-- A source of a programme: silence, or a channel of a port or flow of the same video channel at the programme's rate (R256). -/
def sourceLimits (p : ChannelPlan) (g : PrgPlan) (x : Nat × Nat × Nat) : Bool :=
  match x.1 with
  | 0 => true
  | 1 => p.aps.any (fun a => a.ap = x.2.1 && a.rate96 = g.rate96 && x.2.2 < (if a.mode = 3 then 2 else a.nslot))
  | 2 => p.nfs.any (fun a => a.nf = x.2.1 && a.rate96 = g.rate96 && x.2.2 < a.chans)
  | _ => false

/-- The bytes of an ST 2110-30 datagram from its IP header on: one packet of 1 ms never exceeds 1,500 (R259, R269). A programme whose packets
would exceed them is refused (DESIGN CHOICE, log entry 64: R256's table does not name it). -/
def pcmDatagram (g : PrgPlan) : Nat :=
  (if g.net.dstIp.length = 4 then 20 else 40) + 8 + 12 + (if g.rate96 then 96 else 48) * g.chans * (if g.codec = 5 then 2 else 3)

/-- The streams of a programme: an encoded one in transport streams and CMAF, PCM as ST 2110-30 (R268, R269). -/
def programmeForm (p : ChannelPlan) (g : PrgPlan) : Bool :=
  typeOk g.form g.net &&
    (if 4 ≤ g.codec then g.form = 5 && g.mux.isEmpty && pcmDatagram g ≤ 1500
    else (g.form = 0 || g.form = 3 || g.form = 4) && g.mux.all (fun i => p.rends.any (fun r => r.id = i && (r.form = 1 || r.form = 2))))

/-- The audio of a channel (R245, R246, R250, R256, R268). -/
def audioLimits (p : ChannelPlan) : Bool :=
  p.aps.all apLimits && noTwice (p.aps.map (fun a => a.ap)) && p.nfs.all nfLimits && noTwice (p.nfs.map (fun a => a.nf)) &&
    p.prgs.length ≤ 8 && noTwice (p.prgs.map (fun g => g.prg)) &&
    p.prgs.all (fun g => g.prg < 32 && codecLimits g && g.src.length ≤ 16 && g.src.all (sourceLimits p g) &&
      programmeForm p g)

/-- HOLD, at most a second, leaves time for the longest access unit: HOLD + Tf is at least U + 3 ms (R271). -/
def holdLimits (p : ChannelPlan) : Bool :=
  let u := ((p.prgs.filter (fun g => g.codec < 4)).map auLength).foldl max 0
  p.hold ≤ 1000000000 && (u * 1000000000 + 3000000 * 48000) * p.tfDen ≤ (p.hold * p.tfDen + p.tfNum) * 48000

/-- The plane buffers of the graphics layers (R211). -/
def layerLimits (p : ChannelPlan) : Bool :=
  p.layers.length ≤ 7 && p.layers.all (fun l => l.1 ≤ 4 && l.2.1 ≤ p.width && l.2.2 ≤ p.height)

/-- The ports a slice sends from. -/
def slicePorts (p : ChannelPlan) : List Nat :=
  (p.rends.filter (fun r => formSent r.form)).map (fun r => r.port) ++ (p.prgs.filter (fun g => formSent g.form)).map (fun g => g.port) ++
    p.nfs.map (fun a => a.port)

/-- What a flow path matches: an address of 4 or 16 bytes, its source of the same family (R329). -/
def pathLimits (a : PathPlan) : Bool :=
  (a.dst.length = 4 || a.dst.length = 16) && a.port < 65536 && (a.src.map (fun x => x.length)).getD a.dst.length = a.dst.length &&
    a.vlan.getD 0 < 4096

/-- A receive flow (R329, R331). -/
def flowLimits (nports : Nat) (f : FlowPlan) : Bool :=
  f.rxf < 128 && 1 ≤ f.kind && f.kind ≤ 7 && f.portA < nports && (!f.dual || (f.portB < nports && f.portB ≠ f.portA)) && f.channel < 16 &&
    f.mergeWait ≤ 10000 && pathLimits f.pathA && (!f.dual || pathLimits f.pathB) && f.payloadType < 128

/-- The receive flows of a channel: its own (R329). -/
def flowsLimits (nports : Nat) (p : ChannelPlan) : Bool :=
  p.flows.all (fun f => flowLimits nports f && f.channel = p.channel) && noTwice (p.flows.map (fun f => f.rxf))

/-- A slice by itself, on a device with a number of ports. Only a re-plan may define no renditions (R63). -/
def sliceLimits (full : Bool) (nports : Nat) (p : ChannelPlan) : Bool :=
  if p.rends.isEmpty then !full && p.channel < 16 && clusterLimits p && p.outs.all (outLimits p) && audioLimits p && flowsLimits nports p &&
      (slicePorts p).all (fun x => x < nports)
  else
    formatLimits p && clusterLimits p && 1 ≤ p.clusters.length && scalerLimits p && p.rends.length ≤ 40 &&
      noTwice (p.rends.map (fun r => r.id)) && p.rends.all (rendLimits p) && p.slot.all (slotLimits p) && audioLimits p && holdLimits p &&
      layerLimits p && flowsLimits nports p && (slicePorts p).all (fun x => x < nports) && p.hbmSets.all (fun k => k < 8)

/-! ### Units and their claims (R62) -/

/-- The units a slice claims, numbered apart: clusters, scalers, decode slots, serial ports, audio flows, programmes, receive flows. -/
def unitsOf (p : ChannelPlan) : List Nat :=
  p.clusters ++ sortNat (p.outs.map (fun o => 100 + o.scl)) ++ p.slot.toList.map (fun x => 200 + 4 * x.du + x.slot) ++
    p.aps.map (fun a => 300 + a.ap) ++ p.nfs.map (fun a => 400 + a.nf) ++ p.prgs.map (fun g => 500 + g.prg) ++
    p.flows.map (fun f => 600 + f.rxf)

/-- The slices that a channel holds or has been verified to take. -/
def claimsOf (s : State) (n : Nat) : List ChannelPlan :=
  (chan s n).plan.toList ++ (chan s n).spare.toList ++ ((chan s n).pend.map (fun x => x.plan)).toList

/-- The other channels of the device. -/
def otherThan (n : Nat) : List Nat := (List.range 16).filter (fun m => m ≠ n)

/-- Planned output of a decode unit in slices, luma samples a second as a fraction (R187). -/
def unitLoad (u : Nat) (ps : List ChannelPlan) : Nat × Nat := sumRates (ps.map (slotRate u))

/-- Whether a planned output is within the floor of a decode unit (R186). -/
def unitFits (r : Nat × Nat) : Bool := r.1 ≤ 4000000000 * r.2

/-- The larger of two fractions. -/
def maxRate (a b : Nat × Nat) : Nat × Nat := if a.1 * b.2 < b.1 * a.2 then b else a

/-- Planned egress of a port in a slice, bit/s. What counts towards a port's capacity is not stated: the renditions' and
programmes' rates (log entry 21). -/
def portLoad (x : Nat) (p : ChannelPlan) : Nat :=
  ((p.rends.filter (fun r => formSent r.form && r.port = x)).map (fun r => r.rate)).sum +
    ((p.prgs.filter (fun g => formSent g.form && g.port = x)).map (fun g =>
      if 4 ≤ g.codec then (if g.rate96 then 96000 else 48000) * g.chans * (if g.codec = 4 then 24 else 16) else g.bitrate)).sum

/-- The line rate of a port in an octet mode, bit/s (R316). -/
def lineRate (mode : Nat) : Nat := [0, 400, 200, 100, 50, 25, 10, 0].getD mode 0 * 1000000000

/-! ### The DEVICE section -/

/-- Ports and lanes per port of an octet mode (R316). -/
def octetPorts (mode : Nat) : Nat × Nat :=
  match mode with
  | 0 => (0, 8)
  | 1 => (1, 8)
  | 2 => (2, 4)
  | 3 => (4, 2)
  | _ => (8, 1)

/-- The ports of a list of octet modes: mode, first lane, lanes (R317). -/
def portMap (octets : List Nat) : List (Nat × Nat × Nat) :=
  (octets.zipIdx.map (fun (x : Nat × Nat) =>
    (List.range (octetPorts x.1).1).map (fun j => (x.1, 8 * x.2 + j * (octetPorts x.1).2, (octetPorts x.1).2)))).flatten

/-- A tile of the mosaic with the channel it shows (R228, R229). -/
def tileLimits (canvas : Nat) (ps : List ChannelPlan) (t : TilePlan) : Bool :=
  let c := canvasSize canvas
  t.tile < 16 && t.x % 2 = 0 && t.y % 2 = 0 && t.w % 2 = 0 && t.h % 2 = 0 && t.border % 2 = 0 && t.border ≤ 16 && t.x + t.w ≤ c.1 &&
    t.y + t.h ≤ c.2 && t.scl < 48 && t.out < 16 &&
    (match ps.find? (fun p => p.channel = t.channel) with
      | some p =>
        let w := t.w - 2 * t.border
        let h := t.h - 2 * t.border
        0 < w && 0 < h && w ≤ p.width && h ≤ p.height && p.width ≤ 8 * w && p.height ≤ 8 * h &&
          tapsFit (givenCtl p t.scl t.out (OUT_CTL t.scl t.out).reset) p.width
      | none => false)

/-- Whether two tiles overlap. -/
def tilesMeet (a b : TilePlan) : Bool := a.x < b.x + b.w && b.x < a.x + a.w && a.y < b.y + b.h && b.y < a.y + a.h

/-- The output rate of a tile under a slice, in thousandths of samples a second. -/
def tileRate (t : TilePlan) (p : ChannelPlan) : Nat :=
  (t.w - 2 * t.border) * (t.h - 2 * t.border) * 3 * 1000000000000 * p.tfDen / max 1 p.tfNum

/-- The output rate of a mosaic scaler against check 3 of R33: of each tile the greatest of the slices its channel has (R228). -/
def mosaicRate (ps : List ChannelPlan) (tiles : List TilePlan) (j : Nat) : Nat :=
  ((tiles.filter (fun t => t.scl = j)).map (fun t =>
    ((ps.filter (fun p => p.channel = t.channel)).map (tileRate t)).foldl max 0)).sum

/-- The mosaic (R228, R229). -/
def mosaicLimits (d : DevicePlan) (ps : List ChannelPlan) : Bool :=
  d.canvas ≤ 3 && d.tiles.length ≤ 16 && noTwice (d.tiles.map (fun t => t.tile)) && d.tiles.all (tileLimits d.canvas ps) &&
    noTwice (d.tiles.map (fun t => 16 * t.scl + t.out)) &&
    d.tiles.all (fun a => d.tiles.all (fun b => a.tile = b.tile || !tilesMeet a b)) &&
    d.tiles.all (fun t => mosaicRate ps d.tiles t.scl ≤ 6000000000000) &&
    d.tiles.all (fun t => ps.all (fun p => p.outs.all (fun o => o.scl ≠ t.scl)))

/-- The ranges of W, in units of 100 ms, and of N of a fault class (R409). -/
def classRange (c : Nat) : (Nat × Nat) × (Nat × Nat) :=
  match c with
  | 0 => ((1, 600), (1, 65535))
  | 1 => ((10, 6000), (1, 255))
  | 2 => ((1, 600), (1, 65535))
  | 3 => ((10, 36000), (1, 255))
  | 4 => ((1, 600), (1, 255))
  | _ => ((10, 6000), (1, 65535))

/-- A setting of a fault class: class, W, N. -/
def classLimits (x : Nat × Nat × Nat) : Bool :=
  let r := classRange x.1
  x.1 < 6 && r.1.1 ≤ x.2.1 && x.2.1 ≤ r.1.2 && r.2.1 ≤ x.2.2 && x.2.2 ≤ r.2.2

/-- A queue with its bindings (R366). -/
def queueLimits (qs : List QueuePlan) (nports : Nat) (q : QueuePlan) : Bool :=
  q.qid < 32768 && 1 ≤ q.kind && q.kind ≤ 4 && (q.kind ≠ 3 || q.port < nports) && (q.kind ≠ 2 || q.bind < 256) &&
    (!(q.kind = 1 || q.kind = 3) || qs.any (fun x => x.kind = 2 && x.qid = q.bind)) &&
    (!q.devmem || (4 ≤ q.log2 && q.log2 ≤ 15 && q.base % 64 = 0))

/-- The DDR-5 in service, MiB (R490). -/
def ddrInService (s : State) : Nat :=
  ((List.range 8).map (fun k => if [2, 3].contains (oxState s (k + 2)) then (rd s (OX_CAP_MIB (k + 2))).toNat else 0)).sum

/-- The DDR-5 an image needs, MiB: the staging region and the rest of the system region in each copy, and the ring (R41, R342). -/
def ddrNeeded (s : State) (d : DevicePlan) : Nat := (systemCopies s).length * (512 + d.systemMiB) + d.ringMiB

/-- Whether the HBM3E set of a buffer has been withdrawn since reset (R490). -/
def setGone (s : State) (k : Nat) : Bool := rdBit s (OX_SET_STAT (k / 4)) (k % 4)

/-- The DEVICE section by itself (R229, R316, R317, R329, R366, R395, R409, R490). -/
def deviceLimits (s : State) (d : DevicePlan) (ps : List ChannelPlan) : Bool :=
  let nports := (portMap d.octets).length
  d.octets.length = 6 && d.octets.all (fun m => m ≤ 6) && nports ≤ 24 && d.queues.all (queueLimits d.queues nports) &&
    noTwice (d.queues.map (fun q => q.qid)) && d.irq.all (fun x => x.1 < 500 && x.2.1 < 8 && x.2.2 < 256) &&
    d.classes.all classLimits && noTwice (d.classes.map (fun x => x.1)) && d.flows.all (flowLimits nports) &&
    noTwice ((d.flows ++ (ps.map (fun p => p.flows)).flatten).map (fun f => f.rxf)) && mosaicLimits d ps && ddrNeeded s d ≤ ddrInService s

/-! ### Across channels -/

/-- Encoded channels of programmes (R256). -/
def encodedChannels (ps : List ChannelPlan) : Nat :=
  (ps.map (fun p => ((p.prgs.filter (fun g => g.codec < 4)).map (fun g => g.chans)).sum)).sum

/-- Slices together: no unit twice, each decode unit within its floor, at most 128 encoded channels (R55, R186, R256). -/
def togetherLimits (ps : List ChannelPlan) : Bool :=
  noTwice ((ps.map unitsOf).flatten) && (List.range 4).all (fun u => unitFits (unitLoad u ps)) && encodedChannels ps ≤ 128

/-- Step 10 on a full image. -/
def fullLimits (s : State) (r : ImageReading) : Bool :=
  match r.device with
  | none => false
  | some d =>
    let nports := (portMap d.octets).length
    r.channels.all (sliceLimits true nports) && togetherLimits r.channels && deviceLimits s d r.channels &&
      r.channels.all (fun p => p.hbmSets.all (fun k => !setGone s k)) &&
      (List.range nports).all (fun x =>
        ((r.channels.map (portLoad x)).sum) ≤ lineRate (((portMap d.octets).getD x (0, 0, 0)).1))

/-- R180: a rendition that a re-plan keeps may change R, Bsize and MODE only so that its model goes on. -/
def keptLimits (old new : ChannelPlan) : Bool :=
  new.rends.all (fun r => match old.rends.find? (fun x => x.id = r.id) with
    | none => true
    | some x =>
      if x.codec ≠ r.codec || x.dest ≠ r.dest || (x.rate = r.rate && x.cpb = r.cpb && x.mode = r.mode) then true
      else x.cpb ≤ r.cpb && r.hdrMax + r.lrMax ≤ (frameBits old x.rate).1)

/-- The ports the device has. -/
def portCount (s : State) : Nat := ((List.range 24).filter (fun p => rdFld s (P_PORT_CFG p) 12 9 ≠ 0)).length

/-- The larger of two loads: of the slice in force and of the one a channel waits for. -/
def claimedLoad (s : State) (n : Nat) (f : ChannelPlan → Nat) : Nat := (claimsOf s n).foldl (fun a p => max a (f p)) 0

/-- The load of every channel but one. -/
def othersLoad (s : State) (n : Nat) (f : ChannelPlan → Nat) : Nat := ((otherThan n).map (fun m => claimedLoad s m f)).sum

/-- Whether the mosaic of the image in force still keeps its limits with a channel's new slice (R226, R228, R229). -/
def mosaicKept (s : State) (p : ChannelPlan) : Bool :=
  let tiles := mosaicTiles s
  let ps := p :: ((otherThan p.channel).map (claimsOf s)).flatten
  p.rends.isEmpty || ((tiles.filter (fun t => t.channel = p.channel)).all (tileLimits (rdFld s DPO_CANVAS 1 0) [p]) &&
    tiles.all (fun t => mosaicRate ps tiles t.scl ≤ 6000000000000))

/-- Step 10 on a re-plan: the slice by itself and, with what the other channels hold or will hold, each decode unit's floor and the
encoded channels (R55, R180, R186, R256). -/
def replanLimits (s : State) (p : ChannelPlan) (restart : Bool) : Bool :=
  sliceLimits false (portCount s) p && togetherLimits [p] && mosaicKept s p &&
    (List.range 4).all (fun u => unitFits (addRate (slotRate u p) (sumRates ((otherThan p.channel).map (fun m =>
      (claimsOf s m).foldl (fun a x => maxRate a (slotRate u x)) (0, 1)))))) &&
    encodedChannels [p] + othersLoad s p.channel (fun x => encodedChannels [x]) ≤ 128 &&
    (restart || (chan s p.channel).plan.all (fun old => keptLimits old p))

/-- The receive flows of the DEVICE section in force. -/
def deviceFlows (s : State) : List FlowPlan := ((s.img.inForce.bind (fun i => i.reading.device)).map (fun d => d.flows)).getD []

/-- Whether a re-plan claims a unit, or port capacity, that is not free for its channel (R62). -/
def claimsTaken (s : State) (p : ChannelPlan) : Bool :=
  let mine := unitsOf p
  let theirs := ((otherThan p.channel).map (fun m => ((claimsOf s m).map unitsOf).flatten)).flatten ++
    (mosaicScalers s).map (fun j => 100 + j) ++ (deviceFlows s).map (fun f => 600 + f.rxf)
  mine.any (fun u => theirs.contains u) ||
    (List.range 24).any (fun x => portLoad x p ≠ 0 &&
      lineRate (rdFld s (P_PORT_CFG x) 2 0) < portLoad x p + othersLoad s p.channel (portLoad x))

end Sys2Proof.Machine
end

