-- ==== Sys2Proof/Machine/Hash.lean ====
section
/-!
DEFINITION. The digest and the signature algorithm the manual names for images, firmware, the measurement log and quotes: SHA-256
(FIPS 180-4) and HSS/LMS (RFC 8554) with the one parameter set of R52. PRESUMED from those standards (log entry 20).
-/
namespace Sys2Proof.Machine

/-! ### SHA-256 -/

/-- The round constants. -/
def shaK : List Word :=
  [0x428A2F98, 0x71374491, 0xB5C0FBCF, 0xE9B5DBA5, 0x3956C25B, 0x59F111F1, 0x923F82A4, 0xAB1C5ED5] ++
  [0xD807AA98, 0x12835B01, 0x243185BE, 0x550C7DC3, 0x72BE5D74, 0x80DEB1FE, 0x9BDC06A7, 0xC19BF174] ++
  [0xE49B69C1, 0xEFBE4786, 0x0FC19DC6, 0x240CA1CC, 0x2DE92C6F, 0x4A7484AA, 0x5CB0A9DC, 0x76F988DA] ++
  [0x983E5152, 0xA831C66D, 0xB00327C8, 0xBF597FC7, 0xC6E00BF3, 0xD5A79147, 0x06CA6351, 0x14292967] ++
  [0x27B70A85, 0x2E1B2138, 0x4D2C6DFC, 0x53380D13, 0x650A7354, 0x766A0ABB, 0x81C2C92E, 0x92722C85] ++
  [0xA2BFE8A1, 0xA81A664B, 0xC24B8B70, 0xC76C51A3, 0xD192E819, 0xD6990624, 0xF40E3585, 0x106AA070] ++
  [0x19A4C116, 0x1E376C08, 0x2748774C, 0x34B0BCB5, 0x391C0CB3, 0x4ED8AA4A, 0x5B9CCA4F, 0x682E6FF3] ++
  [0x748F82EE, 0x78A5636F, 0x84C87814, 0x8CC70208, 0x90BEFFFA, 0xA4506CEB, 0xBEF9A3F7, 0xC67178F2]

/-- The initial hash value. -/
def shaInit : List Word :=
  [0x6A09E667, 0xBB67AE85, 0x3C6EF372, 0xA54FF53A, 0x510E527F, 0x9B05688C, 0x1F83D9AB, 0x5BE0CD19]

/-- Rotate a word right. -/
def rotr (x : Word) (n : Nat) : Word := (x >>> n) ||| (x <<< (32 - n))

/-- The big-endian words of bytes. -/
def beWords : List Byte → List Word
  | a :: b :: c :: d :: r => wordOf (ofBe [a, b, c, d]) :: beWords r
  | _ => []

/-- The next word of the message schedule, from the last sixteen in order. -/
def shaNext (w : List Word) : Word :=
  let at_ (i : Nat) : Word := w.getD i 0
  let s0 := rotr (at_ 1) 7 ^^^ rotr (at_ 1) 18 ^^^ (at_ 1 >>> 3)
  let s1 := rotr (at_ 14) 17 ^^^ rotr (at_ 14) 19 ^^^ (at_ 14 >>> 10)
  at_ 0 + s0 + at_ 9 + s1

/-- One round on the working variables a to h. -/
def shaRound (v : List Word) (k w : Word) : List Word :=
  match v with
  | [a, b, c, d, e, f, g, h] =>
    let t1 := h + (rotr e 6 ^^^ rotr e 11 ^^^ rotr e 25) + ((e &&& f) ^^^ (~~~e &&& g)) + k + w
    let t2 := (rotr a 2 ^^^ rotr a 13 ^^^ rotr a 22) + ((a &&& b) ^^^ (a &&& c) ^^^ (b &&& c))
    [t1 + t2, a, b, c, d + t1, e, f, g]
  | _ => v

/-- The rounds of a block: the working variables and the last sixteen words of the schedule. -/
def shaRounds : List Word → List Word → List Word → List Word
  | [], v, _ => v
  | k :: ks, v, w => shaRounds ks (shaRound v k (w.getD 0 0)) (w.drop 1 ++ [shaNext w])

/-- Compress a block of 64 bytes. -/
def shaBlock (h : List Word) (block : List Byte) : List Word :=
  (h.zip (shaRounds shaK h (beWords block))).map (fun x => x.1 + x.2)

/-- The blocks of a padded message, at most `n`. -/
def shaBlocks : Nat → List Word → List Byte → List Word
  | 0, h, _ => h
  | n + 1, h, m => if m.isEmpty then h else shaBlocks n (shaBlock h (m.take 64)) (m.drop 64)

/-- SHA-256 of bytes. -/
def sha256 (m : List Byte) : List Byte :=
  let p := m ++ [0x80] ++ zeros ((119 - m.length % 64) % 64) ++ beBytes 8 (8 * m.length)
  ((shaBlocks (p.length / 64) shaInit p).map (fun w => beBytes 4 w.toNat)).flatten

/-! ### LMS and HSS verification (RFC 8554), LMS_SHA256_M32_H20 and LMOTS_SHA256_N32_W8 -/

/-- `n` bytes at an offset. -/
def cut (bs : List Byte) (off n : Nat) : List Byte := (bs.drop off).take n

/-- Run a Winternitz chain `n` steps from step `a`. -/
def lmotsRun (pre : List Byte) (a n : Nat) (y : List Byte) : List Byte :=
  (List.range n).foldl (fun t j => sha256 (pre ++ [BitVec.ofNat 8 (a + j)] ++ t)) y

/-- Run a Winternitz chain from step `a` to the top. -/
def lmotsChain (pre : List Byte) (a : Nat) (y : List Byte) : List Byte := lmotsRun pre a (255 - a) y

/-- The digits of a message digest: its bytes and the two bytes of its checksum. -/
def lmotsDigits (q : List Byte) : List Nat :=
  let sum := q.foldl (fun a b => a + (255 - b.toNat)) 0
  q.map (fun b => b.toNat) ++ [sum / 256 % 256, sum % 256]

/-- The one-time public key that a one-time signature of a message leads to. -/
def lmotsKey (ident qs : List Byte) (sig msg : List Byte) : List Byte :=
  let c := cut sig 4 32
  let q := sha256 (ident ++ qs ++ [0x81, 0x81] ++ c ++ msg)
  let zs := ((lmotsDigits q).zipIdx).map (fun x =>
    lmotsChain (ident ++ qs ++ beBytes 2 x.2) x.1 (cut sig (36 + 32 * x.2) 32))
  sha256 (ident ++ qs ++ [0x80, 0x80] ++ zs.flatten)

/-- Climb from a node to the root along a path. -/
def lmsClimb (ident : List Byte) : List (List Byte) → Nat → List Byte → List Byte
  | [], _, t => t
  | p :: ps, node, t =>
    let pre := ident ++ beBytes 4 (node / 2) ++ [0x83, 0x83]
    lmsClimb ident ps (node / 2) (if node % 2 = 1 then sha256 (pre ++ p ++ t) else sha256 (pre ++ t ++ p))

/-- Whether an LMS signature of 1,772 bytes verifies a message under a public key of 56 bytes. -/
def lmsVerify (key sig msg : List Byte) : Bool :=
  let ident := cut key 8 16
  let q := ofBe (cut sig 0 4)
  let k := lmotsKey ident (cut sig 0 4) (cut sig 4 1124) msg
  let leaf := sha256 (ident ++ beBytes 4 (2 ^ 20 + q) ++ [0x82, 0x82] ++ k)
  let path := (List.range 20).map (fun i => cut sig (1132 + 32 * i) 32)
  q < 2 ^ 20 && lmsClimb ident path (2 ^ 20 + q) leaf == cut key 24 32

/-- Whether a public key of 56 bytes names the types of R52. -/
def lmsKeyTypes (key : List Byte) : Bool := ofBe (cut key 0 4) = 8 && ofBe (cut key 4 4) = 4

/-- Whether an LMS signature names the types of R52. -/
def lmsSigTypes (sig : List Byte) : Bool := ofBe (cut sig 4 4) = 4 && ofBe (cut sig 1128 4) = 8

/-- The parameter checks of step 5 of R55 on a public key of 60 bytes and a signature of 3,604 bytes: L = 2 and the types. -/
def hssParams (pub sig : List Byte) : Bool :=
  ofBe (cut pub 0 4) = 2 && lmsKeyTypes (cut pub 4 56) && lmsSigTypes (cut sig 4 1772) && lmsKeyTypes (cut sig 1776 56) &&
    lmsSigTypes (cut sig 1832 1772)

/-- Whether a two-level HSS signature verifies a message (RFC 8554, Section 6.3). -/
def hssVerify (pub sig msg : List Byte) : Bool :=
  ofBe (cut sig 0 4) = 1 && lmsVerify (cut pub 4 56) (cut sig 4 1772) (cut sig 1776 56) &&
    lmsVerify (cut sig 1776 56) (cut sig 1832 1772) msg

/-! ### The device key (R53, R69, R71): keys and signatures of RFC 8554 over values derived from the fuses -/

/-- The number of the top-level tree among the trees of `Config.derive`; the bottom-level trees are 0 to 2^20 - 1. -/
def topTree : Nat := 2 ^ 20

/-- The identifier of a tree: the top one's is a fuse item (R53). -/
def treeIdent (f : Fuses) (t : Nat) : List Byte :=
  if t = topTree then padTo 16 f.ident else padTo 16 (Config.derive f.seed f.ident t 0 35)

/-- A private value or the randomiser of a leaf. -/
def leafSecret (f : Fuses) (t q i : Nat) : List Byte := padTo 32 (Config.derive f.seed f.ident t q i)

/-- The one-time public key of a leaf. -/
def leafKey (f : Fuses) (t q : Nat) : List Byte :=
  let pre := treeIdent f t ++ beBytes 4 q
  sha256 (pre ++ [0x80, 0x80] ++ ((List.range 34).map (fun i => lmotsChain (pre ++ beBytes 2 i) 0 (leafSecret f t q i))).flatten)

/-- A node of a tree with `h` levels below it. -/
def lmsNode (f : Fuses) (t : Nat) : Nat → Nat → List Byte
  | 0, r => sha256 (treeIdent f t ++ beBytes 4 r ++ [0x82, 0x82] ++ leafKey f t (r - 2 ^ 20))
  | h + 1, r => sha256 (treeIdent f t ++ beBytes 4 r ++ [0x83, 0x83] ++ lmsNode f t h (2 * r) ++ lmsNode f t h (2 * r + 1))

/-- The 2,048 nodes at depth 11 of a tree, in order, as the store holds them (R70, R72). -/
def treeNodes (f : Fuses) (t : Nat) : List Byte := ((List.range 2048).map (fun i => lmsNode f t 9 (2048 + i))).flatten

/-- A node `h` levels above depth 11, computed from the stored nodes (R72). -/
def upperNode (ident nodes : List Byte) : Nat → Nat → List Byte
  | 0, r => cut nodes (32 * (r - 2048)) 32
  | h + 1, r => sha256 (ident ++ beBytes 4 r ++ [0x83, 0x83] ++ upperNode ident nodes h (2 * r) ++ upperNode ident nodes h (2 * r + 1))

/-- A node with `h` levels below it, where the nodes at depth 11 are stored: below them the 512 leaves under one are computed again,
above them the nodes are computed from the stored ones (R72). -/
def nodeOf (f : Fuses) (t : Nat) (nodes : List Byte) (h r : Nat) : List Byte :=
  if h < 9 then lmsNode f t h r else upperNode (treeIdent f t) nodes (h - 9) r

/-- The public key of a tree: the types of R52, its identifier and root. -/
def lmsPub (f : Fuses) (t : Nat) (nodes : List Byte) : List Byte := beBytes 4 8 ++ beBytes 4 4 ++ treeIdent f t ++ nodeOf f t nodes 20 1

/-- The signature of a message with leaf `q` of a tree. -/
def lmsSign (f : Fuses) (t : Nat) (nodes : List Byte) (q : Nat) (msg : List Byte) : List Byte :=
  let pre := treeIdent f t ++ beBytes 4 q
  let c := leafSecret f t q 34
  let digits := lmotsDigits (sha256 (pre ++ [0x81, 0x81] ++ c ++ msg))
  let ys := digits.zipIdx.map (fun x => lmotsRun (pre ++ beBytes 2 x.2) 0 x.1 (leafSecret f t q x.2))
  let path := (List.range 20).map (fun i =>
    let r := (2 ^ 20 + q) / 2 ^ i
    nodeOf f t nodes i (if r % 2 = 0 then r + 1 else r - 1))
  beBytes 4 q ++ beBytes 4 4 ++ c ++ ys.flatten ++ beBytes 4 8 ++ path.flatten

/-- The device public key (R69). -/
def hssPub (f : Fuses) : List Byte := beBytes 4 2 ++ lmsPub f topTree (treeNodes f topTree)

/-- The signature of a message with a signature index: leaf q_bottom of tree q_top, whose key leaf q_top of the top tree signs; `nodes` are
the bottom tree's as the store holds them (R68, R71, R72). -/
def hssSign (f : Fuses) (nodes : List Byte) (index : Nat) (msg : List Byte) : List Byte :=
  let t := index / 2 ^ 20
  let pub := lmsPub f t nodes
  beBytes 4 1 ++ lmsSign f topTree (treeNodes f topTree) t pub ++ pub ++ lmsSign f t nodes (index % 2 ^ 20) msg

end Sys2Proof.Machine
end

