-- ==== Sys2Proof/Machine/Verify.lean ====
section
/-!
DEFINITION. The container of a Zarwyn image and its verification in the order of R55 (spec/02_zarwyn_image.md R48 to R55, R58, R62).
-/
namespace Sys2Proof.Machine

/-! ### Header, section table, signature block (R49, R50, R52) -/

/-- KIND: 1 full image, 2 re-plan. -/
def imgKind (b : List Byte) : Nat := leAt b 0x0B 1
/-- FLAGS. -/
def imgFlags (b : List Byte) : Nat := leAt b 0x0C 4
/-- FLAGS.EFFORT_DEGRADE. -/
def imgDegrade (b : List Byte) : Bool := imgFlags b % 2 = 1
/-- FLAGS.RESTART. -/
def imgRestart (b : List Byte) : Bool := imgFlags b / 2 % 2 = 1
/-- SIGNED_LEN. -/
def imgSigned (b : List Byte) : Nat := leAt b 0x10 8
/-- TOTAL_LEN. -/
def imgTotal (b : List Byte) : Nat := leAt b 0x18 8
/-- SEC_COUNT. -/
def imgSecs (b : List Byte) : Nat := leAt b 0x20 2
/-- SVN. -/
def imgSvn (b : List Byte) : Nat := leAt b 0x24 4
/-- IMAGE_ID. -/
def imgId (b : List Byte) : List Byte := cut b 0x30 16
/-- CH_MASK. -/
def imgMask (b : List Byte) : Nat := leAt b 0x40 2
/-- REPLAN_CH. -/
def imgChannel (b : List Byte) : Nat := leAt b 0x42 1
/-- BASE_ID. -/
def imgBase (b : List Byte) : List Byte := cut b 0x68 16
/-- The image message M (R48). -/
def imgMessage (b : List Byte) : List Byte := b.take (128 + 48 * imgSecs b)
/-- Whether HDR_LEN and SEC_COUNT are in range and the copy holds M (R66). -/
def imgDelimited (b : List Byte) : Bool :=
  128 ≤ b.length && leAt b 0x06 2 = 128 && 1 ≤ imgSecs b && imgSecs b ≤ 64 && 128 + 48 * imgSecs b ≤ b.length
/-- The channels CH_MASK names. -/
def imgChannels (b : List Byte) : List Nat := (List.range 16).filter (fun n => imgMask b / 2 ^ n % 2 = 1)

/-- An entry of the section table (R50). -/
structure ImgSection where
  type : Nat
  channel : Nat
  reserved : Nat
  len : Nat
  off : Nat
  digest : List Byte
  deriving DecidableEq, Repr

/-- The entries of the section table. -/
def imgTable (b : List Byte) : List ImgSection :=
  (List.range (imgSecs b)).map (fun i =>
    let o := 128 + 48 * i
    { type := leAt b o 2, channel := leAt b (o + 2) 1, reserved := leAt b (o + 3) 1, len := leAt b (o + 4) 4, off := leAt b (o + 8) 8
      digest := cut b (o + 16) 32 })

/-- The section of a type and channel. -/
def findSection (b : List Byte) (type channel : Nat) : Option ImgSection :=
  (imgTable b).find? (fun x => x.type = type && x.channel = channel)

/-- The bytes of a section; none where there is no such section. -/
def sectionBytes (b : List Byte) (type channel : Nat) : List Byte :=
  match findSection b type channel with
  | some x => cut b x.off x.len
  | none => []

/-- The first multiple of 64 at or after a number. -/
def up64 (n : Nat) : Nat := (n + 63) / 64 * 64

/-- Where the sections end when each starts at the first 64-byte boundary after the one before; none where one does not (R50). -/
def layoutEnd : Nat → List ImgSection → Option Nat
  | at_, [] => some at_
  | at_, x :: xs => if x.off = up64 at_ then layoutEnd (x.off + x.len) xs else none

/-! ### Step 1: format (R55) -/

/-- Whether a section type is per channel (R51). -/
def perChannel (t : Nat) : Bool := t = 0x10 || t = 0x11 || t = 0x12

/-- The types, channels and required sections of R51. -/
def sectionsOk (b : List Byte) : Bool :=
  let t := imgTable b
  let count_ (ty : Nat) : Nat := (t.filter (fun x => x.type = ty)).length
  t.all (fun x => x.reserved = 0 && [0x01, 0x02, 0x10, 0x11, 0x12, 0xE0, 0xF0].contains x.type &&
    (if perChannel x.type then x.channel < 16 else x.channel = 0xFF)) &&
    noTwice (t.map (fun x => 256 * x.type + x.channel)) && count_ 0xF0 = 1 &&
    (if imgKind b = 1 then
      count_ 0x01 = 1 && count_ 0x02 = 1 && sortNat ((t.filter (fun x => x.type = 0x10)).map (fun x => x.channel)) = imgChannels b
    else
      imgChannel b < 16 && imgMask b = 2 ^ imgChannel b && count_ 0x01 = 0 && count_ 0x02 = 0 && count_ 0xE0 = 0 && count_ 0x10 = 1 &&
        t.all (fun x => !perChannel x.type || x.channel = imgChannel b))

/-- LENGTH of the FIRMWARE section against its FW_LEN, and the reserved bytes of its header (R51). -/
def firmwareLen (b : List Byte) : Bool :=
  match findSection b 0x02 0xFF with
  | none => true
  | some x => 16 + leAt b x.off 4 + 3664 = x.len && (cut b (x.off + 8) 8).all (fun y => y == 0)

/-- BUILD of the FIRMWARE section (R51). -/
def imgBuild (b : List Byte) : Word :=
  match findSection b 0x02 0xFF with
  | none => 0
  | some x => wordOf (leAt b (x.off + 4) 4)

/-- Step 1. `src` is SRC_LEN of an image pushed by the host. R49 fixes REPLAN_CH and BASE_ID of a full image and step 1 names neither; an
image that breaks them is refused here, with 0x01 (DESIGN CHOICE, log entry 62). -/
def formatOk (b : List Byte) (replan : Bool) (src : Option Nat) : Bool :=
  128 ≤ b.length && cut b 0 4 = [0x5A, 0x57, 0x49, 0x31] && leAt b 0x04 2 = 1 && leAt b 0x06 2 = 128 &&
    imgKind b = (if replan then 2 else 1) && imgFlags b < 4 && (replan || !imgRestart b) &&
    (replan || (imgChannel b = 0xFF && (imgBase b).all (fun x => x == 0))) && leAt b 0x22 2 = 0 && leAt b 0x2C 4 = 0 && leAt b 0x43 5 = 0 && leAt b 0x78 8 = 0 && 1 ≤ imgSecs b && imgSecs b ≤ 64 &&
    imgSigned b % 64 = 0 && imgSigned b + 3672 ≤ 2 ^ 29 && imgTotal b = imgSigned b + 3672 && src.getD (imgTotal b) = imgTotal b &&
    b.length = imgTotal b && (layoutEnd (128 + 48 * imgSecs b) (imgTable b)).map up64 = some (imgSigned b) && sectionsOk b &&
    firmwareLen b && cut b (imgSigned b) 4 = [0x5A, 0x53, 0x49, 0x47] &&
    leAt b (imgSigned b + 5) 3 = 0

/-! ### Steps 2 to 8 -/

/-- Step 2. -/
def partOk (b : List Byte) : Bool := leAt b 0x08 2 = 0x9640 && leAt b 0x0A 1 = 0xB1

/-- Step 3. -/
def svnOk (s : State) (b : List Byte) (replan : Bool) : Bool :=
  s.fuses.floor ≤ imgSvn b && (!replan || s.img.inForce.all (fun i => i.svn ≤ imgSvn b))

/-- KEY_DIGEST of a slot (R53). -/
def keyDigest (s : State) (slot : Nat) : List Byte := padTo 32 (s.fuses.digests.getD slot [])

/-- HSS_PUB of an image. -/
def imgPub (b : List Byte) : List Byte := cut b (imgSigned b + 8) 60
/-- HSS_SIG of an image. -/
def imgSig (b : List Byte) : List Byte := cut b (imgSigned b + 0x44) 3604

/-- Step 4. -/
def keyOk (s : State) (b : List Byte) : Bool :=
  let slot := leAt b (imgSigned b + 4) 1
  sha256 (imgPub b) == keyDigest s slot && s.fuses.enrolled.getLsbD slot && !s.fuses.revoked.getLsbD slot

/-- Whether bytes from one offset to another are 0. -/
def zeroFrom (b : List Byte) (lo hi : Nat) : Bool := ((b.drop lo).take (hi - lo)).all (fun x => x == 0)

/-- The padding after each section and after the table is 0 and each section's digest is right. -/
def sectionsTrue (b : List Byte) : Nat → List ImgSection → Bool
  | at_, [] => zeroFrom b at_ (imgSigned b)
  | at_, x :: xs => zeroFrom b at_ x.off && sha256 (cut b x.off x.len) == x.digest && sectionsTrue b (x.off + x.len) xs

/-- Step 8. -/
def firmwareOk (s : State) (b : List Byte) : Bool :=
  let f := sectionBytes b 0x02 0xFF
  let n := 16 + leAt f 0 4
  let pub := cut f n 60
  let sig := cut f (n + 60) 3604
  sha256 pub == keyDigest s 0 && hssParams pub sig && hssVerify pub sig (f.take n)

/-! ### Step 9: budget (R58) -/

/-- An entry of the BUDGET section. -/
structure BudgetEntry where
  channel : Nat
  flags : Nat
  engines : Nat
  scouts : Nat
  encode : Nat
  rate : Nat
  occupancy : Nat
  deriving DecidableEq, Repr

/-- The entries of the BUDGET section. -/
def budgetOf (b : List Byte) : List BudgetEntry :=
  let x := sectionBytes b 0xF0 0xFF
  (List.range (x.length / 16)).map (fun i =>
    { channel := leAt x (16 * i) 1, flags := leAt x (16 * i + 1) 1, engines := leAt x (16 * i + 2) 1, scouts := leAt x (16 * i + 3) 1
      encode := leAt x (16 * i + 4) 4, rate := leAt x (16 * i + 8) 4, occupancy := leAt x (16 * i + 12) 4 })

/-- The form of the section: one entry for each channel the image defines. -/
def budgetForm (b : List Byte) : Bool :=
  (sectionBytes b 0xF0 0xFF).length % 16 = 0 && noTwice ((budgetOf b).map (fun e => e.channel)) &&
    sortNat ((budgetOf b).map (fun e => e.channel)) = (if imgKind b = 1 then imgChannels b else [imgChannel b])

/-- An entry against the assignment of its channel: the encode and analysis checks of R33. -/
def entryOk (degrade : Bool) (ps : List ChannelPlan) (e : BudgetEntry) : Bool :=
  match ps.find? (fun p => p.channel = e.channel) with
  | none => false
  | some p =>
    e.engines = 8 * p.clusters.length && e.scouts = p.clusters.length && e.flags = b2n degrade &&
      (if degrade then e.encode * 45 ≤ e.engines * 100000000 else e.encode ≤ e.engines * 1000000) && e.rate ≤ e.scouts * 4000000

/-- Occupancy of the channels other than one, each at the larger of its entry in force and of its pending re-plan's (R58). -/
def keptOccupancy (s : State) (n : Nat) : Nat :=
  let inForce := (s.img.inForce.map (fun i => i.occupancy)).getD []
  ((otherThan n).map (fun m =>
    max ((mget inForce m).getD 0) (((chan s m).pend.bind (fun x => mget x.info.occupancy m)).getD 0))).sum

/-- Whether the assignment of every CHANNEL section can be read (R58). -/
def assignmentsRead (b : List Byte) (r : ImageReading) : Bool :=
  r.readable && sortNat (r.channels.map (fun p => p.channel)) = (if imgKind b = 1 then imgChannels b else [imgChannel b]) &&
    noTwice (r.channels.map (fun p => p.channel)) && r.channels.all (fun p => p.clusters.all (fun c => c < 16))

/-- The checks on the entries. -/
def budgetOk (s : State) (b : List Byte) (r : ImageReading) : Bool :=
  let es := budgetOf b
  let sum := (es.map (fun e => e.occupancy)).sum
  es.all (entryOk (imgDegrade b) r.channels) &&
    sum + (if imgKind b = 1 then 0 else keptOccupancy s (imgChannel b)) ≤ 73728

/-! ### Step 10 and the conditions of R62 -/

/-- A channel has no boundary to offer: it has no running grid (R63). -/
def noBoundary (s : State) (n : Nat) : Bool := !rdBit s (CH_STAT n) 1 && !rdBit s (CH_STAT n) 2

/-- The conditions of R62 in the order of its table; 0 where they hold. -/
def replanCode (s : State) (b : List Byte) (p : ChannelPlan) : Nat :=
  let n := imgChannel b
  let same := match (chan s n).plan with
    | none => true
    | some o => o.delay ≤ p.delay && o.tfNum * p.tfDen = p.tfNum * o.tfDen
  if !(s.img.inForce.any (fun i => i.imageId = imgBase b)) then 0x0C
  else if (chan s n).pend.isSome || s.img.forced.isSome then 0x0D
  else if claimsTaken s p then 0x0B
  else if !imgRestart b && !noBoundary s n && !same then 0x0E
  else 0

/-- Step 10: the structure, and for a re-plan the conditions of R62. -/
def structureCode (s : State) (b : List Byte) (r : ImageReading) : Nat :=
  if imgKind b = 1 then (if fullLimits s r then 0 else 0x12)
  else match r.channels with
    | [p] => if replanLimits s p (imgRestart b) then replanCode s b p else 0x12
    | _ => 0x12

/-- The result code of verification: the first failure in the order of R55, 0 where every step passes. -/
def verifyCode (s : State) (replan : Bool) (src : Option Nat) (b : List Byte) (r : ImageReading) : Nat :=
  if !formatOk b replan src then 0x01
  else if !partOk b then 0x02
  else if !svnOk s b replan then 0x04
  else if !keyOk s b then 0x05
  else if !hssParams (imgPub b) (imgSig b) then 0x06
  else if !hssVerify (imgPub b) (imgSig b) (imgMessage b) then 0x07
  else if !sectionsTrue b (128 + 48 * imgSecs b) (imgTable b) then 0x08
  else if !replan && !firmwareOk s b then 0x09
  else if !budgetForm b then 0x0A
  else if !assignmentsRead b r then 0x12
  else if !budgetOk s b r then 0x0A
  else structureCode s b r

/-- What was read in the sections that the image has: without an OTP_UPDATE section nothing is asked of the fuses, without a channel's
SCALER or AUDIO section it has no scaler output or no audio (R51, R54). -/
def sectionsRead (b : List Byte) (r : ImageReading) : ImageReading :=
  { r with
    device := if (findSection b 0x01 0xFF).isSome then r.device else none
    otp := if (findSection b 0xE0 0xFF).isSome then r.otp else none
    channels := r.channels.map (fun p =>
      let p := if (findSection b 0x11 p.channel).isSome then p else { p with outs := [], coefs := [] }
      if (findSection b 0x12 p.channel).isSome then p else { p with aps := [], nfs := [], prgs := [] }) }

/-- A verified image with what was read in its sections. -/
def imageInfo (b : List Byte) (src : LoadSource) (r : ImageReading) : ImageInfo :=
  { imageId := imgId b, build := imgBuild b, svn := imgSvn b, meas := sha256 (imgMessage b), source := src, degrade := imgDegrade b, restart := imgRestart b
    reading := r
    occupancy := (budgetOf b).foldl (fun m e => mput m e.channel e.occupancy) [] }

end Sys2Proof.Machine
end

