-- ==== Sys2Proof/Machine/Image.lean ====
section
/-!
DEFINITION. Loading and re-plans: the measurement log, fuses, a full image taking effect, the load commands
(spec/02_zarwyn_image.md R54 to R66, R73 to R76; R507).
-/
namespace Sys2Proof.Machine

/-! ### The measurement log (R66) -/

/-- SOURCE of a log entry. -/
def sourceCode (x : LoadSource) : Nat :=
  match x with
  | .flash0 => 0
  | .flash1 => 1
  | .host | .queue _ _ => 2

/-- Words of consecutive registers as bytes. -/
def regBytes (s : State) (r : Nat → Reg) (n : Nat) : List Byte := ((List.range n).map (fun w => wordBytes (rd s (r w)))).flatten

/-- Append an entry: the chain goes on and the last 1,024 entries are kept. -/
def appendLog (s : State) (kind ch : Nat) (src : LoadSource) (code svn : Nat) (meas : List Byte) : State :=
  let seq := rd s IMG_LOG_COUNT
  let e := wordBytes seq ++ leBytes 1 kind ++ leBytes 1 ch ++ leBytes 1 (sourceCode src) ++ leBytes 1 code ++ leBytes 8 s.raw.toNat ++
    leBytes 4 svn ++ zeros 4 ++ padTo 32 meas ++ zeros 8
  let s := wrWords s IMG_LOG_CHAIN 0 (bytesWords (sha256 (regBytes s IMG_LOG_CHAIN 8 ++ e)))
  let all := s.img.logEntries ++ [e]
  let s := { s with img := { s.img with logEntries := all.drop (all.length - 1024) } }
  wr s IMG_LOG_COUNT (seq + 1)

/-- The SEQ of the newest entry. -/
def lastLog (s : State) : Word := rd s IMG_LOG_COUNT - 1

/-- The channel a refused entry names: REPLAN_CH of a re-plan header that was read (R66, R74). -/
def headerChannel (b : List Byte) : Nat := if 128 ≤ b.length && imgKind b = 2 then imgChannel b else 0xFF

/-- The entry of a refusal, from as much of the image as was copied. -/
def logRefusal (s : State) (src : LoadSource) (code : Nat) (b : List Byte) : State :=
  appendLog s 0x03 (headerChannel b) src code (if 128 ≤ b.length then imgSvn b else 0) (if imgDelimited b then sha256 (imgMessage b) else [])

/-! ### Fuses (R54) -/

/-- Burn what an OTP_UPDATE section asks for. A fuse that does not read back is left as a free value leaves it (log entry 6). A floor above
the 64 fuses is not burnt, and a section that enrols and revokes one slot burns both fuses, the enrolment judged on the fuses before
(DESIGN CHOICE, log entry 62). -/
def burnFuses (s : State) (svn : Nat) (u : OtpUpdate) : State :=
  let f := s.fuses
  let (x, s) := takeFree s
  let took : BitVec 4 := if u.readBackOk then BitVec.allOnes 4 else BitVec.ofNat 4 (Config.freeNat x 0)
  let slot := u.enrolSlot
  let mayEnrol := 1 ≤ slot && slot ≤ 3 && !f.enrolled.getLsbD slot && !f.revoked.getLsbD slot
  let enrol : BitVec 4 := if mayEnrol then BitVec.ofNat 4 (2 ^ slot) else 0
  let digest := if u.readBackOk then padTo 32 u.digest else freeBytes x 32
  let digests := if mayEnrol then (f.digests ++ List.replicate (4 - f.digests.length) (zeros 32)).set slot digest else f.digests
  let revoke : BitVec 4 := BitVec.ofNat 4 (u.revoke / 2 % 8 * 2)
  let top := if u.floor ≤ min svn 64 then max f.floor u.floor else f.floor
  let floor := if u.readBackOk then top else f.floor + Config.freeNat x 1 % (top - f.floor + 1)
  let g : Fuses := { f with
    digests := digests
    enrolled := f.enrolled ||| (enrol &&& took)
    revoked := f.revoked ||| (revoke &&& took)
    floor := floor }
  onlyIf (decide (g ≠ f)) { s with fuses := g } (fun s => setEvt s IMG_EVT 6)

/-- Apply an image's OTP_UPDATE section; answers whether every fuse read back. -/
def applyOtp (s : State) (svn : Nat) (u : Option OtpUpdate) : State × Bool :=
  match u with
  | none => (s, true)
  | some u =>
    let s := burnFuses s svn u
    if u.readBackOk then (s, true) else ({ s with fatal := true }, false)

/-! ### A full image takes effect (R59, R395, R409, R427, R432, R507) -/

/-- The slice of a channel that no image defines. -/
def noSlice (n : Nat) : ChannelPlan :=
  { channel := n, clusters := [], slot := none, width := 0, height := 0, tfNum := 0, tfDen := 0, delay := 0, hold := 0, tl := 1
    c420 := false, colour := 0, mdcv := none, cll := none, capsFlow := false, layers := [], resolutions := [], rwf := [], rends := [], outs := []
    coefs := [], aps := [], nfs := [], prgs := [], flows := [], hbmSets := [], longestAu := 0, metaShare := 0 }

/-- Every channel leaves the image before: what it still held is dropped, its units are free. -/
def clearChannel (s : State) (n : Nat) : State :=
  let s := modChan (dropSplices s n) n (fun c => { Chan.reset with
    plan := c.plan
    dirty := c.dirty
    j := c.j
    begun := c.begun })
  let s := forEach ((List.range 7).map (fun i => i + 1)) s (fun l s => wrFld s (LY_L_STAT n l) 7 4 0)
  let s := wrBit (wrBit (wrBit s (CH_STAT n) 1 false) (CH_STAT n) 2 false) (CH_STAT n) 3 false
  let s := wr (wr (wr s (CH_RWF_GEN n) 0) (CH_FRAME_LO n) 0) (CH_FRAME_HI n) 0
  installSlice s (noSlice n) { seq := 0, restart := true, since := none }

/-- The streams of the image before hold no unit any more; their unit sequences go on, and no re-send runs (R287, R290). -/
def clearStreams (s : State) : State :=
  let s := { wrFld s EGR_RESEND_ACT 4 0 0 with
    resends := []
    streams := (wrFld s EGR_RESEND_ACT 4 0 0).streams.map (fun x => { x with
      audio := []
      held := []
      lostAt := none
      old := none
      oldAudio := 0
      lastAck := none }) }
  forEach (s.streams.map (fun x => x.id)) s (fun i s => showHeld s i)

/-- Every engine stops; what a cluster had loaded is gone. -/
def clearEngines (s : State) : State :=
  forEach (List.range 128) s (fun e s =>
    let s := modEng s e (fun x => { x with
      item := none
      edges := [] })
    if engState s e = 2 then setEngState (wrBit s (ENG_STAT e) 3 false) e 1 else s)

/-- Clusters that serve no channel are powered down (R487). -/
def powerClusters (s : State) : State :=
  forEach (List.range 16) s (fun c s =>
    if rdBit s (CL_STAT c) 4 then s
    else
      let s := wrBit s (CL_STAT c) 5 false
      forEach ((List.range 8).map (fun i => 8 * c + i)) s (fun e s => if engState s e = 4 then s else setEngState s e 5))

/-- The ports of an image: each begins its first attempt with no wait (R317, R319). -/
def installPorts (s : State) (d : DevicePlan) : State :=
  let map := portMap d.octets
  let first (k : Nat) : Nat := (portMap (d.octets.take k)).length
  let s := forEach (List.range 6) s (fun k s => wr s (LANE_OCT_CFG k) (mkWord [(2, 0, d.octets.getD k 0), (7, 3, first k)]))
  let s := forEach (List.range 48) s (fun l s =>
    let p := map.findIdx (fun x => x.2.1 ≤ l && l < x.2.1 + x.2.2)
    wrBit (wrBit (wrFld s (LN_STAT l) 10 5 (if p < map.length then p else 0x3F)) (LN_STAT l) 2 false) (LN_STAT l) 3 false)
  forEach (List.range 24) s (fun p s =>
    let s := modPort s p (fun x => { PortSt.reset with
      txts := x.txts
      txtsGap := x.txtsGap
      since := s.raw })
    match map[p]? with
    | none =>
      let s := wr (wrFld (wr s (P_PORT_CFG p) 0) (P_PORT_STATE p) 3 0 0) (TXP_LAT_TX p) 0
      showPortHold (wr s (TXP_LAT_RX p) 0) p
    | some (mode, lane, n) =>
      let s := wr s (P_PORT_CFG p)
        (mkWord [(2, 0, mode), (8, 3, lane), (12, 9, n), (13, 13, b2n (mode ≠ 1 && d.anEn.getD p false)),
          (14, 14, b2n (mode ≤ 4 || (mode = 5 && d.fec.getD p false)))])
      let s := wrFld (wrFld s (P_PORT_STATE p) 3 0 (if rdBit s (P_PORT_CTL p) 0 then 6 else 1)) (P_PORT_STATE p) 20 16 0
      let s := wr (wr s (TXP_LAT_TX p) (wordOf (d.latTx.getD p 0))) (TXP_LAT_RX p) (wordOf (d.latRx.getD p 0))
      showPortHold s p)

/-- The receive flows of an image's DEVICE section; those of its channels come with their slices (R329, R336). -/
def installFlows (s : State) (fs : List FlowPlan) : State :=
  forEach fs (forEach (List.range 128) s (fun f s => freeRxf s f)) (fun x s => defineRxf s x)

/-- The mosaic of an image (R228, R229, R241, R242). A link that is trained when the canvas mode changes keeps its rate; depth, video and
LINK_SHORT are decided anew at it (DESIGN CHOICE, log entry 62: the manual does not say). -/
def installMosaic (s : State) (d : DevicePlan) : State :=
  let s := forEach ((List.range 48).filter (fun j => rdFld s (SCL_STAT j) 1 0 = 2)) s (fun j s => clearScaler s j)
  let s := { s with tiles := List.replicate 16 TileBuf.reset }
  let s := forEach (List.range 16) s (fun t s => wr (wr (wr s (DPO_TILE_POS t) 0) (DPO_TILE_DIM t) 0) (DPO_TILE_CFG t) 0)
  let s := forEach d.tiles s (fun t s =>
    let s := wr s (SCL_STAT t.scl) (mkWord [(1, 0, 2), (12, 8, (d.tiles.filter (fun x => x.scl = t.scl)).length)])
    let s := wr s (OUT_CFG t.scl t.out) (mkWord [(0, 0, 1), (1, 1, 1), (7, 4, t.channel), (15, 12, t.tile), (17, 16, 2)])
    let s := wr s (OUT_DIM t.scl t.out) (mkWord [(15, 0, t.w - 2 * t.border), (31, 16, t.h - 2 * t.border)])
    let s := wr s (DPO_TILE_POS t.tile) (mkWord [(15, 0, t.x), (31, 16, t.y)])
    let s := wr s (DPO_TILE_DIM t.tile) (mkWord [(15, 0, t.w), (31, 16, t.h)])
    wr s (DPO_TILE_CFG t.tile) (mkWord [(3, 0, t.channel), (4, 4, 1), (12, 8, t.border)]))
  if rdFld s DPO_CANVAS 1 0 = d.canvas then s
  else
    let s := wrFld s DPO_CANVAS 1 0 d.canvas
    if rdBit s DPO_STAT 1 then dpVideo (wrFld s DPO_STAT 6 4 0) (rdFld s DPO_STAT 3 2) else s

/-- Pairing as an image sets it: CK[6] and CK[7] serve the link; a standby's channels are diverged and it holds no epoch until it
joins (R427, R432, R436, R448, R462). -/
def installPairing (s : State) (paired : Bool) : State :=
  let s := wrBit s MULE_PAIR_CTL 0 paired
  let s := if paired then wr (wr s (CK_CTL 6) 0x19) (CK_CTL 7) 0x1D
    else forEach [6, 7] s (fun i s => if rdBit s (CK_CTL i) 4 then wr s (CK_CTL i) 0 else s)
  let s := setDrive s (paired && holdDrive s)
  let s := modPair s (fun p => { p with
    ackDue := []
    deferred := []
    refused := []
    aligned := p.aligned && paired
    lastHealthRx := if paired then some s.raw else none })
  if role s = 2 then showStale (divergeAll (wr s MULE_EPOCH 0) 0xB) else s

/-- What the DEVICE section sets. -/
def installDevice (s : State) (d : DevicePlan) : State :=
  let s := loadQueues s d.queues
  let s := loadClasses (loadSources s d.irq) d.classes
  let s := installMosaic (installFlows (installPorts s d) d.flows) d
  let s := wrBit (wr s EGR_RET_SIZE (wordOf d.ringMiB)) EGR_STAT 0 (d.ringMiB != 0)
  installPairing s d.paired

/-- The IMG registers that show the full image in force. -/
def showImage (s : State) (i : ImageInfo) : State :=
  let s := wrWords s IMG_CUR_ID 0 ((bytesWords i.imageId).take 4)
  let s := wrWords (wr s IMG_CUR_SVN (wordOf i.svn)) IMG_CUR_MEAS 0 ((bytesWords i.meas).take 8)
  let s := wr (wrBit (wrBit s IMG_STAT 1 true) IMG_STAT 3 false) IMG_REPLAN_PEND 0
  let src := match i.source with
    | .flash0 => 1
    | .flash1 => 2
    | .host | .queue _ _ => 3
  let chs := i.reading.channels.map (fun p => p.channel)
  let s := { s with img := { s.img with
    inForce := some i
    forced := none
    chMeas := (List.range 16).map (fun n => if chs.contains n then i.meas else zeros 32) } }
  wrFld s IMG_BOOT_INFO 1 0 src

/-- A full image takes effect: its log entry, the queues' descriptors withdrawn, every unit as it defines it, every channel it
defines before its first frame (R59). -/
def installFull (s : State) (i : ImageInfo) : State :=
  let chs := i.reading.channels
  let s := appendLog s 0x01 0xFF i.source 0 i.svn i.meas
  let seq := (lastLog s).toNat
  let s := enter s 0x0002 0xFFFF [] false s.raw (wordOf seq)
  let s := clearEngines (withdrawAll s)
  let s := forEach chs s (fun p s => discardPending s p.channel)
  let s := forEach (List.range 16) s (fun n s => clearChannel s n)
  let s := clearStreams s
  let s := showImage s i
  let s := forSome i.reading.device s (fun d s => installDevice s d)
  let s := forEach chs s (fun p s => installSlice s p { seq := seq, restart := true, since := none })
  setStage (powerClusters s) 4

/-! ### A re-plan takes effect (R63, R415) -/

/-- The actions of R63: the log entry, REPLAN_APPLIED, CH_DEFINED by the slice, REPLAN_PEND; answers the entry's SEQ. -/
def replanApplied (s : State) (n : Nat) (r : PendReplan) : State × Nat :=
  let s := appendLog s 0x02 n r.info.source 0 r.info.svn r.info.meas
  let seq := (lastLog s).toNat
  let s := enter s 0x0002 n [n] false s.raw (wordOf seq)
  let s := wrBit (setEvt s IMG_EVT 2) IMG_REPLAN_PEND n false
  let occ := (mget r.info.occupancy n).getD 0
  let s := { s with img := { s.img with
    inForce := s.img.inForce.map (fun i => { i with occupancy := mput i.occupancy n occ })
    chMeas := s.img.chMeas.set n (if r.plan.rends.isEmpty then zeros 32 else r.info.meas) } }
  (s, seq)

/-- A re-plan comes into force; `since` is the time of frame 0 where the grid goes on. -/
def applyReplan (s : State) (n : Nat) (r : PendReplan) (since : Option Int) : State :=
  let (s, seq) := replanApplied s n r
  installSlice s r.plan { seq := seq, restart := r.info.restart, since := since }

/-! ### Commands and their ends (R56, R57, R59 to R61, R74) -/

/-- IMG_STAT.BUSY. -/
def imgBusy (s : State) : Bool := s.img.cmd.isSome

/-- Change the command in hand; BUSY shows it. -/
def setCmd (s : State) (c : Option LoadCmd) : State :=
  wrBit { s with img := { s.img with cmd := c } } IMG_STAT 0 c.isSome

/-- The LOAD_RESULT word. CHANNEL has 4 bits and shows 0 for a REPLAN_CH of 16 or more (DESIGN CHOICE, log entry 62). -/
def loadWord (code : Nat) (tag : Byte) (ch : Nat) : Word := mkWord [(7, 0, code), (15, 8, tag.toNat), (19, 16, if ch < 16 then ch else 0)]

/-- Finish with a command of the host: LOAD_RESULT, BUSY, the event; a queue's command completes with the same word (R57, R373,
R378). A flash boot reports in BOOT_INFO only. -/
def endCommand (s : State) (c : LoadCmd) (code ch : Nat) : State :=
  let w := loadWord code c.tag ch
  let report (s : State) : State :=
    setEvt (setCmd (wr s IMG_LOAD_RESULT w) none) IMG_EVT (if code = 0 then 0 else 1)
  match c.src with
  | .flash0 | .flash1 => setCmd s none
  | .host => report s
  | .queue q slot => finish (report s) q slot code (wordBytes w)

/-- Both slots of the flash have failed, or its directory (R56). -/
def bootFailed (s : State) : State := setStage (wrBit (setCmd s none) IMG_STAT 2 true) 5

/-- Record a slot's result code. -/
def bootCode (s : State) (second : Bool) (code : Nat) : State :=
  if second then wrFld s IMG_BOOT_INFO 23 16 code else wrFld s IMG_BOOT_INFO 15 8 code

/-- Slot 1 of the flash is tried: an empty slot fails to read. -/
def bootSecond (s : State) (off : Nat) : State :=
  if off = 0xFFFFFFFF then bootFailed (bootCode (logRefusal s .flash1 0x10 []) true 0x10)
  else setCmd s (some { replan := false, force := false, tag := 0, src := .flash1, addr := off, len := off, staged := none })

/-- Refuse the command in hand with a code, from as much of its image as was copied. -/
def refuseLoad (s : State) (c : LoadCmd) (code : Nat) (b : List Byte) : State :=
  let s := logRefusal s c.src code b
  match c.src with
  | .flash0 => bootSecond (bootCode s false code) c.len
  | .flash1 => bootFailed (bootCode s true code)
  | .host | .queue _ _ => endCommand s c code (headerChannel b)

/-- A load command is accepted: refused at once for an image in force, a forced load in progress or a misaligned address, else the
copy begins (R57, R59). Of a command that R59 and R57 both refuse, 0x0D is reported (DESIGN CHOICE, log entry 62). -/
def acceptLoad (s : State) (c : LoadCmd) : State :=
  let s := setCmd s (some c)
  if !c.replan && (s.img.forced.isSome || (s.img.inForce.isSome && !c.force)) then refuseLoad s c 0x0D []
  else if c.addr % 64 ≠ 0 then refuseLoad s c 0x10 []
  else s

/-- LOAD_CMD with a valid OP (R57, R61). -/
def loadCommand (s : State) (replan force : Bool) (tag : Byte) : State :=
  if imgBusy s then count s IMG_REFUSE_CNT
  else
    acceptLoad s { replan := replan, force := force, tag := tag, src := .host, addr := rd64 s IMG_SRC_ADDR_LO IMG_SRC_ADDR_HI
                   len := (rd s IMG_SRC_LEN).toNat, staged := none }

/-- LOAD (R57): `m` is the master that writes LOAD_CMD. -/
def execLoad (_m : Master) (force : Bool) (tag : Byte) (s : State) : Host.Outcome State Fault Refusal :=
  act true s (fun s => loadCommand s false force tag)

/-- REPLAN (R57). -/
def execReplan (_m : Master) (force : Bool) (tag : Byte) (s : State) : Host.Outcome State Fault Refusal :=
  act true s (fun s => loadCommand s true force tag)

/-- LOAD_CMD_INVALID_OP (R74): any OP other than 1 and 2, whose writes are the events LOAD and REPLAN. -/
def execLoadCmdInvalidOp (op : BitVec 4) (s : State) : Host.Outcome State Fault Refusal :=
  act true s (fun s => if op = 1 || op = 2 then s else count s IMG_REFUSE_CNT)

/-- SQ_LOAD (R61, R372, R373): opcode 0x01 of a submission queue. -/
def execSqLoad (q : Nat) (s : State) : Host.Outcome State Fault Refusal :=
  act (q < 32768) s (fun s => onCommand s q 0x01 (fun o p s =>
    let tag : Byte := BitVec.ofNat 8 (leAt p 14 1)
    if imgBusy s then finish (count s IMG_REFUSE_CNT) q o.slot 0x0D (wordBytes (loadWord 0x0D tag 0))
    else
      acceptLoad s { replan := leAt p 12 1 = 2, force := leAt p 13 1 = 1, tag := tag, src := .queue q o.slot, addr := leAt p 0 8
                     len := leAt p 8 4, staged := none }))

/-- FLASH_BOOT_START (R56): `dir` is the directory read, none where it cannot be read. The flash cannot be read while its bus is
shorted; with no DDR-5 in service a load fails with 0x10 (R342, R493). -/
def execFlashBootStart (dir : Option (List Byte)) (s : State) : Host.Outcome State Fault Refusal :=
  act true s (fun s =>
    if rdFld s GLB_STAT 2 0 = 3 && s.pins.bootSel && !imgBusy s && rdFld s IMG_BOOT_INFO 23 8 = 0 && s.img.inForce.isNone then
      match dir.filter (fun d => cut d 0 4 = [0x5A, 0x44, 0x49, 0x52] && leAt d 4 4 = 1 && !rdBit s GLB_PIN_STAT 11) with
      | none => bootFailed (bootCode (bootCode s false 0x10) true 0x10)
      | some d =>
        if leAt d 8 4 = 0xFFFFFFFF then bootSecond (bootCode (logRefusal s .flash0 0x10 []) false 0x10) (leAt d 12 4)
        else
          setCmd s (some { replan := false, force := false, tag := 0, src := .flash0, addr := leAt d 8 4, len := leAt d 12 4
                           staged := none })
    else s)

/-- Whether a command's image comes from the flash. -/
def fromFlash (c : LoadCmd) : Bool :=
  match c.src with
  | .flash0 | .flash1 => true
  | .host | .queue _ _ => false

/-- The staging region takes a copy in each system copy in service (R60, R342). -/
def stageBytes (s : State) (b : List Byte) : State :=
  { s with dev := (systemCopies s).foldl (fun m i => putBytes m (oxBase i) b) s.dev }

/-- IMAGE_STAGED (R60): the copy ends, whole, too long or with an error. Of a flash image TOTAL_LEN of its header says how long it is;
what the flash does not give of it is a read error. -/
def execImageStaged (r : StageResult) (s : State) : Host.Outcome State Fault Refusal :=
  actStore true s (fun s =>
    match s.img.cmd with
    | none => s
    | some c =>
      if c.staged.isSome then s
      else if !fromFlash c && 2 ^ 29 < c.len then refuseLoad s c 0x11 []
      else if (systemCopies s).isEmpty || (fromFlash c && rdBit s GLB_PIN_STAT 11) then refuseLoad s c 0x10 []
      else match r with
        | .ok b =>
          if fromFlash c then
            let n := imgTotal b
            if 2 ^ 29 < n then refuseLoad s c 0x11 (b.take 128)
            else if b.length < n then refuseLoad (stageBytes s b) c 0x10 b
            else setCmd (stageBytes s (b.take n)) (some { c with staged := some (.ok (b.take n)) })
          else
            let b := padTo c.len b
            setCmd (stageBytes s b) (some { c with staged := some (.ok b) })
        | .tooLong h => if fromFlash c && 2 ^ 29 < imgTotal h then refuseLoad s c 0x11 (h.take 128) else s
        | .error got => refuseLoad (stageBytes s got) c 0x10 got)

/-- The Bellwether names the boundary of a re-plan (R445). -/
def sendReplan (s : State) (n : Nat) (i : ImageInfo) : State :=
  let c := chan s n
  let k := if c.bound.isSome || latchDue s n then c.k + 1 else c.k
  if role s = 1 then sendMule s 0x14 (BitVec.ofNat 8 n) (leBytes 8 n ++ padTo 32 i.meas ++ leBytes 8 k) else s

/-- A re-plan has passed verification: it waits for its boundary, or takes effect at once where its channel has none; a standby's waits for
the Bellwether to name it (R63, R445). -/
def replanVerified (s : State) (c : LoadCmd) (i : ImageInfo) (p : ChannelPlan) : State :=
  let n := p.channel
  let r : PendReplan := { late := latchDue s n, info := i, plan := p, latched := false, boundary := none }
  let named : Bool := (chan s n).named.any (fun x => x.1 = i.meas)
  if noBoundary s n && (role s ≠ 2 || named) then
    sendReplan (endCommand (applyReplan (discardPending s n) n r none) c 0 n) n i
  else
    let s := modChan s n (fun x => { x with pend := some r })
    sendReplan (endCommand (wrBit s IMG_REPLAN_PEND n true) c 0 n) n i

/-- A standby is told the boundary of a re-plan; on a channel that has none a re-plan that it holds takes effect at once (R63, R445). -/
def nameReplan (s : State) (n : Nat) (meas : List Byte) (boundary : Nat) : State :=
  let s := modChan s n (fun c => { c with named := (c.named ++ [(meas, boundary)]).drop ((c.named.length + 1) - 8) })
  match (chan s n).pend with
  | some r =>
    if noBoundary s n && decide (r.info.meas = meas) then applyReplan (discardPending (wrBit s IMG_REPLAN_PEND n false) n) n r none else s
  | none => s

/-- REPLAN: the boundary the Bellwether names for a re-plan. -/
def execReplanMsg (h : MuleHdr) (n : Nat) (meas : List Byte) (boundary : Nat) (s : State) : Host.Outcome State Fault Refusal :=
  act (n < 16) s (fun s => onMessage s 0x14 (BitVec.ofNat 8 n) h (leBytes 8 n ++ meas ++ leBytes 8 boundary) (fun s =>
    if role s = 2 then nameReplan s n meas boundary else s))

/-- A forced full load has passed verification while an image is in force: pending re-plans are withdrawn, STOPPING is set and the
channels stop at their next boundaries (R59, R75). -/
def forcedVerified (s : State) (i : ImageInfo) : State :=
  let s := forEach (List.range 16) s (fun n s =>
    match (chan s n).pend with
    | none => s
    | some r =>
      let s := appendLog s 0x03 n r.info.source 0x0F r.info.svn r.info.meas
      modChan (wrBit s IMG_REPLAN_PEND n false) n (fun c => { c with pend := none }))
  wrBit { s with img := { s.img with forced := some i } } IMG_STAT 3 true

/-- A full image has passed verification (R54, R59). -/
def fullVerified (s : State) (c : LoadCmd) (i : ImageInfo) : State :=
  let (s, burnt) := applyOtp s i.svn i.reading.otp
  if !burnt then endCommand s c 0 0xFF
  else if s.img.inForce.isSome then forcedVerified (endCommand s c 0 0xFF) i
  else endCommand (installFull s i) c 0 0xFF

/-- VERIFY_COMPLETE (R55): the steps run on the staged copy; `r` is what the sections hold. -/
def execVerifyComplete (r : ImageReading) (s : State) : Host.Outcome State Fault Refusal :=
  actFuses true s (fun s =>
    match s.img.cmd with
    | some c =>
      match c.staged with
      | some (.ok b) =>
        let r := sectionsRead b r
        let code := verifyCode s c.replan (if fromFlash c then none else some c.len) b r
        let i := imageInfo b c.src r
        if code ≠ 0 then refuseLoad s c code b
        else match c.replan, r.channels with
          | true, [p] => replanVerified s c i p
          | true, _ => s
          | false, _ => fullVerified s c i
      | _ => s
    | none => s)

/-- Whether a frame holds nothing back any more: every rendition's picture has launched, or its launch time has come on a channel
left with no engine. -/
def frameLaunched (s : State) (n : Nat) (f : FrameSt) : Bool :=
  reached s f.launch && ((chan s n).dead || (f.started && f.rends.all (metaReady s n f)))

/-- Whether every channel has stopped and the last picture of each has launched (R59). -/
def allLaunched (s : State) : Bool :=
  (List.range 16).all (fun n =>
    let c := chan s n
    (c.grid.isNone || c.stopped) && c.frames.all (frameLaunched s n))

/-- FORCED_LOAD_TAKES_EFFECT (R59, R507). -/
def execForcedLoadTakesEffect (s : State) : Host.Outcome State Fault Refusal :=
  act true s (fun s =>
    match s.img.forced with
    | none => s
    | some i => if allLaunched s then installFull s i else s)

end Sys2Proof.Machine
end

