-- ==== Sys2Proof/Machine/Boundary.lean ====
section
/-!
DEFINITION. FRAME_BOUNDARY: a channel accepts a frame, applies a re-plan or stops (spec/03_channel_time_budget.md R79, R83, R85;
spec/02_zarwyn_image.md R13, R59, R63, R65, R75).
-/
namespace Sys2Proof.Machine

/-! ### The frame accepted (R26, R83, R85, R214, R244, R446) -/

/-- The layers whose plane is ready for a frame: the buffer that the set selects, last loaded before the latch instant (R214). -/
def readyLayers (s : State) (n : Nat) (set : WordMap) (latchTime : Int) : List (Nat × Bool) :=
  ((List.range 7).map (fun i => i + 1)).map (fun l =>
    let r := LY_L_CTL n l
    let b := fld ((mget set r.addr).getD r.reset) 9 8
    (l, rdBit s (LY_L_STAT n l) b && (chan s n).planeTimes.any (fun x => x.1 = l && x.2.1 = b && x.2.2 < latchTime)))

/-- Those of a source's blocks that belong to a frame (R244). -/
def blocksIn (g : Grid) (j i : Nat) (r96 : Bool) (bs : List AudioBlock) : List (Nat × AudioBlock) :=
  (bs.filter (fun b => gAt g j ≤ blockTime r96 b.1 && blockTime r96 b.1 < gAt g (j + 1))).map (fun b => (i, b))

/-- The blocks of a channel's network flows that already closed and belong to a frame (R244). -/
def earlyBlocks (s : State) (n : Nat) (g : Grid) (j : Nat) : List (Nat × AudioBlock) :=
  ((List.range 32).filter (fun f => nfAssigned s f && nfChannel s f = n)).flatMap (fun f =>
    blocksIn g j f (rdBit s (NF_CFG f) 6) (nfOf s f).blocks)

/-- The blocks of a channel's serial ports that are in use already and belong to a frame (R244). -/
def earlyPortBlocks (s : State) (n : Nat) (g : Grid) (j : Nat) : List (Nat × AudioBlock) :=
  ((List.range 8).filter (fun p => apAssigned s p && apChannel s p = n)).flatMap (fun p =>
    blocksIn g j p (rdBit s (AP_CFG p) 2) (apOf s p).blocks)

/-- What the STATE of a new frame says of the channel's programmes until another access unit comes (R446). -/
def programmesNow (s : State) (n : Nat) : List (Nat × Word × Word × Word) :=
  ((List.range 32).filter (fun g => match (prgOf s g).plan with
    | some (m, _) => m = n
    | none => false)).map (fun g => (g, rd s (PRG_AU_CNT g), crc32c (prgOf s g).encState, (prgOf s g).auCrc))

/-- The coefficients of a channel's scalers at a boundary (R225). -/
def coefsNow (s : State) (n : Nat) : List (Nat × Int) :=
  let scls := (channelOutputs s n).map (fun x => x.1)
  s.coefs.filter (fun x => scls.contains (x.1 / 4096))

/-- Frame k of a channel at its boundary. -/
def newFrame (s : State) (n : Nat) (p : ChannelPlan) (g : Grid) (b : Bound) (join : Bool) : FrameSt :=
  let c := chan s n
  let set := forceOf s n
  { j := c.j, k := c.k, grid := g, plan := p, sliceSeq := c.sliceSeq, set := set, rwfGen := rd s (CH_RWF_GEN n), closed := false
    substituted := false, partialIn := false, input := none, inputCrc := 0, composed := none, gsig := 0, scaled := [], tilesDone := []
    field := none, preparedLate := false, ready := readyLayers s n set (latchAt g c.j), cmdFirst := b.cmdFirst, cmdCount := b.cmdCount
    cmdCrc := crc32c b.cmdBytes, roiSeq := c.roiSeq, rects := c.rects, sections := b.sections, triplets := b.triplets, grain := c.grain
    decided := false, splice := false, started := false, idr := false, joinIdr := join, layer := 0, nonRef := false, refs := [], avSlots := [], refresh := 0, sUse := 0, govS := 0
    gopPos := 0, efforts := [], rends := [], busy := 0, rescued := false, rescueDone := false, rescueHeld := false
    measuredIn := false, ledgerSeq := none, flowAud := earlyBlocks s n g c.j, portAud := earlyPortBlocks s n g c.j, coefs := coefsNow s n, prgSeen := programmesNow s n
    stateSeen := false }

/-- A token that came before its frame is applied now, also where the device has taken over since (R442, R455). -/
def takeStoredToken (s : State) (n j k : Nat) : State :=
  match (chan s n).tokens.find? (fun t => t.frame = k), frameAt s n j with
  | some t, some f => applyToken (modChan s n (fun c => { c with tokens := c.tokens.filter (fun x => x.frame ≠ k) })) n f t
  | _, _ => s

/-- The channel accepts frame k: the set of the boundary comes into force, RWF_GEN counts, the ledger takes its entry, monitors and
scouts follow (R79, R83, R105, R413, R473). -/
def acceptFrame (s : State) (n : Nat) (p : ChannelPlan) (g : Grid) (b : Bound) : State :=
  let s := forEach b.set s (fun (e : Nat × Word) s => putForce s e.1 e.2)
  let s := onlyIf b.counts s (fun s => bump s (CH_RWF_GEN n))
  let c := chan s n
  let join := c.joinIdr && (c.k = 0 || (mget b.set (CH_IDR_REQ n).addr).isSome)
  let f := newFrame s n p g b join
  let s := wr64 s (CH_FRAME_LO n) (CH_FRAME_HI n) c.k
  let s := enter s 0x0001 n [n] false s.raw (wordOf c.k)
  let s := modChan s n (fun c => { c with
    frames := c.frames ++ [f]
    bound := none
    j := c.j + 1
    k := c.k + 1
    joinIdr := c.joinIdr && !join })
  let s := forEach (clustersOf s n) s (fun c s => takeTrims s (653 + c) 1)
  takeStoredToken (showScouts s p true) n f.j f.k

/-! ### Stops and pauses (R59, R65, R75, R285) -/

/-- The number of a channel's boundary: in the pause of a RESTART re-plan the numbers go on with the grid (R65, R413; log entry 32). -/
def boundaryNumber (c : Chan) : Nat := c.k + (if c.gap.isSome then c.j - c.heldFrom else 0)

/-- The ledger takes a boundary of a running channel (R413, R415). -/
def noteBoundary (s : State) (n : Nat) : State :=
  onlyIf (rdBit s (CH_STAT n) 1) s (fun s => enter s 0x0001 n [n] false s.raw (wordOf (boundaryNumber (chan s n))))

/-- A boundary that accepts no frame goes by. -/
def passBoundary (s : State) (n : Nat) : State :=
  modChan s n (fun c => { c with
    bound := none
    j := c.j + 1 })

/-- A boundary of a channel that has stopped for a forced load: its input frame is not coded and counted (R94; log entry 32). -/
def stoppedBoundary (s : State) (n : Nat) : State := passBoundary (count s (CH_RESTART_GAP n)) n

/-- The channel stops accepting input for a forced load. -/
def stopChannel (s : State) (n : Nat) : State :=
  let s := dropSplices (noteBoundary s n) n
  let s := wrBit (wrBit s (CH_STAT n) 1 false) (CH_STAT n) 2 true
  modChan (stoppedBoundary s n) n (fun c => { c with
    stopped := true
    heldFrom := if c.gap.isSome then c.heldFrom else c.j - 1
    gap := none })

/-- The launch time of the last picture of a channel's frames, or the boundary itself. -/
def lastLaunch (s : State) (n : Nat) (at_ : Int) : Int := (chan s n).frames.foldl (fun t f => max t f.launch) at_

/-- A RESTART re-plan pauses the channel's input at its boundary. -/
def startGap (s : State) (n : Nat) (at_ : Int) : State :=
  let t := lastLaunch s n at_
  let s := wrBit (withdrawSplices s n) (CH_STAT n) 2 true
  modChan s n (fun c => { c with
    gap := some t
    heldFrom := c.j })

/-- A boundary in the pause of a RESTART re-plan: its input frame is not coded; at the first one at or after the last launch the new
slice takes effect. -/
def gapBoundary (s : State) (n : Nat) (at_ : Int) : State :=
  let s := noteBoundary (count s (CH_RESTART_GAP n)) n
  match (chan s n).gap, (chan s n).pend with
  | some t, some r =>
    if t ≤ at_ then bump (passBoundary (applyReplan s n r none) n) (CH_RWF_GEN n) else passBoundary s n
  | _, _ => passBoundary s n

/-- A re-plan without RESTART takes effect: its frame 0 takes the grid point of the old slice's next frame (R63, R77). -/
def replanBoundary (s : State) (n : Nat) (g : Grid) (b : Bound) (r : PendReplan) : State :=
  let s := onlyIf r.plan.rends.isEmpty s (fun s => noteBoundary s n)
  let s := applyReplan s n r (some (gAt g (chan s n).j))
  match (chan s n).plan with
  | some p => acceptFrame s n p g b
  | none => bump (passBoundary s n) (CH_RWF_GEN n)

/-- Boundary k of a channel. -/
def frameBoundary (s : State) (n : Nat) (g : Grid) (b : Bound) : State :=
  let c := chan s n
  let at_ := boundaryAt g c.j
  let k := c.k
  let s :=
    if c.stopped then stoppedBoundary s n
    else if s.img.forced.isSome then stopChannel s n
    else if c.gap.isSome then gapBoundary s n at_
    else match c.pend.filter (fun r => r.latched), c.plan with
      | some r, _ => if r.info.restart then gapBoundary (startGap s n at_) n at_ else replanBoundary s n g b r
      | none, some p => acceptFrame s n p g b
      | none, none => passBoundary (noteBoundary s n) n
  modChan s n (fun x => { x with named := x.named.filter (fun y => y.2 ≠ k || c.gap.isSome) })

/-- FRAME_BOUNDARY: acts at B_k, after the latch. -/
def execFrameBoundary (n : Nat) (s : State) : Host.Outcome State Fault Refusal :=
  act (n < 16) s (fun s =>
    match (chan s n).grid, (chan s n).bound with
    | some g, some b => if reached s (boundaryAt g (chan s n).j) then frameBoundary s n g b else s
    | _, _ => s)

end Sys2Proof.Machine
end

