-- ==== Sys2Proof/Machine/Clock.lean ====
section
/-!
DEFINITION. The commands of the time block: adjustments, rebase, snapshot, comparators, PTP reception, transmit stamps and
the reference monitor (spec/11_time.md).
-/
namespace Sys2Proof.Machine

/-! ### Adjustments (R298, R299) -/

/-- An accepted adjustment is entered in the ledger (R415). -/
def adjLedger (s : State) (op : Nat) (tag : Byte) : State :=
  enter s 0x0003 0 [] false s.raw (mkWord [(7, 0, op), (15, 8, tag.toNat)])

/-- A command of the master that is not the servo is ignored and counted (R298). -/
def asServo (s : State) (m : Master) (f : State → State) : State :=
  if ownsServo s m then f s else count s TIM_ADJ_REJ

/-- The result of a SET: 0 where it is accepted (R299). -/
def setCode (s : State) (m : Master) : Nat :=
  if adjVal s m < 0 then 1 else if anyRunning s then 2 else 0

/-- The result of a STEP: 0 where it is accepted (R299). -/
def stepCode (s : State) (m : Master) : Nat :=
  if 1000 < (adjVal s m).natAbs && anyRunning s then 2 else 0

/-- The result of a RATE: 0 where it is accepted (R299). -/
def rateCode (s : State) (m : Master) : Nat :=
  if 549755813 < (adjRateVal s m).natAbs then 3 else 0

/-- The effect of an accepted SET (R298, R312). -/
def adjSetNow (s : State) (m : Master) : State :=
  let s := rebaseDue s
  let t := timeSet s
  let s := putTimeSet s { t with offset := adjVal s m, sub := adjSub s m, anchor := s.raw, res := 0 }
  count (wrBit s TIM_STAT 0 true) TIM_STEP_CNT

/-- The effect of an accepted STEP (R298, R312). -/
def adjStepNow (s : State) (m : Master) : State :=
  let s := rebaseDue s
  let t := timeSet s
  count (putTimeSet s { t with offset := t.offset + adjVal s m }) TIM_STEP_CNT

/-- The effect of an accepted RATE: a rebase, then the new rate (R297, R298). -/
def adjRateNow (s : State) (m : Master) : State :=
  let r := adjRateVal s m
  let s := rebaseNow s
  putTimeSet s { timeSet s with rate := r }

/-- ADJ_SET (R298). -/
def execAdjSet (m : Master) (tag : Byte) (s : State) : Host.Outcome State Fault Refusal :=
  act true s (fun s => asServo s m (fun s =>
    if setCode s m = 0 then adjLedger (adjReport (adjSetNow s m) tag 0) 1 tag else adjReport s tag (setCode s m)))

/-- ADJ_STEP (R298). -/
def execAdjStep (m : Master) (tag : Byte) (s : State) : Host.Outcome State Fault Refusal :=
  act true s (fun s => asServo s m (fun s =>
    if stepCode s m = 0 then adjLedger (adjReport (adjStepNow s m) tag 0) 2 tag else adjReport s tag (stepCode s m)))

/-- ADJ_RATE (R298). -/
def execAdjRate (m : Master) (tag : Byte) (s : State) : Host.Outcome State Fault Refusal :=
  act true s (fun s => asServo s m (fun s =>
    if rateCode s m = 0 then adjLedger (adjReport (adjRateNow s m) tag 0) 3 tag else adjReport s tag (rateCode s m)))

/-- ADJ_OP_ZERO (R299): OP 0 is refused with 0x04. -/
def execAdjOpZero (m : Master) (tag : Byte) (s : State) : Host.Outcome State Fault Refusal :=
  act true s (fun s => asServo s m (fun s => adjReport s tag 4))

/-- REBASE (R297): the time block rebases when the distance from the anchor has reached 2^46 ticks. -/
def execRebase (s : State) : Host.Outcome State Fault Refusal :=
  act true s rebaseDue

/-! ### Reads that capture (R296, R307) -/

/-- SNAP_READ (R296): the raw counter and the corrected time of one tick; the higher words are latched for the master. -/
def execSnapRead (m : Master) (s : State) : Host.Outcome State Fault Refusal :=
  act true s (fun s =>
    let r := s.raw.toNat
    let f := ptpForm (t16 s)
    let s := latch s m TIM_SNAP_RAW_HI (mkWord [(15, 0, r / 2 ^ 32), (31, 16, f.2.2)])
    let s := latch s m TIM_SNAP_NS (wordOf f.2.1)
    let s := latch s m TIM_SNAP_SEC_LO (wordOf f.1)
    let s := latch s m TIM_SNAP_SEC_HI (wordOf (f.1 / 2 ^ 32 % 65536))
    emit s (.read m (wordOf r)))

/-- TXTS_READ (R307): a read of TXTS_W0 takes the oldest stamp of the port and latches its other words; with no stamp it
reads VALID = 0 and removes nothing. -/
def execTxtsRead (m : Master) (p : Nat) (s : State) : Host.Outcome State Fault Refusal :=
  act (p < 24) s (fun s =>
    match (portOf s p).txts with
    | [] => emit s (.read m 0)
    | e :: es =>
      let s := modPort s p (fun q => { q with txts := es })
      let s := wrFld s (TXP_TXTS_STAT p) 6 0 es.length
      let s := latch s m (TXP_TXTS_W1 p) (e.getD 1 0)
      let s := latch s m (TXP_TXTS_W2 p) (e.getD 2 0)
      let s := latch s m (TXP_TXTS_W3 p) (e.getD 3 0)
      emit s (.read m (e.getD 0 0)))

/-! ### Comparators (R304) -/

/-- The target of a general comparator. -/
def cmpTarget (s : State) (i : Nat) : Int := (BitVec.ofNat 64 (rd64 s (TIM_CMP_LO i) (TIM_CMP_HI i))).toInt

/-- Whether a general comparator is enabled and its target has come. -/
def cmpDue (s : State) (i : Nat) : Bool := rdBit s (TIM_CMP_CTL i) 0 && reached s (cmpTarget s i)

/-- CMP_FIRE (R300, R304): an enabled comparator whose target has come sets its event bit; a one-shot is disabled, a periodic one
moves to its next target in the future and counts the periods it skipped. Of those due together the ones of earlier targets act first. -/
def execCmpFire (i : Nat) (s : State) : Host.Outcome State Fault Refusal :=
  act (i < 8) s (fun s =>
    if cmpDue s i && (List.range 8).all (fun k => !cmpDue s k || decide (cmpTarget s i ≤ cmpTarget s k)) then
      let s := setEvt s TIM_EVT i
      let per := (rd s (TIM_CMP_PER i)).toNat
      if per = 0 then wrBit s (TIM_CMP_CTL i) 0 false
      else
        let late := (BitVec.ofInt 64 (nowN s - cmpTarget s i)).toInt.toNat
        let k := late / per + 1
        let t := (BitVec.ofInt 64 (cmpTarget s i + k * per)).toNat
        let s := wr64 s (TIM_CMP_LO i) (TIM_CMP_HI i) t
        wrFld s (TIM_CMP_CTL i) 15 8 (min 255 (rdFld s (TIM_CMP_CTL i) 15 8 + (k - 1)))
    else s)

/-! ### PTP reception (R306) -/

/-- The record of a PTP message stamped at a tick (R306). -/
def ptpRecord (s : State) (p : Nat) (m : PtpMsg) (at_ : Raw) : List Byte :=
  let f := ptpForm (t16Of (timeSet s) at_)
  withCrc (leBytes 2 0x0B01 ++ leBytes 1 p ++
    leBytes 1 (m.carriage + 4 * b2n (128 < m.bytes.length : Bool) + 8 * b2n (rdBit s TIM_STAT 1)) ++
    leBytes 2 (min m.bytes.length 128) ++ zeros 2 ++ leBytes 8 at_.toNat ++ leBytes 8 f.1 ++ leBytes 4 f.2.1 ++
    leBytes 2 f.2.2 ++ zeros 2 ++ padTo 128 m.bytes ++ zeros 4)

/-- PTP_RX (R306): the message is stamped with the receive latency removed, counted, and written to the PTP queue. -/
def execPtpRx (p : Nat) (m : PtpMsg) (s : State) : Host.Outcome State Fault Refusal :=
  act (p < 24) s (fun s =>
    if ptpMatches s p m then
      let at_ := s.raw - BitVec.ofNat 48 (latencyTicks s (rd s (TXP_LAT_RX p)).toNat)
      let bs := ptpRecord s p m at_
      let s := count { s with free := s.free + 1 } TIM_PTP_RX_CNT
      if rdBit s TIM_PTP_CTL 15 then
        match putRecord s (rdFld s TIM_PTP_CTL 14 0) bs with
        | (s, true) => s
        | (s, false) => setEvt (count s TIM_PTP_RX_DROP) TIM_EVT 15
      else s
    else s)

/-! ### The reference monitor (R309 to R311, R494) -/

/-- The time clock goes into holdover; the cause is 0 stop, 1 glitch, 2 bad window (R310, R415). -/
def enterHoldover (s : State) (cause : Nat) : State :=
  let s := wrBit s TIM_STAT 1 true
  let s := wrFld (wrFld s TIM_REF_STAT 1 0 3) TIM_REF_STAT 15 8 0
  let s := setEvt (count s TIM_HOLD_CNT) TIM_EVT 8
  enter s 0x0004 0 [] false s.raw (wordOf cause)

/-- A stop, glitch or bad window: holdover while the reference is in use, else the count of good windows restarts (R310,
R311). -/
def refBad (s : State) (cause : Nat) : State := if refInUse s then enterHoldover s cause else refOut s

/-- REF_STOP (R309): 40 ns without a reference edge; the window it falls in is bad. -/
def execRefStop (s : State) : Host.Outcome State Fault Refusal := act true s (fun s => refBad { s with refMark := true } 0)

/-- REF_GLITCH (R309): a glitch is counted and flagged whatever the reference's state; the window it falls in is bad. -/
def execRefGlitch (s : State) : Host.Outcome State Fault Refusal :=
  act true s (fun s => refBad (setEvt (count { s with refMark := true } TIM_GLITCH_CNT) TIM_EVT 10) 1)

/-- The reference comes into use at its sixteenth good window: a reversed pair is inverted, HOLDOVER clears, a pending
oscillator trim takes effect and the start-up calibration of group 4 begins (R311, R473, R487, R494). -/
def refQualified (s : State) (highPct : Nat) : State :=
  let s := onlyIf (decide (highPct < 48)) s (fun s => setEvt (wrBit s TIM_STAT 2 true) TIM_EVT 16)
  let s := wrFld (wrBit s TIM_STAT 1 false) TIM_REF_STAT 1 0 2
  let s := enter (setEvt s TIM_EVT 9) 0x0005 0 [] false s.raw 0
  let s := takeTrims s 624 1
  onlyIf (rd s (CAL_CNT 4) == 0) s (fun s => wrBit s CAL_STAT 4 true)

/-- REF_WINDOW_END (R309): a window of edges ends good or bad; REF_DEV shows its deviation. A glitch or a stop that it held makes it bad. -/
def execRefWindowEnd (edges : Nat) (glitch : Bool) (highPct : Nat) (s : State) : Host.Outcome State Fault Refusal :=
  act true s (fun s =>
    let dev : Int := edges - 100000
    let good := dev.natAbs ≤ 10 && !glitch && !s.refMark
    let s := wr { s with refMark := false } TIM_REF_DEV (BitVec.ofInt 32 dev)
    if good then
      let k := min 255 (rdFld s TIM_REF_STAT 15 8 + 1)
      let s' := wrFld s TIM_REF_STAT 15 8 k
      if refInUse s then takeTrims s' 624 1
      else if 16 ≤ k then refQualified s' highPct
      else wrFld s' TIM_REF_STAT 1 0 1
    else refBad s 2)

end Sys2Proof.Machine
end

