-- ==== Sys2Proof/Machine/Faults.lean ====
section
/-!
DEFINITION. Fault events: the report of a unit to the Goose and what the unit does when its class reaches its threshold
(R409 to R412 and the owning rules R158, R203, R328, R360, R437).
-/
namespace Sys2Proof.Machine

/-! ### The channels a fault is recorded against -/

/-- The controller and target of an instance of classes 0 and 1 (R409). -/
def instTarget (i : Nat) : Nat × Nat := if i < 64 then (i / 32, i % 32) else (2 + (i - 64) / 4, (i - 64) % 4)

/-- The channels R353 names for a target: those of SET_CH of its set, or those with a unit of an unlaunched stream in a DDR-5
channel's range. Which units lie in the range is open, so it is free (log entry 6). -/
def targetChannels (s : State) (i t : Nat) : List Nat × State :=
  if oxDdr i then
    let (x, s) := takeFree s
    let inRange (st : StreamSt) : Bool := st.held.any (fun u => u.waits && Config.freeNat x (1024 * u.seq + st.id) % 2 = 1)
    (((s.streams.filter inRange).map (fun st => st.id / 64)).eraseDups, s)
  else (setChannels s i (setOf t), s)

/-- Whether an input flow has a path on a port and no other active path (R328). -/
def flowLost (s : State) (p f : Nat) : Bool :=
  let dual := rdBit s (RXF_CFG f) 13
  let a := rdFld s (RXF_CFG f) 7 3 = p
  let b := dual && rdFld s (RXF_CFG f) 12 8 = p
  flowKind s f ≠ 0 && ((a && b) || (a && !(dual && rdBit s (RXF_STAT f) 1)) || (b && !rdBit s (RXF_STAT f) 0))

/-- The channels a port's lasting fault counts against (R328). -/
def portChannels (s : State) (p : Nat) : List Nat :=
  let out := (portStreams s p).map (fun i => i / 64)
  let inp := ((List.range 128).filter (fun f => flowLost s p f)).map (fun f => flowChannel s f)
  (List.range 16).filter (fun n => (out ++ inp).contains n)

/-- The channels an instance of a class affects. -/
def faultChannels (s : State) (c i : Nat) : List Nat × State :=
  match c with
  | 0 | 1 => targetChannels s (instTarget i).1 (instTarget i).2
  | 2 => (portChannels s i, s)
  | 3 => (if rdBit s (CL_STAT (i / 8)) 4 then [engChannel s i] else [], s)
  | 5 => (if slotAssigned s (i / 4) (i % 4) then [rdFld s (DS_SLOT_CFG (i / 4) (i % 4)) 7 4] else [], s)
  | _ => ([], s)

/-! ### What a threshold leads to -/

/-- A memory class reaches its threshold (R360). -/
def memoryLasting (s : State) (c i : Nat) (chs : List Nat) : State :=
  let t := instTarget i
  let s := setEvt s (OX_EVT t.1) (if c = 0 then 0 else 3)
  let s := lastingFault s chs
  if targetIn s t.1 t.2 then startFull s t.1 [t.2] else s

/-- A port's lane-CRC class reaches its threshold: the port retrains once (R324, R328). -/
def laneLasting (s : State) (p : Nat) (chs : List Nat) : State :=
  let s := setEvt s (P_EVT p) 4
  lastingFault (linkDown s p 0x15) chs

/-- An engine reaches its threshold; one already withdrawn is not withdrawn again (R158, R411). -/
def engineLasting (s : State) (e : Nat) (chs : List Nat) : State :=
  if engState s e = 4 then lastingFault s chs else withdrawEngine s e true

/-- A class reached its threshold (R411). -/
def thresholdReached (s : State) (c i : Nat) (chs : List Nat) : State :=
  match c with
  | 0 | 1 => memoryLasting s c i chs
  | 2 => laneLasting s i chs
  | 3 => engineLasting s i chs
  | 4 => muleDown s 2
  | 5 => setEvt s (DU_EVT (i / 4)) 6
  | _ => s

/-- FAULT_EVENT: a unit's report of an event reaches the Goose with its detection stamp; it is then no longer on its way. -/
def execFaultEvent (cls inst : Nat) (stamp : Raw) (data : Word) (s : State) : Host.Outcome State Fault Refusal :=
  act (cls < 6 && inst < classInsts cls) s (fun s =>
    let s := { s with reports := s.reports.eraseP (fun r => r.1 = cls && r.2.1 = inst && r.2.2.1 = stamp) }
    let (chs, s) := faultChannels s cls inst
    match countEvent s cls inst stamp data chs with
    | (s, true) => thresholdReached s cls inst chs
    | (s, false) => s)

end Sys2Proof.Machine
end

