-- ==== Sys2Proof/Machine/GooseCmds.lean ====
section
/-!
DEFINITION. The commands of the check-value units and the release of ledger entries (spec/16_faults_ordering.md).
-/
namespace Sys2Proof.Machine

/-! ### Check-value units (R423): a write of CK_CMD is one command, named by any of the bits it sets -/

/-- CK_START. -/
def execCkStart (i : Nat) (v : Word) (s : State) : Host.Outcome State Fault Refusal :=
  act (i < 8) s (fun s => if tbit v 0 then ckCommand s i v else s)

/-- CK_FINISH. -/
def execCkFinish (i : Nat) (v : Word) (s : State) : Host.Outcome State Fault Refusal :=
  act (i < 8) s (fun s => if tbit v 1 then ckCommand s i v else s)

/-- CK_ALIVE_RESET. -/
def execCkAliveReset (i : Nat) (v : Word) (s : State) : Host.Outcome State Fault Refusal :=
  act (i < 8) s (fun s => if tbit v 2 then ckCommand s i v else s)

/-- DATA_B: one byte. -/
def execDataB (i : Nat) (v : Word) (s : State) : Host.Outcome State Fault Refusal :=
  act (i < 8) s (fun s => ckData s i 1 v)

/-- DATA_H: two bytes, lowest first. -/
def execDataH (i : Nat) (v : Word) (s : State) : Host.Outcome State Fault Refusal :=
  act (i < 8) s (fun s => ckData s i 2 v)

/-- DATA_W: four bytes, lowest first. -/
def execDataW (i : Nat) (v : Word) (s : State) : Host.Outcome State Fault Refusal :=
  act (i < 8) s (fun s => ckData s i 4 v)

/-! ### LEDGER_RELEASE (R413, R416) -/

/-- The sequence number of a boundary's entry goes to its frame's metadata record (R97). -/
def stampFrame (s : State) (e : LedgerEntry) (seq : Nat) : State :=
  if e.kind = 0x0001 then
    match (chan s e.unit).frames.find? (fun f => wordOf f.k = e.data && f.ledgerSeq.isNone) with
    | none => s
    | some f => modFrame s e.unit f.j (fun f => { f with ledgerSeq := some (wordOf seq) })
  else s

/-- An entry is written to the ledger's queue, or dropped and counted (R416). -/
def ledgerRecord (s : State) (bs : List Byte) : State :=
  if rdBit s GOOSE_LEDGER_CTL 15 then
    match putRecord s (rdFld s GOOSE_LEDGER_CTL 14 0) bs with
    | (s, true) => s
    | (s, false) => setEvt (count s GOOSE_LEDGER_DROP) GOOSE_EVT 7
  else s

/-- Release an entry. -/
def releaseEntry (s : State) (e : LedgerEntry) : State :=
  let seq := s.ledgerNext
  let s := { s with waiting := s.waiting.erase e }
  let s := stampFrame (holdEntry s e) e seq
  ledgerRecord s (entryBytes seq e)

/-- LEDGER_RELEASE: the first entry in order of stamp is released once its stamp is 5,000 ticks old. -/
def execLedgerRelease (s : State) : Host.Outcome State Fault Refusal :=
  act true s (fun s =>
    match firstEntry s.waiting with
    | none => s
    | some e => if ticksSince s e.time 5000 then releaseEntry s e else s)

end Sys2Proof.Machine
end

