-- ==== Sys2Proof/Machine/HostPort.lean ====
section
/-!
DEFINITION. The commands of the host port: doorbells, descriptors, queue enables, completions, moderation, link and power
states, resets and the steward mailboxes (spec/14_host_queues.md).
-/
namespace Sys2Proof.Machine

/-- DOORBELL (R368): a write to a queue's place in BAR2; a read there returns 0. -/
def execDoorbell (q : Nat) (isRead sizeOk : Bool) (v : Word) (s : State) : Host.Outcome State Fault Refusal :=
  act (q < 32768) s (fun s => if isRead then emit s (.read .host 0) else ringDoorbell s q sizeOk v)

/-- DESCRIPTOR_FETCH (R370). -/
def execDescriptorFetch (q : Nat) (desc payload : Option (List Byte)) (s : State) : Host.Outcome State Fault Refusal :=
  act (q < 32768) s (fun s => fetchDescriptor s q desc payload)

/-- UNKNOWN_OPCODE (R377): a descriptor with an unknown opcode completes with 0x80. -/
def execUnknownOpcode (q : Nat) (s : State) : Host.Outcome State Fault Refusal :=
  act (q < 32768) s (fun s =>
    match nextUnhanded s q with
    | none => s
    | some o => if o.opcode = 0 || 8 < o.opcode then finish (markHanded s q o.slot) q o.slot 0x80 [] else s)

/-- QUEUE_ENABLE (R367): a write of QCTL with EN = 1. -/
def execQueueEnable (q : Nat) (v : Word) (s : State) : Host.Outcome State Fault Refusal :=
  act (q < 32768) s (fun s => if tbit v 0 then enableQueue s q v else s)

/-- QUEUE_DISABLE (R370): a write of QCTL with EN = 0. -/
def execQueueDisable (q : Nat) (v : Word) (s : State) : Host.Outcome State Fault Refusal :=
  act (q < 32768) s (fun s => if tbit v 0 then s else disableQueue s q v)

/-- COMPLETION_WRITE (R379): the oldest descriptor's ready completion is written, then moderation evaluates. -/
def execCompletionWrite (q : Nat) (s : State) : Host.Outcome State Fault Refusal :=
  act (q < 32768) s (fun s => writeCompletion s q)

/-- MODERATION_HOLDOFF (R383): moderation evaluates a counting group. -/
def execModerationHoldoff (g : Nat) (s : State) : Host.Outcome State Fault Refusal :=
  act (g < 256) s (fun s => groupEval s g)

/-- L1_ENTRY_REQUEST (R385): with ASPM L1 enabled by the host, the device requests L1 entry once no TLP has been pending for L1_IDLE µs. -/
def execL1EntryRequest (aspm : Bool) (idleUs : Nat) (s : State) : Host.Outcome State Fault Refusal :=
  act true s (fun s =>
    if rdFld s HOST_STAT 2 0 = 0 || rdBit s HOST_STAT 10 || !aspm || idleUs < rdFld s HOST_CTL 7 0 then s
    else emit (wrBit s HOST_STAT 10 true) .l1Request)

/-- D3HOT_ENTRY (R386): entry to D3hot, or Bus Master Enable cleared in D0: completions and sources are held. -/
def execD3hotEntry (d3hot bme pmeEn : Bool) (s : State) : Host.Outcome State Fault Refusal :=
  act true s (fun s =>
    let s := wrBit (wrFld s HOST_STAT 9 8 (if d3hot then 3 else 0)) HOST_STAT 11 bme
    showTargets { s with pmeEn := pmeEn })

/-- D0_RETURN (R386): in D0 with Bus Master Enable set the held completions are written in order and the sources are
delivered at the next evaluation. It carries what the host has set MSI-X Enable, the Function Mask and entries of the MSI-X table in BAR4
to: the opcode table has no row for a write there (R364, log entry 68). -/
def execD0Return (msix funcMask : Bool) (table : List (Nat × MsixEntry)) (s : State) : Host.Outcome State Fault Refusal :=
  act true s (fun s =>
    let s := wrBit (wrFld s HOST_STAT 9 8 0) HOST_STAT 11 true
    let s := { wrBit s HOST_STAT 12 false with
      msixEn := msix, pmeAt := none, funcMask := funcMask
      msixTable := (table.filter (fun x => x.1 < pcieFunction.msixVectors)).foldl (fun m x => mput m x.1 x.2) s.msixTable }
    showTargets (sendWaiting (writeHeld s)))

/-- PME_REPEAT (R386): PM_PME is sent again every 100 ms while PME_Status stays set. -/
def execPmeRepeat (s : State) : Host.Outcome State Fault Refusal :=
  act true s (fun s => if rdBit s HOST_STAT 12 && passed s s.pmeAt (msTicks 100) then sendPme s else s)

/-- The link goes down: HOST_STAT shows no speed, width or L1 (R392). -/
def pcieLinkDown (s : State) : State := wrBit (wrFld (wrFld s HOST_STAT 2 0 0) HOST_STAT 7 3 0) HOST_STAT 10 false

/-- FUNCTION_RESET (R387, R402): an FLR, hot reset or link-down reset. The link is down after a link-down reset, and after a hot reset
until it has trained again (the latter PRESUMED from the PCI Express specification, log entry 68). -/
def execFunctionReset (kind : ResetKind) (s : State) : Host.Outcome State Fault Refusal :=
  act true s (fun s =>
    let s := if kind = .flr then s else pcieLinkDown s
    let s := resetHostQueues s
    let s := wr s HOST_CTL HOST_CTL.reset
    let s := forEach (List.range 4) s (fun h s => wr s (HOST_HG_VEC h) (HOST_HG_VEC h).reset)
    let s := wrFld (wrBit (wrBit s HOST_STAT 11 false) HOST_STAT 12 false) HOST_STAT 9 8 0
    let s := { s with msixEn := false, funcMask := false, msixTable := [], pba := [], pmeEn := false, pmeAt := none, active := s.active.filter (fun a => a.2.1 < 4) }
    showTargets (count s HOST_FLR_CNT))

/-- PERST_RELEASE (R488): PERST_N is released; the port may leave Detect. -/
def execPerstRelease (s : State) : Host.Outcome State Fault Refusal :=
  act true s (fun s => { s with pins := { s.pins with perstReleased := true } })

/-- PCIE_LINK_UP (R488): the link reaches L0 after PERST_N is released; HOST_STAT shows its speed and width. -/
def execPcieLinkUp (speed : Fin 5) (width : LinkWidth) (s : State) : Host.Outcome State Fault Refusal :=
  act true s (fun s =>
    if s.pins.perstReleased then
      wrBit (wrFld (wrFld s HOST_STAT 2 0 (speed.val + 1)) HOST_STAT 7 3 width.lanes) HOST_STAT 10 false
    else s)

/-- MBX_POST (R388): POST hands the inbound message to the firmware; while IN_BUSY is set it is ignored and counted. -/
def execMbxPost (c : Nat) (s : State) : Host.Outcome State Fault Refusal :=
  act (c < 4) s (fun s => if rdBit s (MBX_STAT c) 0 then count s (MBX_REJ c) else wrBit s (MBX_STAT c) 0 true)

/-- MBX_IN_TAKEN (R388): the firmware takes the message. -/
def execMbxInTaken (c : Nat) (s : State) : Host.Outcome State Fault Refusal :=
  act (c < 4) s (fun s =>
    if rdBit s (MBX_STAT c) 0 then
      let m := (List.range 16).map (fun k => rd s (MBX_IN_MSG c k))
      wrBit { s with mbx := s.mbx.modify c (fun l => l ++ [m]) } (MBX_STAT c) 0 false
    else s)

/-- What the firmware answers to a request (R389): ECHO its payload, VERSION the IMAGE_ID and the build number; a request with a reserved
bit or more than 60 bytes is malformed. The manual defines no further service. A refusal has no payload (DEDUCED, log entry 61). -/
def mbxAnswer (s : State) (m : List Word) : Nat × List Byte :=
  let w := m.getD 0 0
  let len := fld w 31 24
  let payload := (((m.drop 1).map wordBytes).flatten).take len
  if fld w 23 16 ≠ 0 || 60 < len then (0x02, [])
  else match fld w 7 0 with
    | 0 => (0x00, payload)
    | 1 => (0x00, (match s.img.inForce with
      | some i => padTo 16 i.imageId ++ wordBytes i.build
      | none => zeros 20))
    | _ => (0x01, [])

/-- The words of a reply (R389). -/
def mbxWords (m : List Word) (st : Nat) (payload : List Byte) : List Word :=
  mkWord [(7, 0, fld (m.getD 0 0) 7 0), (15, 8, fld (m.getD 0 0) 15 8), (23, 16, st), (31, 24, payload.length)] ::
    bytesWords (padTo (4 * ((payload.length + 3) / 4)) payload)

/-- MBX_REPLY (R388, R389): the firmware posts its reply to the oldest message it has taken in OUT_MSG, once the host has taken the reply
before. -/
def execMbxReply (c : Nat) (s : State) : Host.Outcome State Fault Refusal :=
  act (c < 4) s (fun s =>
    match s.mbx.getD c [] with
    | [] => s
    | m :: rest =>
      if rdBit s (MBX_STAT c) 1 then s
      else
        let a := mbxAnswer s m
        let s := { s with mbx := s.mbx.set c rest }
        wrBit (wrWords s (MBX_OUT_MSG c) 0 (mbxWords m a.1 a.2)) (MBX_STAT c) 1 true)

/-- MBX_DONE (R388): DONE clears OUT_FULL. -/
def execMbxDone (c : Nat) (s : State) : Host.Outcome State Fault Refusal :=
  act (c < 4) s (fun s => wrBit s (MBX_STAT c) 1 false)

end Sys2Proof.Machine
end

