-- ==== Sys2Proof/Machine/Quote.lean ====
section
/-!
DEFINITION. Attestation: the leaf-state records, the quote and the bottom-level trees (spec/02_zarwyn_image.md R67 to R72, R76).
-/
namespace Sys2Proof.Machine

/-! ### The leaf-state records (R70) -/

/-- Where a record lies: A, or B. -/
def recordAt (b : Bool) : Nat := if b then 0x40 else 0

/-- A record as the store holds it. -/
def leafRec (s : State) (b : Bool) : LeafRec :=
  let bs := storeBytes s (recordAt b) 64
  { valid := bs.take 4 = [0x5A, 0x4C, 0x53, 0x31] && wordBytes (crc32c (bs.take 60)) = bs.drop 60
    gen := BitVec.ofNat 32 (leAt bs 4 4), next := leAt bs 8 8 }

/-- The current record: true for B. With equal generations A is taken (DESIGN CHOICE, log entry 23). -/
def currentRec (s : State) : Option Bool :=
  let a := leafRec s false
  let b := leafRec s true
  match a.valid, b.valid with
  | false, false => none
  | true, false => some false
  | false, true => some true
  | true, true => some (0 < sdiff b.gen a.gen)

/-- NEXT of the current record, if there is one. -/
def sigNext (s : State) : Option Nat := (currentRec s).map (fun b => (leafRec s b).next)

/-- A record's bytes. -/
def recBytes (gen : BitVec 32) (next : Nat) : List Byte :=
  let m : List Byte := [0x5A, 0x4C, 0x53, 0x31] ++ wordBytes gen ++ leBytes 8 next ++ zeros 44
  m ++ wordBytes (crc32c m)

/-- A store write that fails its read-back twice (R72); what the bytes then hold is free (log entry 6). -/
def failStore (s : State) (at_ n : Nat) : State :=
  let (x, s) := takeFree s
  setEvt (wrBit { s with nv := putBytes s.nv at_ (freeBytes x n) } IMG_NV_STAT 3 true) IMG_EVT 5

/-! ### The quote (R67, R68, R71) -/

/-- Show the quote in progress. -/
def setQuote (s : State) (j : Option QuoteJob) : State :=
  let s := { s with img := { s.img with quote := j } }
  wrBit (wrBit s IMG_ATT_STAT 0 j.isSome) IMG_ATT_STAT 1 ((j.map (fun x => x.waitTree)).getD false)

/-- A quote ends: TAG and RESULT, then the event (R67). -/
def endQuote (s : State) (tag : Byte) (result : Nat) : State :=
  let s := wrFld (wrFld (setQuote s none) IMG_ATT_STAT 15 8 tag.toNat) IMG_ATT_STAT 23 16 result
  setEvt s IMG_EVT (if result = 0 then 3 else 4)

/-- The signed message: bytes 0x000 to 0x28F of the quote (R68). -/
def quoteMessage (s : State) (index : Nat) : List Byte :=
  [0x5A, 0x51, 0x54, 0x31] ++ leBytes 2 1 ++ leBytes 2 0x9640 ++ leBytes 1 0xB1 ++ leBytes 1 (role s) ++
    leBytes 2 (rdFld s IMG_CH_DEFINED 15 0) ++ wordBytes (rd s IMG_LOG_COUNT) ++ regBytes s IMG_ATT_NONCE 8 ++
    regBytes s IMG_LOG_CHAIN 8 ++ regBytes s IMG_CUR_MEAS 8 ++ leBytes 8 s.raw.toNat ++ wordBytes (rd s IMG_CUR_SVN) ++
    leBytes 4 s.fuses.floor ++ leBytes 8 index ++ zeros 8 ++ padTo 512 (s.img.chMeas.map (padTo 32)).flatten

/-- The tree in the next region comes to be current: it is moved there (R72). -/
def useTree (s : State) : State :=
  { s with
    nv := putBytes s.nv 0x10000 (storeBytes s 0x20000 0x10000)
    treeNow := some s.treeNext
    treeReady := false }

/-- A committed quote goes on to its signature, or waits for its bottom tree q_top (R71, R72). -/
def startQuote (s : State) (j : QuoteJob) : State :=
  let q := j.index / 2 ^ 20
  if s.treeNow = some q then setQuote s (some j)
  else if s.treeReady && s.treeNext = q then setQuote (useTree s) (some j)
  else setQuote s (some { j with waitTree := true })

/-- ATT_CMD.QUOTE (R67, R71). -/
def takeQuote (s : State) (tag : Byte) (writeOk : Bool) : State :=
  match s.img.quote with
  | some _ => count s IMG_REFUSE_CNT
  | none =>
    match currentRec s with
    | none => endQuote s tag 4
    | some cur =>
      let i := (leafRec s cur).next
      let other := recordAt (!cur)
      if 2 ^ 40 ≤ i then endQuote s tag 2
      else if rdBit s IMG_NV_STAT 3 then endQuote s tag 1
      else if writeOk then
        let msg := quoteMessage s i
        let s := { s with nv := putBytes s.nv other (recBytes ((leafRec s cur).gen + 1) (i + 1)) }
        startQuote (count s IMG_NV_COMMITS)
          { tag := tag, buf := rd64 s IMG_ATT_BUF_LO IMG_ATT_BUF_HI, msg := msg, index := i, waitTree := false }
      else endQuote (failStore s other 64) tag 1

/-- QUOTE: `writeOk` tells whether the record reads back within the two attempts. -/
def execQuote (tag : Byte) (writeOk : Bool) (s : State) : Host.Outcome State Fault Refusal :=
  actStore true s (fun s => takeQuote s tag writeOk)

/-- QUOTE_COMPLETE: the quote, with the signature of its message by the device key, is written by DMA (R67, R68). -/
def execQuoteComplete (dmaOk : Bool) (s : State) : Host.Outcome State Fault Refusal :=
  act true s (fun s =>
    match s.img.quote with
    | none => s
    | some j =>
      if j.waitTree then s
      else if dmaOk then endQuote (emit (leaveL1 s) (.hostWrite j.buf (j.msg ++ hssSign s.fuses (storeBytes s 0x10000 0x10000) j.index j.msg))) j.tag 0
      else endQuote s j.tag 3)

/-! ### The bottom-level trees (R72) -/

/-- Whether the store holds a tree complete, in its current or its next region. -/
def hasTree (s : State) (q : Nat) : Bool := s.treeNow = some q || (s.treeReady && s.treeNext = q)

/-- The tree being built, if any: the one a quote waits for; else the one of NEXT where the store has not got it; else, once fewer
than 2^16 of its leaves remain, the one after it. The last tree has none after it. -/
def treeBuilding (s : State) : Option Nat :=
  match s.img.quote.filter (fun j => j.waitTree), sigNext s with
  | some j, _ => some (j.index / 2 ^ 20)
  | none, none => none
  | none, some n =>
    let q := n / 2 ^ 20
    if 2 ^ 40 ≤ n then none
    else if !hasTree s q then some q
    else if 2 ^ 20 < n % 2 ^ 20 + 2 ^ 16 && q + 1 < 2 ^ 20 && !hasTree s (q + 1) then some (q + 1)
    else none

/-- The build of a tree ends: its nodes at depth 11 are written. -/
def buildTree (s : State) (q : Nat) (writeOk : Bool) : State :=
  let waits := s.img.quote.filter (fun j => j.waitTree)
  if writeOk then
    let s := { s with nv := putBytes s.nv 0x20000 (padTo 0x10000 (treeNodes s.fuses q)), treeReady := true, treeNext := q }
    forSome waits s (fun j s => setQuote (useTree s) (some { j with waitTree := false }))
  else forSome waits (failStore s 0x20000 0x10000) (fun j s => endQuote s j.tag 1)

/-- TREE_BUILT: the hash unit has computed the tree's nodes; `writeOk` tells whether they read back within the two attempts. -/
def execTreeBuilt (writeOk : Bool) (s : State) : Host.Outcome State Fault Refusal :=
  actStore true s (fun s => match treeBuilding s with
    | some q => buildTree s q writeOk
    | none => s)

end Sys2Proof.Machine
end

