-- ==== Sys2Proof/Machine/RegAccess.lean ====
section
/-!
DEFINITION. Accesses to the registers of BAR0: what a read returns, what a write does (spec/00_scope.md R6 to R14), and the
registers that show the rest of the state.
-/
namespace Sys2Proof.Machine

/-! ### Wide values (R11) -/

/-- A wide value: the offset of its lowest word, the count and stride of each index, its number of words. -/
structure WideRow where
  base : Nat
  dims : List (Nat × Nat)
  n : Nat
  deriving DecidableEq, Repr

/-- The values wider than 32 bits: every LO and HI pair, and the digests and keys (R11, R73). The snapshot and the transmit stamps
are latched by their own reads (R296, R307). -/
def wideRows : List WideRow :=
  [⟨0x10010, [], 2⟩, ⟨0x10020, [], 4⟩, ⟨0x10040, [], 8⟩, ⟨0x10060, [], 8⟩, ⟨0x10108, [], 2⟩, ⟨0x10110, [], 8⟩,
   ⟨0x10130, [], 2⟩, ⟨0x10140, [], 15⟩, ⟨0x2010C, [(7, 0x20)], 2⟩, ⟨0x30010, [], 2⟩, ⟨0x30018, [], 2⟩, ⟨0x30020, [], 2⟩,
   ⟨0x40048, [], 2⟩, ⟨0x40054, [], 2⟩, ⟨0x40060, [], 2⟩, ⟨0x40068, [], 2⟩, ⟨0x40070, [], 2⟩, ⟨0x40078, [], 2⟩,
   ⟨0x40100, [(8, 0x10)], 2⟩, ⟨0x9001C, [], 2⟩, ⟨0x90068, [], 2⟩, ⟨0xA3038, [(24, 0x100)], 2⟩, ⟨0xB000C, [], 2⟩,
   ⟨0xC0028, [(8, 0x100)], 2⟩, ⟨0xC101C, [(32, 0x80)], 2⟩, ⟨0x10000C, [(10, 0x10000)], 2⟩, ⟨0x10005C, [(10, 0x10000)], 2⟩,
   ⟨0x100064, [(10, 0x10000)], 2⟩, ⟨0x10006C, [(10, 0x10000)], 2⟩, ⟨0x100074, [(10, 0x10000)], 2⟩,
   ⟨0x200110, [(4, 0x1000), (4, 0x100)], 2⟩, ⟨0x20014C, [(4, 0x1000), (4, 0x100)], 2⟩, ⟨0x300008, [(16, 0x4000)], 2⟩,
   ⟨0x400010, [(16, 0x10000)], 2⟩, ⟨0x400024, [(16, 0x10000)], 2⟩, ⟨0x401034, [(16, 0x10000)], 2⟩,
   ⟨0x401040, [(16, 0x10000)], 2⟩, ⟨0x80801C, [(128, 0x100)], 2⟩, ⟨0x808024, [(128, 0x100)], 2⟩,
   ⟨0x80802C, [(128, 0x100)], 2⟩, ⟨0x91000C, [(1024, 0x40)], 2⟩, ⟨0x910014, [(1024, 0x40)], 2⟩,
   ⟨0x910024, [(1024, 0x40)], 2⟩, ⟨0x1000008, [(32768, 0x40)], 2⟩]

/-- The words of a wide value that an offset may be, its first row found: (lowest word's offset, place, number of words). -/
def wideAt (a : Nat) : Option (Nat × Nat × Nat) :=
  wideRows.findSome? (fun r =>
    ((List.range r.n).find? (fun k => r.base + 4 * k ≤ a && dimsHit r.dims (a - r.base - 4 * k))).map (fun k => (a - 4 * k, k, r.n)))

/-! ### Views: registers that show what the state holds elsewhere -/

/-- The instance of a register with one index at an offset: `r` names the registers, `st` is their stride, `n` their number. -/
def instAt (r : Nat → Reg) (st n a : Nat) : Option Nat :=
  let i := (a - (r 0).addr) / st
  if i < n && (r i).addr = a then some i else none

/-- A word of a list of bytes. -/
def wordAt (bs : List Byte) (w : Nat) : Word := (bytesWords bs).getD w 0

/-- A word of LOG_WIN: the entry whose SEQ LOG_SEL names, all 0 when it is not held (R66, R73). -/
def logWindow (s : State) (w : Nat) : Word :=
  match s.img.logEntries.find? (fun e => leAt e 0 4 = (rd s IMG_LOG_SEL).toNat) with
  | some e => wordAt e w
  | none => 0

/-- NV_STAT (R76). With no current record CURRENT reads 0 (DESIGN CHOICE, log entry 62). -/
def nvStat (s : State) : Word :=
  mkWord [(0, 0, b2n (leafRec s false).valid), (1, 1, b2n (leafRec s true).valid), (2, 2, b2n ((currentRec s).getD false)),
    (3, 3, b2n (rdBit s IMG_NV_STAT 3)), (4, 4, b2n s.treeReady)]

/-- TRIM_VAL of the trim selected (R482). -/
def trimVal (s : State) : Word :=
  let i := rdFld s CAL_TRIM_SEL 9 0
  if i < 669 then
    let t := trimOf s i
    mkWord [(9, 0, t.cur.toNat), (25, 16, (t.pend.getD 0).toNat), (26, 26, b2n t.pend.isSome), (27, 27, b2n t.heldAt.isSome)]
  else 0

/-- TRIM_STORE: the selected trim in the current copy of the selected set. With no current copy the manual states no value: it is free
(log entry 6). -/
def trimStore (s : State) : Word :=
  let i := rdFld s CAL_TRIM_SEL 9 0
  let k := rdFld s CAL_TRIM_SEL 14 12
  if i < 669 && k < 5 then
    match currentCopy s k with
    | some b => wordOf (setTrim s (setBase k b) i)
    | none => wordOf (Config.freeNat s.free 0 % 1024)
  else 0

/-- PEND_CNT of a group (R481). -/
def pendCount (s : State) (g : Nat) : Word :=
  let r := groupTrims g
  wordOf (((s.cal.trims.drop r.1).take r.2).filter (fun t => t.pend.isSome)).length

/-- The instance registers (R428, R429). -/
def instWord (s : State) (i : Nat) : Word :=
  match shownInst s with
  | none => 0
  | some x =>
    let c := rdFld s GOOSE_INST_SEL 2 0
    match i with
    | 0 => mkWord [(15, 0, min x.cur 65535), (31, 16, min x.prev 65535)]
    | 1 => BitVec.ofInt 32 (if x.win < 0 then x.win + windowsPerWrap s c else x.win)
    | _ => wordOf (min x.lasting (2 ^ 32 - 1))

/-- The registers of the IMG block that show fuses, the store or the log. With no current record SIG_NEXT reads 0 (DESIGN CHOICE,
log entry 62). -/
def readImg (s : State) (a : Nat) : Word :=
  if a = IMG_SVN_FLOOR.addr then wordOf s.fuses.floor
  else if a = IMG_SIG_NEXT_LO.addr then wordOf ((sigNext s).getD 0)
  else if a = IMG_SIG_NEXT_HI.addr then wordOf ((sigNext s).getD 0 / 2 ^ 32)
  else if a = IMG_KEY_SLOTS.addr then mkWord [(3, 0, s.fuses.enrolled.toNat), (7, 4, s.fuses.revoked.toNat)]
  else if a = IMG_NV_STAT.addr then nvStat s
  else match instAt IMG_DEV_PUB 4 15 a, instAt IMG_LOG_WIN 4 16 a with
    | some w, _ => wordAt (hssPub s.fuses) w
    | none, some w => logWindow s w
    | none, none => rd s (regAt a)

/-- The registers of the Goose that show the ledger and the instances. -/
def readGoose (s : State) (a : Nat) : Word :=
  if a = GOOSE_INST_COUNT.addr then instWord s 0
  else if a = GOOSE_INST_WIN.addr then instWord s 1
  else if a = GOOSE_INST_LASTING.addr then instWord s 2
  else match instAt GOOSE_LEDGER_WIN 4 8 a with
    | some w => (ledgerWindow s (rd64 s GOOSE_LEDGER_SEL_LO GOOSE_LEDGER_SEL_HI)).getD w 0
    | none => rd s (regAt a)

/-- BUSY of an engine: the ticks charged and those of the work in hand (R163). -/
def engBusy (s : State) (e : Nat) : Nat :=
  rd64 s (ENG_BUSY_LO e) (ENG_BUSY_HI e) + (if engState s e = 2 then (s.raw - (eng s e).since).toNat else 0)

/-- What a register shows, by the block its offset lies in. -/
def readHeld (s : State) (a : Nat) : Word :=
  if a < 0x10000 then
    if a = GLB_RST_CAUSE.addr then causeWord s.latch
    else if a = GLB_STRAPS.addr then mkWord [(0, 0, b2n s.pins.bootSel), (1, 1, b2n s.pins.pairSide)]
    else rd s (regAt a)
  else if a < 0x20000 then readImg s a
  else if a < 0x30000 then
    if a = CAL_TRIM_VAL.addr then trimVal s
    else if a = CAL_TRIM_STORE.addr then trimStore s
    else match instAt CAL_PEND_CNT 0x20 7 a with
      | some g => pendCount s g
      | none => rd s (regAt a)
  else if a < 0x40000 then readGoose s a
  else if a = LANE_STAT.addr then wordOf ((List.range 24).filter (fun p => rdFld s (P_PORT_CFG p) 12 9 ≠ 0)).length
  else match instAt SCL_BANK_USE 0x4000 48 a, instAt ENG_BUSY_LO 0x100 128 a, instAt ENG_BUSY_HI 0x100 128 a with
    | some j, _, _ => bankUse s j
    | none, some e, _ => wordOf (engBusy s e)
    | none, none, some e => wordOf (engBusy s e / 2 ^ 32)
    | none, none, none => rd s (regAt a)

/-- The register whose value in force a mirror shows (R12). -/
def mirrorOf (a : Nat) : Option Nat :=
  if 0x400000 ≤ a && a < 0x500000 then (if (a - 0x400000) % 0x10000 < 0x8000 then none else some (a - 0x8000))
  else if 0x300000 ≤ a && a < 0x400000 then (if (a - 0x300000) % 0x4000 < 0x2000 then none else some (a - 0x2000))
  else none

/-- The bits of a register that a read returns: those of every type but WO; the rest are reserved (R8). -/
def RegRow.readable (r : RegRow) : Word := wordOf (r.ro ||| r.rw ||| r.rwf ||| r.w1c ||| r.w1s ||| r.rc)

/-- What a read of an offset returns (R8, R12): 0 at a reserved location; in a mirror the RWF fields in force. -/
def readReg (s : State) (a : Nat) : Word :=
  match mirrorOf a with
  | some b => forceAt s b &&& rwfMask b
  | none =>
    match rowAt a with
    | none => 0
    | some r => readHeld s a &&& r.readable

/-- Whether each master keeps its own value of a register (R298). -/
def ownReg (a : Nat) : Bool := TIM_ADJ_VAL_LO.addr ≤ a && a ≤ TIM_ADJ_RATE_HI.addr

/-- What a read by a master returns: a higher word as its last read of the lowest word latched it, else as it is (R11; log entry
2). -/
def readBy (s : State) (m : Master) (a : Nat) : Word :=
  let now := if ownReg a then ownVal s m (regAt a) else readReg s a
  match wideAt a with
  | some (_, k, _) => if k = 0 then now else (mget s.latches (latchKey m (regAt a))).getD now
  | none =>
    if TIM_SNAP_RAW_HI.addr ≤ a && a ≤ TIM_SNAP_SEC_HI.addr || (0x40400 ≤ a && a < 0x40A00) then
      (mget s.latches (latchKey m (regAt a))).getD now
    else now

/-- The next state of an outcome; the same state where there is none. -/
def reachedBy (s : State) (o : Host.Outcome State Fault Refusal) : State :=
  match o with
  | .next t => t
  | .fault _ => s
  | .refused _ => s

/-- A read that is a command of its own (R225, R296, R307, R399). -/
def readCommand (s : State) (m : Master) (a : Nat) : Option State :=
  if a = TIM_SNAP_RAW_LO.addr then some (reachedBy s (execSnapRead m s))
  else match instAt TXP_TXTS_W0 0x40 24 a, instAt TGT_CLAIM 0x40 8 a, instAt SCL_COEF_DATA 0x4000 48 a with
    | some p, _, _ => some (reachedBy s (execTxtsRead m p s))
    | none, some t, _ => some (reachedBy s (execClaim m t s))
    | none, none, some j => some (reachedBy s (execCoefDataRead m j s))
    | none, none, none => none

/-- Latch the higher words of a wide value for a master (R11). -/
def latchWide (s : State) (m : Master) (a n : Nat) : State :=
  forEach ((List.range n).drop 1) s (fun k s =>
    latch s m (regAt (a + 4 * k)) (if ownReg a then ownVal s m (regAt (a + 4 * k)) else readReg s (a + 4 * k)))

/-- A read by a master: of the lowest word of a wide value it latches the higher words (R11). -/
def readAccess (s : State) (m : Master) (a : Nat) : State :=
  match readCommand s m a with
  | some t => t
  | none =>
    let s' := match wideAt a with
      | some (_, 0, n) => latchWide s m a n
      | some _ => s
      | none => s
    emit s' (.read m (readBy s m a))

/-! ### Writes (R8) -/

/-- The value of a register after a write, by the access types of its fields (R8). -/
def writtenValue (r : RegRow) (old v : Word) : Word :=
  let rw := wordOf (r.rw ||| r.rwf)
  let x := (old &&& ~~~rw) ||| (v &&& rw)
  (x &&& ~~~(v &&& wordOf r.w1c)) ||| (v &&& wordOf r.w1s)

/-- A write of HOLD or of the dump's ARM at or after a latch instant leaves that latch what they were (R84, R111). -/
def noteHold (s : State) (a : Nat) : State :=
  match instAt CH_COMMIT 0x10000 16 a, instAt CH_DUMP_CTL 0x10000 16 a with
  | some n, _ => noteLate s n a (some (rd s (CH_COMMIT n)))
  | none, some n => noteLate s n a (some (rd s (CH_DUMP_CTL n)))
  | none, none => s

/-- A write by its access types; an RWF register joins the pending set of its channel (R8, R13, R14). -/
def maskedWrite (s : State) (a : Nat) (v : Word) : State :=
  match rowAt a with
  | none => s
  | some r =>
    let old := rd s (regAt a)
    let new := writtenValue r old v
    if r.rwf = 0 then wr (noteHold s a) (regAt a) new
    else match rwfOwner s a with
      | none => wr s (regAt a) new
      | some n =>
        let s := noteLate s n a (if (chan s n).dirty.contains a then some old else none)
        modChan (wr s (regAt a) new) n (fun c => { c with
          dirty := if c.dirty.contains a then c.dirty else c.dirty ++ [a] })

/-- Whether a queue takes a new BASE (R367); while a drain still uses its ring it takes none (log entry 62). -/
def baseOpen (s : State) (q : Nat) : Bool := !qEn s q && !qDraining s q && !rdBit s (Q_QCFG q) 3

/-- The owner's own action on a write of LOAD_CMD (R57, R74). -/
def writeLoadCmd (s : State) (v : Word) : State :=
  let tag : Byte := BitVec.ofNat 8 (fld v 15 8)
  if fld v 3 0 = 1 then loadCommand s false (tbit v 4) tag
  else if fld v 3 0 = 2 then loadCommand s true (tbit v 4) tag
  else count s IMG_REFUSE_CNT

/-- A write of ADJ_CMD (R298, R299). -/
def writeAdjCmd (s : State) (m : Master) (v : Word) : State :=
  let tag : Byte := BitVec.ofNat 8 (fld v 15 8)
  reachedBy s (match fld v 1 0 with
    | 1 => execAdjSet m tag s
    | 2 => execAdjStep m tag s
    | 3 => execAdjRate m tag s
    | _ => execAdjOpZero m tag s)

/-- A write of MBX_CMD: POST, then DONE (R388). -/
def writeMbxCmd (s : State) (c : Nat) (v : Word) : State :=
  let s := onlyIf (tbit v 0) s (fun s => reachedBy s (execMbxPost c s))
  onlyIf (tbit v 1) s (fun s => reachedBy s (execMbxDone c s))

/-- A write to a command register of the first blocks. -/
def writeCommandLow (s : State) (m : Master) (a : Nat) (v : Word) : Option State :=
  if a = IMG_LOAD_CMD.addr then some (writeLoadCmd s v)
  else if a = TIM_ADJ_CMD.addr then some (writeAdjCmd s m v)
  else if a = CAL_CMD.addr then some (calCommand s v)
  else if a = MULE_PAIR_CMD.addr then some (pairCommand s v)
  else if a = DPO_CTL.addr then some (reachedBy s (execDpoCtlWrite v s))
  else match instAt IRQ_SWI_SET 4 2 a, instAt IRQ_SWI_CLR 4 2 a, instAt TGT_EOI 0x40 8 a, instAt MBX_CMD 0x100 4 a with
    | some w, _, _, _ => some (reachedBy s (execSwiSet w v s))
    | none, some w, _, _ => some (reachedBy s (execSwiClr w v s))
    | none, none, some t, _ => some (reachedBy s (execEoi t (BitVec.ofNat 9 (fld v 8 0)) s))
    | none, none, none, some c => some (writeMbxCmd s c v)
    | none, none, none, none => none

/-- A write to a command register of the other blocks. -/
def writeCommandHigh (s : State) (a : Nat) (v : Word) : Option State :=
  match instAt P_PORT_CTL 0x100 24 a, instAt P_PORT_CMD 0x100 24 a, instAt OX_FREQ_CMD 0x10000 10 a, instAt SCL_COEF_DATA 0x4000 48 a,
      instAt Q_QCTL 0x40 32768 a with
  | some p, _, _, _, _ => some (reachedBy s (execAdminDown p (tbit v 0) s))
  | _, some p, _, _, _ => some (if tbit v 0 then reachedBy s (execRetrain p s) else s)
  | _, _, some i, _, _ => some (reachedBy s (execFreqCmd i (BitVec.ofNat 2 (fld v 1 0)) (BitVec.ofNat 8 (fld v 15 8)) s))
  | _, _, _, some j, _ => some (reachedBy s (execCoefDataWrite j (BitVec.ofNat 10 (fld v 9 0)) s))
  | _, _, _, _, some q => some (if tbit v 0 then enableQueue s q v else disableQueue s q v)
  | none, none, none, none, none => none

/-- A write to a register of a check-value unit that acts, or that a unit of the Mule link ignores (R423, R427). -/
def writeCk (s : State) (a : Nat) (v : Word) : Option State :=
  if 0x80000 ≤ a && a < 0x80800 then
    let i := (a - 0x80000) / 0x100
    if rdBit s (CK_CTL i) 4 && [(CK_CTL i).addr, (CK_CMD i).addr, (CK_DATA_B i).addr, (CK_DATA_H i).addr, (CK_DATA_W i).addr,
        (CK_EXPECT i).addr, (CK_ALIVE_IN i).addr].contains a then some s
    else if a = (CK_CMD i).addr then some (ckCommand s i v)
    else if a = (CK_DATA_B i).addr then some (ckData s i 1 v)
    else if a = (CK_DATA_H i).addr then some (ckData s i 2 v)
    else if a = (CK_DATA_W i).addr then some (ckData s i 4 v)
    else none
  else none

/-- A register whose write does more than its access type says. -/
def writeSpecial (s : State) (m : Master) (a : Nat) (v : Word) : Option State :=
  if a = TIM_ADJ_SUB.addr then some { s with stages := mput s.stages (ownKey m TIM_ADJ_SUB) (v &&& 0xFFFF) }
  else if 0x70100 ≤ a && a < 0x70500 && (a - 0x70100) % 0x100 < 0x40 && rdBit s (MBX_STAT ((a - 0x70100) / 0x100)) 0 then
    some (count s (MBX_REJ ((a - 0x70100) / 0x100)))
  else match instAt AP_SLOT_MASK 0x100 8 a, instAt CH_DUMP_CTL 0x10000 16 a, instAt TIM_CMP_CTL 0x10 8 a, instAt OX_BANK_POL 0x10000 10 a with
    | some p, _, _, _ =>
      let now := nowN s
      some (modAp (maskedWrite s a v) p (fun x => { x with masks := x.masks ++ [(now, BitVec.ofNat 16 (fld v 15 0))] }))
    | _, some n, _, _ =>
      let s := modChan (noteHold s a) n (fun c => { c with dumpFrame := none })
      some (wrFld s (CH_DUMP_CTL n) 2 0 (if tbit v 0 then 1 else rdFld s (CH_DUMP_CTL n) 2 0 / 2 * 2))
    | _, _, some i, _ => some (if tbit v 0 then wrFld (maskedWrite s a v) (TIM_CMP_CTL i) 15 8 0 else maskedWrite s a v)
    | _, _, _, some i =>
      let old := rdFld s (OX_BANK_POL i) 1 0
      let s := maskedWrite s a v
      some (if rdFld s (OX_BANK_POL i) 1 0 = old then s else loadInit s i)
    | none, none, none, none => none

/-- The master's staged word of a wide value; one it has not staged since its last commit keeps what the register holds. -/
def stagedWord (s : State) (m : Master) (a : Nat) : Word :=
  (mget s.stages (latchKey m (regAt a))).getD (if ownReg a then ownVal s m (regAt a) else rd s (regAt a))

/-- Give one word of a wide value its committed value. -/
def commitWord (s : State) (m : Master) (a : Nat) (v : Word) : State :=
  if ownReg a then
    let msk := wordOf (((rowAt a).map (fun r => r.rw)).getD 0)
    { s with stages := mput s.stages (ownKey m (regAt a)) (v &&& msk) }
  else maskedWrite s a v

/-- A write to the lowest word of a wide value commits the staged higher words with it (R11); BASE of a queue only while it is
accepted (R367). -/
def commitWide (s : State) (m : Master) (a n : Nat) (v : Word) : State :=
  let vs := v :: ((List.range n).drop 1).map (fun k => stagedWord s m (a + 4 * k))
  let drop := ((List.range n).drop 1).foldl (fun st k => mdel st (latchKey m (regAt (a + 4 * k)))) s.stages
  let t := { s with stages := drop }
  let open_ := match instAt Q_BASE_LO 0x40 32768 a with
    | some q => baseOpen s q
    | none => true
  if open_ then forEach vs.zipIdx t (fun (x : Word × Nat) s => commitWord s m (a + 4 * x.2) x.1) else t

/-- A write to a register that holds a value. -/
def plainWrite (s : State) (m : Master) (a : Nat) (v : Word) : State :=
  match wideAt a with
  | some (low, k, n) =>
    if ((rowAt low).map (fun r => r.rw)).getD 0 = 0 then s
    else if k = 0 then commitWide s m a n v
    else { s with stages := mput s.stages (latchKey m (regAt a)) v }
  | none => maskedWrite s a v

/-- Where a write may change what the targets show (R396, R401, R403). -/
def irqRange (a : Nat) : Bool := (0x50000 ≤ a && a < 0x60000) || (0x70000 ≤ a && a < 0x70100)

/-- A write of an aligned word to BAR0 (R8); one of ATT_CMD is `quoteWrite`. -/
def writeAccess (s : State) (m : Master) (a : Nat) (v : Word) : State :=
  match mirrorOf a with
  | some _ => s
  | none =>
    match writeCommandLow s m a v, writeCommandHigh s a v, writeCk s a v, writeSpecial s m a v with
    | some t, _, _, _ => t
    | none, some t, _, _ => t
    | none, none, some t, _ => t
    | none, none, none, some t => t
    | none, none, none, none => onlyIf (irqRange a) (plainWrite s m a v) showTargets

/-- An access that is not an aligned word of BAR0 changes nothing and is counted (R7). -/
def badAccess (s : State) : State := count s HOST_BAD_ACC

/-! ### The commands -/

/-- Whether an offset is a word of BAR0's 32 MiB (R44). -/
def inBar0 (a : Nat) : Bool := a < 0x2000000

/-- W1C bits that hardware sets in the cycle in which a write of 1 clears them end set (R9). -/
def setInCycle (s : State) (a : Nat) (v hw : Word) : State :=
  match mirrorOf a, rowAt a with
  | none, some r => if r.w1c = 0 then s else wr s (regAt a) (rd s (regAt a) ||| (v &&& hw &&& wordOf r.w1c))
  | _, _ => s

/-- A write of ATT_CMD: QUOTE with its TAG (R67). Whether the record reads back is not told by the write: it is free (log entry
35). -/
def quoteWrite (s : State) (v : Word) : State :=
  if tbit v 0 then
    let (x, s) := takeFree s
    takeQuote s (BitVec.ofNat 8 (fld v 15 8)) (Config.freeNat x 0 % 2 = 0)
  else s

/-- REGISTER_WRITE (R8); `hw` are the bits that hardware sets in the same cycle (R9). -/
def execRegisterWrite (m : Master) (a : Nat) (v hw : Word) (s : State) : Host.Outcome State Fault Refusal :=
  if a = IMG_ATT_CMD.addr then actStore true s (fun s => quoteWrite s v)
  else act (inBar0 a) s (fun s => if a % 4 = 0 then setInCycle (writeAccess s m a v) a v hw else badAccess s)

/-- RWF_WRITE (R13): the write is held pending and joins the set of the channel. -/
def execRwfWrite (m : Master) (a : Nat) (v : Word) (s : State) : Host.Outcome State Fault Refusal :=
  act (inBar0 a) s (fun s => if a % 4 = 0 then writeAccess s m a v else badAccess s)

/-- LOW_WORD_WRITE (R11). -/
def execLowWordWrite (m : Master) (a : Nat) (v : Word) (s : State) : Host.Outcome State Fault Refusal :=
  act (inBar0 a) s (fun s => if a % 4 = 0 then writeAccess s m a v else badAccess s)

/-- LOW_WORD_READ (R11). -/
def execLowWordRead (m : Master) (a : Nat) (s : State) : Host.Outcome State Fault Refusal :=
  act (inBar0 a) s (fun s => if a % 4 = 0 then readAccess s m a else emit (badAccess s) (.read m (BitVec.allOnes 32)))

/-- The lowest bit of a mask. -/
def lowBit (v : Word) : Word := v &&& (0 - v)

/-- A read that clears the RC fields of a register; an increment in the same cycle leaves 1 (R8, R9). -/
def clearOnRead (s : State) (a : Nat) (inc : Bool) : State :=
  match rowAt a with
  | none => s
  | some r =>
    if r.rc = 0 then s
    else
      let k := wordOf r.rc
      wr s (regAt a) ((rd s (regAt a) &&& ~~~k) ||| (if inc then lowBit k else 0))

/-- RC_COUNTER_READ (R9). No register of the manual's maps has a field of type RC, so on every offset this is a read. -/
def execRcCounterRead (m : Master) (a : Nat) (inc : Bool) (s : State) : Host.Outcome State Fault Refusal :=
  act (inBar0 a) s (fun s =>
    if a % 4 = 0 then clearOnRead (readAccess s m a) a inc else emit (badAccess s) (.read m (BitVec.allOnes 32)))

/-- BAD_SIZE_ACCESS (R7): a host access of another size or alignment. -/
def execBadSizeAccess (isRead : Bool) (s : State) : Host.Outcome State Fault Refusal :=
  act true s (fun s => let s := badAccess s; if isRead then emit s (.read .host (BitVec.allOnes 32)) else s)

end Sys2Proof.Machine
end

