-- ==== Sys2Proof/Machine/Dispatch.lean ====
section
/-!
DEFINITION. The meaning of each command: one arm per constructor, each a direct call of the meaning in its family's file.
-/
namespace Sys2Proof.Machine

/-- The effect of a command on everything but the queue. -/
def exec (i : Instr) (s : State) : Host.Outcome State Fault Refusal :=
  match i with
  | .registerWrite m a v hw => Sys2Proof.Machine.execRegisterWrite m a v hw s
  | .badSizeAccess isRead => Sys2Proof.Machine.execBadSizeAccess isRead s
  | .rcCounterRead m a inc => Sys2Proof.Machine.execRcCounterRead m a inc s
  | .lowWordRead m a => Sys2Proof.Machine.execLowWordRead m a s
  | .lowWordWrite m a v => Sys2Proof.Machine.execLowWordWrite m a v s
  | .rwfWrite m a v => Sys2Proof.Machine.execRwfWrite m a v s
  | .powerOnResetRelease bootSel pairSide dimms => Sys2Proof.Machine.execPowerOnResetRelease bootSel pairSide dimms s
  | .porstAssert vddioLost => Sys2Proof.Machine.execPorstAssert vddioLost s
  | .brownout rails => Sys2Proof.Machine.execBrownout rails s
  | .load m force tag => Sys2Proof.Machine.execLoad m force tag s
  | .replan m force tag => Sys2Proof.Machine.execReplan m force tag s
  | .loadCmdInvalidOp op => Sys2Proof.Machine.execLoadCmdInvalidOp op s
  | .flashBootStart dir => Sys2Proof.Machine.execFlashBootStart dir s
  | .imageStaged r => Sys2Proof.Machine.execImageStaged r s
  | .verifyComplete r => Sys2Proof.Machine.execVerifyComplete r s
  | .forcedLoadTakesEffect => Sys2Proof.Machine.execForcedLoadTakesEffect s
  | .quote tag writeOk => Sys2Proof.Machine.execQuote tag writeOk s
  | .quoteComplete dmaOk => Sys2Proof.Machine.execQuoteComplete dmaOk s
  | .treeBuilt writeOk => Sys2Proof.Machine.execTreeBuilt writeOk s
  | .videoPacketRx n p => Sys2Proof.Machine.execVideoPacketRx n p s
  | .rwfLatch n => Sys2Proof.Machine.execRwfLatch n s
  | .frameBoundary n => Sys2Proof.Machine.execFrameBoundary n s
  | .inputCutoff n written => Sys2Proof.Machine.execInputCutoff n written s
  | .fieldComplete n => Sys2Proof.Machine.execFieldComplete n s
  | .governorDecision n => Sys2Proof.Machine.execGovernorDecision n s
  | .frameStart n => Sys2Proof.Machine.execFrameStart n s
  | .rateDecision n r => Sys2Proof.Machine.execRateDecision n r s
  | .tileTake e => Sys2Proof.Machine.execTileTake e s
  | .rowCoded e => Sys2Proof.Machine.execRowCoded e s
  | .rescueCheck n => Sys2Proof.Machine.execRescueCheck n s
  | .tileVerified e flips => Sys2Proof.Machine.execTileVerified e flips s
  | .edgePassDone e parity => Sys2Proof.Machine.execEdgePassDone e parity s
  | .engineParityError e element kind => Sys2Proof.Machine.execEngineParityError e element kind s
  | .checkEnd e => Sys2Proof.Machine.execCheckEnd e s
  | .cacheParityError c line => Sys2Proof.Machine.execCacheParityError c line s
  | .clusterUp c selfTestOk => Sys2Proof.Machine.execClusterUp c selfTestOk s
  | .pictureSized n r => Sys2Proof.Machine.execPictureSized n r s
  | .unitPackaged stream => Sys2Proof.Machine.execUnitPackaged stream s
  | .metadataWrite n => Sys2Proof.Machine.execMetadataWrite n s
  | .datagramLaunch p => Sys2Proof.Machine.execDatagramLaunch p s
  | .hostEgressLaunch p => Sys2Proof.Machine.execHostEgressLaunch p s
  | .contribPacketRx u u0 p => Sys2Proof.Machine.execContribPacketRx u u0 p s
  | .pictureDecoded u u0 => Sys2Proof.Machine.execPictureDecoded u u0 s
  | .roiUpdate q => Sys2Proof.Machine.execRoiUpdate q s
  | .filmGrain q => Sys2Proof.Machine.execFilmGrain q s
  | .planeLoad q => Sys2Proof.Machine.execPlaneLoad q s
  | .planeLoadDone n l b px => Sys2Proof.Machine.execPlaneLoadDone n l b px s
  | .splice q => Sys2Proof.Machine.execSplice q s
  | .caption q => Sys2Proof.Machine.execCaption q s
  | .ancPacketRx n ts seq packets => Sys2Proof.Machine.execAncPacketRx n ts seq packets s
  | .retentionFetch q => Sys2Proof.Machine.execRetentionFetch q s
  | .resend q => Sys2Proof.Machine.execResend q s
  | .sqLoad q => Sys2Proof.Machine.execSqLoad q s
  | .unknownOpcode q => Sys2Proof.Machine.execUnknownOpcode q s
  | .coefDataWrite j v => Sys2Proof.Machine.execCoefDataWrite j v s
  | .coefDataRead m j => Sys2Proof.Machine.execCoefDataRead m j s
  | .tileBufferDone t => Sys2Proof.Machine.execTileBufferDone t s
  | .displayFrame => Sys2Proof.Machine.execDisplayFrame s
  | .hpdAssert => Sys2Proof.Machine.execHpdAssert s
  | .hpdLoss => Sys2Proof.Machine.execHpdLoss s
  | .irqHpd linkLost => Sys2Proof.Machine.execIrqHpd linkLost s
  | .dpTrainingDone rate => Sys2Proof.Machine.execDpTrainingDone rate s
  | .dpoCtlWrite v => Sys2Proof.Machine.execDpoCtlWrite v s
  | .apLock p => Sys2Proof.Machine.execApLock p s
  | .apUnlock p => Sys2Proof.Machine.execApUnlock p s
  | .audioBlock rate96 => Sys2Proof.Machine.execAudioBlock rate96 s
  | .ratePeriodEnd p => Sys2Proof.Machine.execRatePeriodEnd p s
  | .audioPacketRx f p => Sys2Proof.Machine.execAudioPacketRx f p s
  | .audioAuEncoded g => Sys2Proof.Machine.execAudioAuEncoded g s
  | .adjSet m tag => Sys2Proof.Machine.execAdjSet m tag s
  | .adjStep m tag => Sys2Proof.Machine.execAdjStep m tag s
  | .adjRate m tag => Sys2Proof.Machine.execAdjRate m tag s
  | .adjOpZero m tag => Sys2Proof.Machine.execAdjOpZero m tag s
  | .rebase => Sys2Proof.Machine.execRebase s
  | .snapRead m => Sys2Proof.Machine.execSnapRead m s
  | .cmpFire u1 => Sys2Proof.Machine.execCmpFire u1 s
  | .ptpRx p msg => Sys2Proof.Machine.execPtpRx p msg s
  | .txtsRead m p => Sys2Proof.Machine.execTxtsRead m p s
  | .refStop => Sys2Proof.Machine.execRefStop s
  | .refGlitch => Sys2Proof.Machine.execRefGlitch s
  | .refWindowEnd count glitch highPct => Sys2Proof.Machine.execRefWindowEnd count glitch highPct s
  | .portAttemptStart p => Sys2Proof.Machine.execPortAttemptStart p s
  | .anComplete p common => Sys2Proof.Machine.execAnComplete p common s
  | .anTimeout p => Sys2Proof.Machine.execAnTimeout p s
  | .trainComplete p inverted => Sys2Proof.Machine.execTrainComplete p inverted s
  | .trainTimeout p => Sys2Proof.Machine.execTrainTimeout p s
  | .alignComplete p lanes pcs => Sys2Proof.Machine.execAlignComplete p lanes pcs s
  | .alignTimeout p => Sys2Proof.Machine.execAlignTimeout p s
  | .retryWaitEnd p => Sys2Proof.Machine.execRetryWaitEnd p s
  | .losAssert l => Sys2Proof.Machine.execLosAssert l s
  | .losClear l => Sys2Proof.Machine.execLosClear l s
  | .lolAssert l => Sys2Proof.Machine.execLolAssert l s
  | .lolClear l => Sys2Proof.Machine.execLolClear l s
  | .blockLockLoss p pcs => Sys2Proof.Machine.execBlockLockLoss p pcs s
  | .markerLockLoss p markers => Sys2Proof.Machine.execMarkerLockLoss p markers s
  | .retrain p => Sys2Proof.Machine.execRetrain p s
  | .adminDown p v => Sys2Proof.Machine.execAdminDown p v s
  | .faultOrderedSetRx p => Sys2Proof.Machine.execFaultOrderedSetRx p s
  | .frameRx p f => Sys2Proof.Machine.execFrameRx p f s
  | .fecCorrected p => Sys2Proof.Machine.execFecCorrected p s
  | .fecUncorrectable p => Sys2Proof.Machine.execFecUncorrectable p s
  | .mergeWaitExpiry f => Sys2Proof.Machine.execMergeWaitExpiry f s
  | .pathInactive f pathB => Sys2Proof.Machine.execPathInactive f pathB s
  | .memoryRequest u1 addr wr => Sys2Proof.Machine.execMemoryRequest u1 addr wr s
  | .readComplete u1 r again other => Sys2Proof.Machine.execReadComplete u1 r again other s
  | .refreshDue u1 t => Sys2Proof.Machine.execRefreshDue u1 t s
  | .refreshRatePoll u1 t divisor => Sys2Proof.Machine.execRefreshRatePoll u1 t divisor s
  | .retrainPassStart u1 => Sys2Proof.Machine.execRetrainPassStart u1 s
  | .trainingWindow u1 => Sys2Proof.Machine.execTrainingWindow u1 s
  | .trainingStepDone u1 t sweeps => Sys2Proof.Machine.execTrainingStepDone u1 t sweeps s
  | .fullTrainingDone u1 t => Sys2Proof.Machine.execFullTrainingDone u1 t s
  | .freqCmd u1 rate tag => Sys2Proof.Machine.execFreqCmd u1 rate tag s
  | .parityAlert u1 d rank => Sys2Proof.Machine.execParityAlert u1 d rank s
  | .alertRelease u1 d => Sys2Proof.Machine.execAlertRelease u1 d s
  | .patrolRead u1 r again other => Sys2Proof.Machine.execPatrolRead u1 r again other s
  | .doorbell q isRead sizeOk v => Sys2Proof.Machine.execDoorbell q isRead sizeOk v s
  | .descriptorFetch q desc payload => Sys2Proof.Machine.execDescriptorFetch q desc payload s
  | .queueEnable q v => Sys2Proof.Machine.execQueueEnable q v s
  | .queueDisable q v => Sys2Proof.Machine.execQueueDisable q v s
  | .completionWrite q => Sys2Proof.Machine.execCompletionWrite q s
  | .moderationHoldoff g => Sys2Proof.Machine.execModerationHoldoff g s
  | .l1EntryRequest aspm idleUs => Sys2Proof.Machine.execL1EntryRequest aspm idleUs s
  | .d3hotEntry d3hot bme pmeEn => Sys2Proof.Machine.execD3hotEntry d3hot bme pmeEn s
  | .d0Return msix funcMask table => Sys2Proof.Machine.execD0Return msix funcMask table s
  | .pmeRepeat => Sys2Proof.Machine.execPmeRepeat s
  | .functionReset kind => Sys2Proof.Machine.execFunctionReset kind s
  | .perstRelease => Sys2Proof.Machine.execPerstRelease s
  | .mbxPost c => Sys2Proof.Machine.execMbxPost c s
  | .mbxDone c => Sys2Proof.Machine.execMbxDone c s
  | .mbxReply c => Sys2Proof.Machine.execMbxReply c s
  | .irqEvaluation => Sys2Proof.Machine.execIrqEvaluation s
  | .claim m t => Sys2Proof.Machine.execClaim m t s
  | .eoi t u0 => Sys2Proof.Machine.execEoi t u0 s
  | .swiSet w v => Sys2Proof.Machine.execSwiSet w v s
  | .swiClr w v => Sys2Proof.Machine.execSwiClr w v s
  | .coreWait c => Sys2Proof.Machine.execCoreWait c s
  | .faultEvent cls inst stamp data => Sys2Proof.Machine.execFaultEvent cls inst stamp data s
  | .ledgerRelease => Sys2Proof.Machine.execLedgerRelease s
  | .ckStart u1 v => Sys2Proof.Machine.execCkStart u1 v s
  | .ckFinish u1 v => Sys2Proof.Machine.execCkFinish u1 v s
  | .ckAliveReset u1 v => Sys2Proof.Machine.execCkAliveReset u1 v s
  | .dataB u1 v => Sys2Proof.Machine.execDataB u1 v s
  | .dataH u1 v => Sys2Proof.Machine.execDataH u1 v s
  | .dataW u1 v => Sys2Proof.Machine.execDataW u1 v s
  | .claimCmd v => Sys2Proof.Machine.execClaimCmd v s
  | .giveUpCmd v => Sys2Proof.Machine.execGiveUpCmd v s
  | .joinCmd v => Sys2Proof.Machine.execJoinCmd v s
  | .resetLink v => Sys2Proof.Machine.execResetLink v s
  | .takeover => Sys2Proof.Machine.execTakeover s
  | .holdKeeperExpiry => Sys2Proof.Machine.execHoldKeeperExpiry s
  | .muleLinkUp lanes h => Sys2Proof.Machine.execMuleLinkUp lanes h s
  | .muleLinkTimeout => Sys2Proof.Machine.execMuleLinkTimeout s
  | .muleMessageCorrupt type => Sys2Proof.Machine.execMuleMessageCorrupt type s
  | .idle h => Sys2Proof.Machine.execIdle h s
  | .idleSend => Sys2Proof.Machine.execIdleSend s
  | .nak h expected => Sys2Proof.Machine.execNak h expected s
  | .test h pattern => Sys2Proof.Machine.execTest h pattern s
  | .token h n b => Sys2Proof.Machine.execToken h n b s
  | .tokenTimeout n => Sys2Proof.Machine.execTokenTimeout n s
  | .rescue h n frame rows => Sys2Proof.Machine.execRescue h n frame rows s
  | .rescueNoticeTimeout n => Sys2Proof.Machine.execRescueNoticeTimeout n s
  | .state h n b => Sys2Proof.Machine.execState h n b s
  | .stateTimeout n => Sys2Proof.Machine.execStateTimeout n s
  | .full h n b => Sys2Proof.Machine.execFull h n b s
  | .replanMsg h n meas boundary => Sys2Proof.Machine.execReplanMsg h n meas boundary s
  | .ack h entries => Sys2Proof.Machine.execAck h entries s
  | .ackSend => Sys2Proof.Machine.execAckSend s
  | .audio h ap mask b samples => Sys2Proof.Machine.execAudio h ap mask b samples s
  | .audioBlockTimeout p b => Sys2Proof.Machine.execAudioBlockTimeout p b s
  | .health h b => Sys2Proof.Machine.execHealth h b s
  | .healthSend => Sys2Proof.Machine.execHealthSend s
  | .healthMiss => Sys2Proof.Machine.execHealthMiss s
  | .join h b => Sys2Proof.Machine.execJoin h b s
  | .autoJoin => Sys2Proof.Machine.execAutoJoin s
  | .giveUp h reason chFault => Sys2Proof.Machine.execGiveUp h reason chFault s
  | .taken h oldEpoch => Sys2Proof.Machine.execTaken h oldEpoch s
  | .selfTestStart isScout u => Sys2Proof.Machine.execSelfTestStart isScout u s
  | .selfTestDone isScout u crcs => Sys2Proof.Machine.execSelfTestDone isScout u crcs s
  | .eyeMeasure margins => Sys2Proof.Machine.execEyeMeasure margins s
  | .trimInterpolation => Sys2Proof.Machine.execTrimInterpolation s
  | .calibrationResult trim a b c d storeOk => Sys2Proof.Machine.execCalibrationResult trim a b c d storeOk s
  | .calCmd v => Sys2Proof.Machine.execCalCmd v s
  | .calPeriodic => Sys2Proof.Machine.execCalPeriodic s
  | .sensorConversion ts vs => Sys2Proof.Machine.execSensorConversion ts vs s
  | .thermalShutdown => Sys2Proof.Machine.execThermalShutdown s
  | .avsDecision spd => Sys2Proof.Machine.execAvsDecision spd s
  | .avsReadback mv => Sys2Proof.Machine.execAvsReadback mv s
  | .pinShort cls ox => Sys2Proof.Machine.execPinShort cls ox s
  | .holdStuckHigh => Sys2Proof.Machine.execHoldStuckHigh s
  | .diodeSense reversed isOpen => Sys2Proof.Machine.execDiodeSense reversed isOpen s
  | .mbxInTaken c => Sys2Proof.Machine.execMbxInTaken c s
  | .serialAudioFrameRx p valid zPreamble slots nonAudio => Sys2Proof.Machine.execSerialAudioFrameRx p valid zPreamble slots nonAudio s
  | .composedPictureComplete n => Sys2Proof.Machine.execComposedPictureComplete n s
  | .scalerOutputComplete j o => Sys2Proof.Machine.execScalerOutputComplete j o s
  | .faultRxClear p => Sys2Proof.Machine.execFaultRxClear p s
  | .shortCleared cls => Sys2Proof.Machine.execShortCleared cls s
  | .fieldDumpDone n dmaErr => Sys2Proof.Machine.execFieldDumpDone n dmaErr s
  | .retentionFetchDone q copied dmaErr => Sys2Proof.Machine.execRetentionFetchDone q copied dmaErr s
  | .pcieLinkUp speed width => Sys2Proof.Machine.execPcieLinkUp speed width s
  | .muleBringupRestart => Sys2Proof.Machine.execMuleBringupRestart s

end Sys2Proof.Machine
end

