-- ==== Sys2Proof/Machine/Idle.lean ====
section
/-!
DEFINITION. What the block does while no command waits: one tick of the raw counter (R293; DESIGN CHOICE, log entry 3).
-/
namespace Sys2Proof.Machine

/-- One tick: the raw counter goes up by one and wraps at 2^48; at the wrap the fault windows begin anew (R293, R410). Once every
event stamped before a class was changed has been reported, 4 µs later, the instant of the change is forgotten (R409, R410). A
device held in reset does not count (R293: the counter starts at the release of reset). -/
def tick (s : State) : State :=
  if s.power = .held then s
  else
    let r := s.raw + 1
    let s := if r = 0 then wrapWindows s else s
    { s with raw := r, classSince := s.classSince.filter (fun x => sdiff r x.2 ≤ 5000) }

end Sys2Proof.Machine
end

