-- ==== Sys2Proof/WellFormed.lean ====
section
/-!
DEFINITION. Which commands name units the device has: the numbers of R5 and R44, the widths of the operands.
-/
namespace Sys2Proof

/-- The number of instances of a fault class (R409). -/
def faultInstances (cls : Nat) : Nat :=
  match cls with
  | 0 | 1 => 96
  | 2 => 24
  | 3 => 128
  | 4 => 1
  | 5 => 16
  | _ => 0

/-- A command on units the device has. -/
def Instr.wf (i : Instr) : Bool :=
  match i with
  | .registerWrite _ a _ _ => a < 0x2000000
  | .badSizeAccess _ => true
  | .rcCounterRead _ a _ => a < 0x2000000
  | .lowWordRead _ a => a < 0x2000000
  | .lowWordWrite _ a _ => a < 0x2000000
  | .rwfWrite _ a _ => a < 0x2000000
  | .powerOnResetRelease _ _ _ => true
  | .porstAssert _ => true
  | .brownout _ => true
  | .load _ _ _ => true
  | .replan _ _ _ => true
  | .loadCmdInvalidOp _ => true
  | .flashBootStart _ => true
  | .imageStaged _ => true
  | .verifyComplete _ => true
  | .forcedLoadTakesEffect => true
  | .quote _ _ => true
  | .quoteComplete _ => true
  | .treeBuilt _ => true
  | .videoPacketRx n _ => n < 16
  | .rwfLatch n => n < 16
  | .frameBoundary n => n < 16
  | .inputCutoff n _ => n < 16
  | .fieldComplete n => n < 16
  | .governorDecision n => n < 16
  | .frameStart n => n < 16
  | .rateDecision n r => n < 16 && r < 40
  | .tileTake e => e < 128
  | .rowCoded e => e < 128
  | .rescueCheck n => n < 16
  | .tileVerified e _ => e < 128
  | .edgePassDone e _ => e < 128
  | .engineParityError e _ _ => e < 128
  | .checkEnd e => e < 128
  | .cacheParityError c _ => c < 16
  | .clusterUp c _ => c < 16
  | .pictureSized n r => n < 16 && r < 40
  | .unitPackaged stream => stream < 1024
  | .metadataWrite n => n < 16
  | .datagramLaunch p => p < 24
  | .hostEgressLaunch p => p < 24
  | .contribPacketRx u s _ => u < 4 && s < 4
  | .pictureDecoded u s => u < 4 && s < 4
  | .roiUpdate q => q < 32768
  | .filmGrain q => q < 32768
  | .planeLoad q => q < 32768
  | .planeLoadDone n l b _ => n < 16 && 0 < l && l < 8 && b < 4
  | .splice q => q < 32768
  | .caption q => q < 32768
  | .ancPacketRx n _ _ _ => n < 16
  | .retentionFetch q => q < 32768
  | .resend q => q < 32768
  | .sqLoad q => q < 32768
  | .unknownOpcode q => q < 32768
  | .coefDataWrite j _ => j < 48
  | .coefDataRead _ j => j < 48
  | .tileBufferDone t => t < 16
  | .displayFrame => true
  | .hpdAssert => true
  | .hpdLoss => true
  | .irqHpd _ => true
  | .dpTrainingDone _ => true
  | .dpoCtlWrite _ => true
  | .apLock p => p < 8
  | .apUnlock p => p < 8
  | .audioBlock _ => true
  | .ratePeriodEnd p => p < 8
  | .audioPacketRx f _ => f < 32
  | .audioAuEncoded g => g < 32
  | .adjSet _ _ => true
  | .adjStep _ _ => true
  | .adjRate _ _ => true
  | .adjOpZero _ _ => true
  | .rebase => true
  | .snapRead _ => true
  | .cmpFire i => i < 8
  | .ptpRx p _ => p < 24
  | .txtsRead _ _ => true
  | .refStop => true
  | .refGlitch => true
  | .refWindowEnd _ _ _ => true
  | .portAttemptStart p => p < 24
  | .anComplete p _ => p < 24
  | .anTimeout p => p < 24
  | .trainComplete p _ => p < 24
  | .trainTimeout p => p < 24
  | .alignComplete p _ _ => p < 24
  | .alignTimeout p => p < 24
  | .retryWaitEnd p => p < 24
  | .losAssert l => l < 52
  | .losClear l => l < 52
  | .lolAssert l => l < 52
  | .lolClear l => l < 52
  | .blockLockLoss p _ => p < 28
  | .markerLockLoss p _ => p < 24
  | .retrain p => p < 24
  | .adminDown p _ => p < 24
  | .faultOrderedSetRx p => p < 24
  | .frameRx p _ => p < 24
  | .fecCorrected p => p < 24
  | .fecUncorrectable p => p < 24
  | .mergeWaitExpiry f => f < 128
  | .pathInactive f _ => f < 128
  | .memoryRequest i _ _ => i < 10
  | .readComplete i _ _ _ => i < 10
  | .refreshDue i t => i < 10 && t < 32
  | .refreshRatePoll i t _ => i < 10 && t < 32
  | .retrainPassStart i => i < 10
  | .trainingWindow i => i < 10
  | .trainingStepDone i t _ => i < 10 && t < 32
  | .fullTrainingDone i t => i < 10 && t < 32
  | .freqCmd i _ _ => i < 10
  | .parityAlert i d _ => i < 10 && d < (if i < 2 then 16 else 1)
  | .alertRelease i d => i < 10 && d < (if i < 2 then 16 else 1)
  | .patrolRead i _ _ _ => i < 10
  | .doorbell q _ _ _ => q < 32768
  | .descriptorFetch q _ _ => q < 32768
  | .queueEnable q _ => q < 32768
  | .queueDisable q _ => q < 32768
  | .completionWrite q => q < 32768
  | .moderationHoldoff g => g < 256
  | .l1EntryRequest _ _ => true
  | .d3hotEntry _ _ _ => true
  | .d0Return _ _ _ => true
  | .pmeRepeat => true
  | .functionReset _ => true
  | .perstRelease => true
  | .mbxPost c => c < 4
  | .mbxDone c => c < 4
  | .mbxReply c => c < 4
  | .irqEvaluation => true
  | .claim _ t => t < 8
  | .eoi t _ => t < 8
  | .swiSet w _ => w < 2
  | .swiClr w _ => w < 2
  | .coreWait c => c < 4
  | .faultEvent cls inst _ _ => inst < faultInstances cls
  | .ledgerRelease => true
  | .ckStart i _ => i < 8
  | .ckFinish i _ => i < 8
  | .ckAliveReset i _ => i < 8
  | .dataB i _ => i < 8
  | .dataH i _ => i < 8
  | .dataW i _ => i < 8
  | .claimCmd _ => true
  | .giveUpCmd _ => true
  | .joinCmd _ => true
  | .resetLink _ => true
  | .takeover => true
  | .holdKeeperExpiry => true
  | .muleLinkUp _ _ => true
  | .muleLinkTimeout => true
  | .muleMessageCorrupt _ => true
  | .idle _ => true
  | .idleSend => true
  | .nak _ _ => true
  | .test _ _ => true
  | .token _ n _ => n < 16
  | .tokenTimeout n => n < 16
  | .rescue _ n _ _ => n < 16
  | .rescueNoticeTimeout n => n < 16
  | .state _ n _ => n < 16
  | .stateTimeout n => n < 16
  | .full _ n _ => n < 16
  | .replanMsg _ n _ _ => n < 16
  | .ack _ _ => true
  | .ackSend => true
  | .audio _ ap _ _ _ => ap < 8
  | .audioBlockTimeout p _ => p < 8
  | .health _ _ => true
  | .healthSend => true
  | .healthMiss => true
  | .join _ _ => true
  | .autoJoin => true
  | .giveUp _ _ _ => true
  | .taken _ _ => true
  | .selfTestStart isScout u => u < (if isScout then 16 else 128)
  | .selfTestDone isScout u _ => u < (if isScout then 16 else 128)
  | .eyeMeasure _ => true
  | .trimInterpolation => true
  | .calibrationResult trim _ _ _ _ _ => trim < 669
  | .calCmd _ => true
  | .calPeriodic => true
  | .sensorConversion _ _ => true
  | .thermalShutdown => true
  | .avsDecision _ => true
  | .avsReadback _ => true
  | .pinShort _ _ => true
  | .holdStuckHigh => true
  | .diodeSense _ _ => true
  | .mbxInTaken c => c < 4
  | .serialAudioFrameRx p _ _ _ _ => p < 8
  | .composedPictureComplete n => n < 16
  | .scalerOutputComplete j o => j < 48 && o < 16
  | .faultRxClear p => p < 24
  | .shortCleared _ => true
  | .fieldDumpDone n _ => n < 16
  | .retentionFetchDone q _ _ => q < 32768
  | .pcieLinkUp _ _ => true
  | .muleBringupRestart => true

end Sys2Proof
end

