-- ==== Sys2Proof/Safety.lean ====
section
/-!
DEFINITION. The words the statements are written with: a device that runs, stores in order, registers left alone, plain registers,
commands the device takes.
-/
namespace Sys2Proof.Machine

/-- The device runs: it is neither held in reset nor shut down (R477, R485, R491). -/
def runs (s : State) : Prop := s.power = .running

/-- The byte stores are in their canonical form. -/
def storesWf (s : State) : Prop := Memory.wf s.dev = true ∧ Memory.wf s.nv = true

/-- A command the device takes: its operands name units the device has, and a sector request an address it has (R5, R339). -/
def takes (s : State) (i : Instr) : Prop := i.wf = true ∧ ∀ x a w, i = .memoryRequest x a w → inRange s x a = true

/-- Every register but those at the offsets of a list holds in `t` what it holds in `s`. -/
def sameElse (s t : State) (offsets : List Nat) : Prop := ∀ r : Reg, r.addr ∉ offsets → rd t r = rd s r

/-- What no command but a few changes: device memory, the ferroelectric store, the fuses, the raw counter, the power state and the
queue. -/
def keepsStores (s t : State) : Prop :=
  t.dev = s.dev ∧ t.nv = s.nv ∧ t.fuses = s.fuses ∧ t.raw = s.raw ∧ t.power = s.power ∧ t.pending = s.pending

/-- The offset of a register whose write does what its access type says and nothing else: no mirror, no word of a wide value, no
register whose write is a command of its own. -/
def plainRegister (a : Nat) : Prop :=
  a < 0x2000000 ∧ a % 4 = 0 ∧ mirrorOf a = none ∧ wideAt a = none ∧ irqRange a = false ∧ a ≠ IMG_ATT_CMD.addr ∧
    ∀ (s : State) (m : Master) (v : Word),
      writeCommandLow s m a v = none ∧ writeCommandHigh s a v = none ∧ writeCk s a v = none ∧ writeSpecial s m a v = none

/-- The header of a received Mule message (R438). -/
def muleHeader : Instr → Option MuleHdr
  | .idle h => some h
  | .nak h _ => some h
  | .test h _ => some h
  | .token h _ _ => some h
  | .rescue h _ _ _ => some h
  | .state h _ _ => some h
  | .full h _ _ => some h
  | .replanMsg h _ _ _ => some h
  | .ack h _ => some h
  | .audio h _ _ _ _ => some h
  | .health h _ => some h
  | .join h _ => some h
  | .giveUp h _ _ => some h
  | .taken h _ => some h
  | _ => none

/-- The body of a received Mule message (R438). -/
def muleBody : Instr → List Byte
  | .nak _ e => wordBytes e ++ zeros 4
  | .test _ p => p
  | .token _ _ b => tokenBodyBytes b
  | .rescue _ _ frame rows => leBytes 8 frame ++ leBytes 1 rows.length ++ zeros 7 ++ padUp 8 ((rows.map (leBytes 2)).flatten)
  | .state _ _ b => stateBytes b
  | .full _ _ b => fullBytes b
  | .replanMsg _ n meas bd => leBytes 8 n ++ meas ++ leBytes 8 bd
  | .ack _ es => ackBody es
  | .audio _ p mask b xs => audioBody p mask b xs
  | .health _ b => (b.words.map wordBytes).flatten
  | .join _ b => joinBytes b
  | .giveUp _ reason cf => wordBytes reason ++ leBytes 2 cf.toNat ++ zeros 2
  | .taken _ e => wordBytes e ++ zeros 4
  | _ => []

end Sys2Proof.Machine
end

