-- ==== Sys2Proof/Certificates/Slice0/Obligations.lean ====
section
/-!
DEFINITION. The statements for the provers, family by family in the order of the command table.
-/
open Sys2Proof Sys2Proof.Machine

/-- For every command c, queue rest and state s, a step of s with c at the front of its queue is exec of c on s with the
queue's rest. (spec/95_what_each_step_holds.md) -/
def Obligations.StepRunsFrontCommand : Prop :=
  ∀ (c : Instr) (rest : List Instr) (s : State), step { s with pending := c :: rest } = exec c { s with pending := rest }

/-- With no command waiting a step answers a next state in which the raw counter of a device that is not held in reset is
one higher modulo 2^48, the instants at which fault classes were changed are forgotten once they lie more than 5,000
ticks back, and nothing else has changed unless the counter wrapped; a device held in reset is unchanged. That an idle
step is one tick is the model's choice (log entry 3). (R293, R410, spec/11_time.md) -/
def Obligations.IdleStepTicks : Prop :=
  ∀ s : State, s.pending = [] →
    (s.power = .held → step s = .next s) ∧
    (s.power ≠ .held → s.raw ≠ BitVec.allOnes 48 → step s = .next { s with
      raw := s.raw + 1, classSince := s.classSince.filter (fun x => sdiff (s.raw + 1) x.2 ≤ 5000) }) ∧
    (s.power ≠ .held → s.raw = BitVec.allOnes 48 → ∃ t, step s = .next t ∧ t.raw = 0 ∧ keepsStores { s with raw := 0 } t ∧ t.regs = s.regs)

/-- After reset every register reads its reset value as the maps give it, its value in force too, the raw counter is 0, no
image is in force or being loaded, no command waits, the device runs, both byte stores are in canonical form, and the
cause latch shows POWER alone. That the straps, fuses and stores are empty is the model's choice (log entries 1, 5 and
61). (R293, R485, R487, R505, spec/19_power_pins_start.md) -/
def Obligations.ResetRegisters : Prop :=
  (∀ r : Reg, rd State.reset r = r.reset ∧ rdf State.reset r = r.reset) ∧ State.reset.raw = 0 ∧ State.reset.img.inForce = none ∧
    State.reset.img.cmd = none ∧ State.reset.pending = [] ∧ runs State.reset ∧ storesWf State.reset ∧
    State.reset.latch = { power := true, porst := false, brownout := false, rails := 0 }

/-- On a running device a REGISTER_WRITE of any master to a plain register answers a next state in which, bit by bit, a
W1S bit written 1 is set, a W1C bit written 1 is cleared unless hardware sets it in the same cycle, which leaves it
set, an RW or RWF bit holds the bit written and every other bit is unchanged; every other register, the byte stores,
the fuses and the raw counter are unchanged. At a reserved location the write changes no register. On a running device
an RWF_WRITE to a plain register with RWF fields whose owning channel is n answers a next state in which the register
reads the value written in its RWF bits, no value in force has changed, and the register is in the set of writes
pending for channel n. (R8, R9, R13, spec/00_scope.md) -/
def Obligations.RegisterWriteByType : Prop :=
  (
  (∀ (m : Master) (a : Nat) (v hw : Word) (s : State) (row : RegRow), runs s → plainRegister a → rowAt a = some row →
    ∃ t, exec (.registerWrite m a v hw) s = .next t ∧ sameElse s t [a] ∧ keepsStores s t ∧
      ∀ i < 32, (rd t (regAt a)).getLsbD i =
        if row.w1s.testBit i && v.getLsbD i then true
        else if row.w1c.testBit i && v.getLsbD i then hw.getLsbD i
        else if row.rw.testBit i || row.rwf.testBit i then v.getLsbD i
        else (rd s (regAt a)).getLsbD i) ∧
  (∀ (m : Master) (a : Nat) (v hw : Word) (s : State), runs s → plainRegister a → rowAt a = none →
    ∃ t, exec (.registerWrite m a v hw) s = .next t ∧ sameElse s t [] ∧ keepsStores s t)
  ) ∧ (
  ∀ (m : Master) (a n : Nat) (v : Word) (s : State) (row : RegRow), runs s → plainRegister a → rowAt a = some row → row.rwf ≠ 0 →
    rwfOwner s a = some n → n < s.chans.length →
    ∃ t, exec (.rwfWrite m a v) s = .next t ∧ t.force = s.force ∧ a ∈ (chan t n).dirty ∧ sameElse s t [a] ∧ keepsStores s t ∧
      (∀ k ≠ n, chan t k = chan s k) ∧
      ∀ i < 32, row.rwf.testBit i → row.w1c.testBit i = false → row.w1s.testBit i = false →
        (rd t (regAt a)).getLsbD i = v.getLsbD i
  )

/-- At offset 0x8000 + x of a channel's block a read returns the RWF bits of the value in force of the register at offset
x, 0 where that register has none, and a read by any master changes no register and gives that value; a write there by
any master changes nothing. On a running device an RC_COUNTER_READ of an aligned offset that no read command owns
answers a next state in which the master has read the value the register showed before, and, where the register has
fields of type RC, those fields hold 1 in their lowest bit when an increment came in the same cycle and 0 otherwise,
every other bit and register unchanged; where it has none no register changes. The maps give no register a field of
type RC. (R12, spec/00_scope.md, R8, R9) -/
def Obligations.MirrorsAndReadClearCounters : Prop :=
  (
  ∀ (m : Master) (n x : Nat) (v hw : Word) (s : State), runs s → n < 16 → x < 0x8000 → x % 4 = 0 →
    let a := 0x400000 + n * 0x10000 + 0x8000 + x
    readReg s a = forceAt s (a - 0x8000) &&& rwfMask (a - 0x8000) ∧
      (rwfMask (a - 0x8000) = 0 → readReg s a = 0) ∧
      (∃ t, exec (.rcCounterRead m a false) s = .next t ∧ t.out = .read m (readReg s a) :: s.out ∧ t.regs = s.regs ∧ keepsStores s t) ∧
      (∃ t, exec (.registerWrite m a v hw) s = .next t ∧ t = s)
  ) ∧ (
  (∀ (m : Master) (a : Nat) (inc : Bool) (s : State) (row : RegRow), runs s → inBar0 a = true → a % 4 = 0 → readCommand s m a = none →
    wideAt a = none → rowAt a = some row →
    ∃ t, exec (.rcCounterRead m a inc) s = .next t ∧ t.out = .read m (readBy s m a) :: s.out ∧ sameElse s t [a] ∧ keepsStores s t ∧
      rd t (regAt a) = if row.rc = 0 then rd s (regAt a)
        else (rd s (regAt a) &&& ~~~(wordOf row.rc)) ||| (if inc then lowBit (wordOf row.rc) else 0)) ∧
  (∀ (m : Master) (a : Nat) (inc : Bool) (s : State), runs s → inBar0 a = true → a % 4 = 0 → readCommand s m a = none →
    wideAt a = none → rowAt a = none →
    ∃ t, exec (.rcCounterRead m a inc) s = .next t ∧ t.out = .read m (readBy s m a) :: s.out ∧ sameElse s t [] ∧ keepsStores s t)
  )

/-- On a running device a LOW_WORD_READ by master m of the lowest word of a wide value that every master shares answers a
next state in which the value read is the word shown and every later read by m of a higher word of that value returns
the word as it was then, whatever the registers hold by then; the latches of every other master are unchanged and no
register changes. A device whose read of that offset is a command of its own (the snapshot, the stamps, CLAIM,
COEF_DATA) has it in the statement of that command. On a running device a LOW_WORD_WRITE by master m to the lowest
word of a two-word value of plain RW fields whose higher word m has staged as h answers a next state in which the
lowest word takes v and the higher word takes h, each in its RW bits; the higher word's stage is empty again. A
LOW_WORD_WRITE to the higher word stages the word and changes no register. (R11, spec/00_scope.md) -/
def Obligations.WideValuesLatchAndCommit : Prop :=
  (
  ∀ (m : Master) (a n : Nat) (s : State), runs s → inBar0 a = true → a % 4 = 0 → wideAt a = some (a, 0, n) → ownReg a = false →
    (∀ k < n, ownReg (a + 4 * k) = false ∧ wideAt (a + 4 * k) = some (a, k, n)) → readCommand s m a = none →
    ∃ t, exec (.lowWordRead m a) s = .next t ∧ t.out = .read m (readReg s a) :: s.out ∧ t.regs = s.regs ∧ keepsStores s t ∧
      (∀ k, 0 < k → k < n → ∀ u : State, u.latches = t.latches → readBy u m (a + 4 * k) = readReg s (a + 4 * k)) ∧
      (∀ m' : Master, m' ≠ m → a + 4 * n ≤ 0x2000000 → ∀ r : Reg, r.addr < 0x2000000 →
        mget t.latches (latchKey m' r) = mget s.latches (latchKey m' r))
  ) ∧ (
  (∀ (m : Master) (a : Nat) (v h : Word) (s : State) (r0 r1 : RegRow), runs s → inBar0 a = true → a % 4 = 0 →
    wideAt a = some (a, 0, 2) → mirrorOf a = none → ownReg a = false → irqRange a = false → instAt Q_BASE_LO 0x40 32768 a = none →
    writeCommandLow s m a v = none → writeCommandHigh s a v = none → writeCk s a v = none → writeSpecial s m a v = none →
    rowAt a = some r0 → rowAt (a + 4) = some r1 → r0.rw ≠ 0 → r0.rwf = 0 → r1.rwf = 0 → ownReg (a + 4) = false →
    mget s.stages (latchKey m (regAt (a + 4))) = some h →
    ∃ t, exec (.lowWordWrite m a v) s = .next t ∧ rd t (regAt a) = writtenValue r0 (rd s (regAt a)) v ∧
      rd t (regAt (a + 4)) = writtenValue r1 (rd s (regAt (a + 4))) h ∧ mget t.stages (latchKey m (regAt (a + 4))) = none ∧
      sameElse s t [a, a + 4] ∧ keepsStores s t) ∧
  (∀ (m : Master) (a : Nat) (v : Word) (s : State) (r0 : RegRow), runs s → inBar0 (a + 4) = true → a % 4 = 0 →
    wideAt (a + 4) = some (a, 1, 2) → mirrorOf (a + 4) = none → irqRange (a + 4) = false →
    writeCommandLow s m (a + 4) v = none → writeCommandHigh s (a + 4) v = none → writeCk s (a + 4) v = none →
    writeSpecial s m (a + 4) v = none → rowAt a = some r0 → r0.rw ≠ 0 →
    ∃ t, exec (.lowWordWrite m (a + 4) v) s = .next t ∧ t.regs = s.regs ∧
      mget t.stages (latchKey m (regAt (a + 4))) = some v ∧ keepsStores s t)
  )

/-- On a running device a BAD_SIZE_ACCESS answers a next state in which HOST.BAD_ACC has counted one event and stops at
all ones, a read has returned all ones, a write has returned nothing, and every other register is unchanged. (R7) -/
def Obligations.BadSizeAccessChangesNothing : Prop :=
  ∀ (isRead : Bool) (s : State), runs s →
    ∃ t, exec (.badSizeAccess isRead) s = .next t ∧ rd t HOST_BAD_ACC = satInc (rd s HOST_BAD_ACC) ∧
      sameElse s t [HOST_BAD_ACC.addr] ∧ keepsStores s t ∧
      t.out = if isRead then .read .host (BitVec.allOnes 32) :: s.out else s.out

/-- On a running device whose IMG block is idle: LOAD with an aligned source, no image in force unless FORCE is set and no
forced load in progress, and REPLAN with an aligned source, make the command the block's and set BUSY, changing no
other register; a queue's load does the same with the fields of its payload; FLASH_BOOT_START with a good directory
takes up slot 0 where it is not empty. (R56, R57, R59, R61, R373) -/
def Obligations.LoadCommandsAreTakenUp : Prop :=
  ∀ s : State, runs s → s.img.cmd = none →
    (∀ (m : Master) (force : Bool) (tag : Byte), rd64 s IMG_SRC_ADDR_LO IMG_SRC_ADDR_HI % 64 = 0 → s.img.forced = none →
      (s.img.inForce = none ∨ force = true) →
      ∃ t, exec (.load m force tag) s = .next t ∧ rdBit t IMG_STAT 0 = true ∧ sameElse s t [IMG_STAT.addr] ∧ keepsStores s t ∧
        t.img = { s.img with cmd := some { replan := false, force := force, tag := tag, src := .host
                                           addr := rd64 s IMG_SRC_ADDR_LO IMG_SRC_ADDR_HI, len := (rd s IMG_SRC_LEN).toNat
                                           staged := none } }) ∧
    (∀ (m : Master) (force : Bool) (tag : Byte), rd64 s IMG_SRC_ADDR_LO IMG_SRC_ADDR_HI % 64 = 0 →
      ∃ t, exec (.replan m force tag) s = .next t ∧ rdBit t IMG_STAT 0 = true ∧ sameElse s t [IMG_STAT.addr] ∧ keepsStores s t ∧
        t.img = { s.img with cmd := some { replan := true, force := force, tag := tag, src := .host
                                           addr := rd64 s IMG_SRC_ADDR_LO IMG_SRC_ADDR_HI, len := (rd s IMG_SRC_LEN).toNat
                                           staged := none } }) ∧
    (∀ (q : Nat) (o : Outst) (p : List Byte), q < 32768 → nextUnhanded s q = some o → o.opcode = 1 → o.payload = some p →
      leAt p 0 8 % 64 = 0 → s.img.forced = none → (s.img.inForce = none ∨ leAt p 12 1 = 2 ∨ leAt p 13 1 = 1) →
      ∃ t, exec (.sqLoad q) s = .next t ∧ rdBit t IMG_STAT 0 = true ∧ keepsStores s t ∧
        t.img = { s.img with cmd := some { replan := leAt p 12 1 = 2, force := leAt p 13 1 = 1, tag := BitVec.ofNat 8 (leAt p 14 1)
                                           src := .queue q o.slot, addr := leAt p 0 8, len := leAt p 8 4, staged := none } }) ∧
    (∀ d : List Byte, rdFld s GLB_STAT 2 0 = 3 → s.pins.bootSel = true → rdFld s IMG_BOOT_INFO 23 8 = 0 → s.img.inForce = none →
      cut d 0 4 = [0x5A, 0x44, 0x49, 0x52] → leAt d 4 4 = 1 → rdBit s GLB_PIN_STAT 11 = false → leAt d 8 4 ≠ 0xFFFFFFFF →
      ∃ t, exec (.flashBootStart (some d)) s = .next t ∧ rdBit t IMG_STAT 0 = true ∧ keepsStores s t ∧
        t.img = { s.img with cmd := some { replan := false, force := false, tag := 0, src := .flash0, addr := leAt d 8 4
                                           len := leAt d 12 4, staged := none } })

/-- On a running device whose IMG block has a command in hand a LOAD or REPLAN counts REFUSE_CNT, changes no other
register and leaves the block's command, image and log as they are; LOAD_CMD with an OP other than 1 and 2 counts
REFUSE_CNT in every state and changes no other register. (R61) -/
def Obligations.BusyLoadsAndBadOpsAreOnlyCounted : Prop :=
  (∀ (m : Master) (force : Bool) (tag : Byte) (s : State), runs s → s.img.cmd.isSome = true →
    ∀ i ∈ [Instr.load m force tag, Instr.replan m force tag],
      ∃ t, exec i s = .next t ∧ rd t IMG_REFUSE_CNT = satInc (rd s IMG_REFUSE_CNT) ∧ sameElse s t [IMG_REFUSE_CNT.addr] ∧
        t.img = s.img ∧ keepsStores s t) ∧
  (∀ (op : BitVec 4) (s : State), runs s → op ≠ 1 → op ≠ 2 →
    ∃ t, exec (.loadCmdInvalidOp op) s = .next t ∧ rd t IMG_REFUSE_CNT = satInc (rd s IMG_REFUSE_CNT) ∧
      sameElse s t [IMG_REFUSE_CNT.addr] ∧ t.img = s.img ∧ keepsStores s t)

/-- On a running device an IMAGE_STAGED that ends whole for a command of a host or a queue of at most 512 MiB, with the
system region in service in one copy, holds in the command the SRC_LEN bytes copied, places them at the base of that
copy and changes no other byte of device memory. For a flash boot whose header's TOTAL_LEN is at most 512 MiB and
within the bytes read, the first TOTAL_LEN bytes are staged. A copy in error ends the command with 0x10, and a flash
image whose header says more than 512 MiB with 0x11. (R60, R342) -/
def Obligations.StagingCopiesTheWholeImage : Prop :=
  (∀ (b : List Byte) (c : LoadCmd) (i : Nat) (s : State), runs s → s.img.cmd = some c → c.staged = none → fromFlash c = false →
    c.len ≤ 2 ^ 29 → systemCopies s = [i] →
    ∃ t, exec (.imageStaged (.ok b)) s = .next t ∧
      t.img.cmd = some { c with staged := some (.ok (padTo c.len b)) } ∧
      (∀ k < c.len, byteAt t.dev (oxBase i + k) = b.getD k 0) ∧
      (∀ a, (a < oxBase i ∨ oxBase i + c.len ≤ a) → byteAt t.dev a = byteAt s.dev a) ∧
      t.nv = s.nv ∧ t.fuses = s.fuses ∧ t.img.inForce = s.img.inForce) ∧
  (∀ (b : List Byte) (c : LoadCmd) (s : State), runs s → s.img.cmd = some c → c.staged = none → fromFlash c = true →
    systemCopies s ≠ [] → rdBit s GLB_PIN_STAT 11 = false → imgTotal b ≤ 2 ^ 29 → imgTotal b ≤ b.length →
    ∃ t, exec (.imageStaged (.ok b)) s = .next t ∧ t.img.cmd = some { c with staged := some (.ok (b.take (imgTotal b))) } ∧
      t.nv = s.nv ∧ t.fuses = s.fuses ∧ t.img.inForce = s.img.inForce) ∧
  (∀ (got : List Byte) (c : LoadCmd) (s : State), runs s → s.img.cmd = some c → c.staged = none →
    systemCopies s ≠ [] → (c.len ≤ 2 ^ 29 ∨ fromFlash c = true) → (fromFlash c = true → rdBit s GLB_PIN_STAT 11 = false) →
    exec (.imageStaged (.error got)) s = .next (keepTime s (refuseLoad (stageBytes s got) c 0x10 got)) ∧
    (fromFlash c = true → 2 ^ 29 < imgTotal got →
      exec (.imageStaged (.tooLong got)) s = .next (keepTime s (refuseLoad s c 0x11 (got.take 128)))))

/-- On a running device VERIFY_COMPLETE of a staged host command ends the command with the code of verifyCode. With a code
other than 0 LOAD_RESULT holds it with the command's TAG, BUSY clears, EVT.LOAD_REFUSED is set, and the image in
force, the forced image and the fuses are unchanged. With code 0 a full image with no fuse changes on a device with no
image comes into force as installFull states it and LOAD_RESULT and EVT.LOAD_DONE report it; a re-plan of a channel
that has a boundary waits for it with its bit in REPLAN_PEND set. Whatever the source of the command, a code other
than 0 refuses the load with it and code 0 does what fullVerified or replanVerified says: an image verified while one
is in force forces the load. FORCED_LOAD_TAKES_EFFECT installs the forced image once every channel's last picture has
launched. (R55, R57, R59, R62, R63, R66, R74) -/
def Obligations.VerificationReportsItsCode : Prop :=
  (∀ (r : ImageReading) (c : LoadCmd) (b : List Byte) (s : State), runs s → s.img.cmd = some c → c.staged = some (.ok b) →
    c.src = .host →
    let r' := sectionsRead b r
    let code := verifyCode s c.replan (some c.len) b r'
    let i := imageInfo b c.src r'
    (code ≠ 0 →
      ∃ t, exec (.verifyComplete r) s = .next t ∧ rd t IMG_LOAD_RESULT = loadWord code c.tag (headerChannel b) ∧
        rdBit t IMG_STAT 0 = false ∧ rdBit t IMG_EVT 1 = true ∧ t.img.cmd = none ∧ t.img.inForce = s.img.inForce ∧
        t.img.forced = s.img.forced ∧ t.fuses = s.fuses ∧ t.dev = s.dev ∧ t.nv = s.nv) ∧
    (c.replan = false → s.img.inForce = none → r'.otp = none →
      ∃ t, exec (.verifyComplete r) s = .next t ∧ (code = 0 → rd t IMG_LOAD_RESULT = loadWord 0 c.tag 0xFF ∧ rdBit t IMG_STAT 0 = false ∧
        rdBit t IMG_EVT 0 = true ∧ t.img.cmd = none ∧ t = keepBytes s (endCommand (installFull s i) c 0 0xFF))) ∧
    (∀ p, c.replan = true → r'.channels = [p] → noBoundary s p.channel = false → p.channel < s.chans.length →
      p.channel < 16 →
      ∃ t, exec (.verifyComplete r) s = .next t ∧ (code = 0 → rd t IMG_LOAD_RESULT = loadWord 0 c.tag p.channel ∧ rdBit t IMG_STAT 0 = false ∧
        rdBit t IMG_EVT 0 = true ∧ rdBit t IMG_REPLAN_PEND p.channel = true ∧
        (chan t p.channel).pend = some { late := latchDue s p.channel, info := i, plan := p, latched := false, boundary := none } ∧
        t.img.inForce = s.img.inForce ∧ t.fuses = s.fuses))) ∧
  (∀ (r : ImageReading) (c : LoadCmd) (b : List Byte) (s : State), runs s → s.img.cmd = some c → c.staged = some (.ok b) →
    let r' := sectionsRead b r
    let code := verifyCode s c.replan (if fromFlash c then none else some c.len) b r'
    let i := imageInfo b c.src r'
    (code ≠ 0 → exec (.verifyComplete r) s = .next (keepBytes s (refuseLoad s c code b))) ∧
    (code = 0 → c.replan = false → exec (.verifyComplete r) s = .next (keepBytes s (fullVerified s c i))) ∧
    (∀ p, code = 0 → c.replan = true → r'.channels = [p] →
      exec (.verifyComplete r) s = .next (keepBytes s (replanVerified s c i p)))) ∧
  (∀ (i : ImageInfo) (s : State), runs s → s.img.forced = some i → allLaunched s = true →
    ∃ t, exec .forcedLoadTakesEffect s = .next t ∧ t = keepStores s (installFull s i) ∧ rdFld t GLB_STAT 2 0 = 4 ∧ keepsStores s t)

/-- VERIFY_COMPLETE of a device, whatever its state, leaves the image in force, the forced image and the fuses as they are
unless a staged copy has passed every step: format, part, version, an enrolled and unrevoked key, parameters,
signature, sections, for a full image the firmware's signature by slot 0, the budget, and the structure with the
conditions on a re-plan. (R55) -/
def Obligations.NothingUnverifiedTakesEffect : Prop :=
  ∀ (r : ImageReading) (s : State),
    (∀ c b, s.img.cmd = some c → c.staged = some (.ok b) →
      ¬(formatOk b c.replan (if fromFlash c then none else some c.len) = true ∧ partOk b = true ∧ svnOk s b c.replan = true ∧
        keyOk s b = true ∧ hssParams (imgPub b) (imgSig b) = true ∧ hssVerify (imgPub b) (imgSig b) (imgMessage b) = true ∧
        sectionsTrue b (128 + 48 * imgSecs b) (imgTable b) = true ∧ (c.replan = false → firmwareOk s b = true) ∧
        budgetForm b = true ∧ assignmentsRead b (sectionsRead b r) = true ∧ budgetOk s b (sectionsRead b r) = true ∧
        structureCode s b (sectionsRead b r) = 0)) →
    ∃ t, exec (.verifyComplete r) s = .next t ∧ t.img.inForce = s.img.inForce ∧ t.img.forced = s.img.forced ∧ t.fuses = s.fuses ∧
      (∀ n, (chan t n).pend = (chan s n).pend)

/-- Where the fuses read back, an OTP_UPDATE section enrols its slot only if it is 1 to 3 and neither enrolled nor
revoked, revokes the slots of its mask among 1 to 3, and raises the floor only to a floor at most the image's SVN,
never lowering it; no other fuse changes, and OTP_BURNT is set when a fuse changed and left as it was when none did.
That a floor above the 64 fuses is left, and that a section that enrols and revokes one slot burns both, is the
model's choice (log entry 62). (R54) -/
def Obligations.FusesBurnAsAsked : Prop :=
  ∀ (s : State) (svn : Nat) (u : OtpUpdate), u.readBackOk = true →
    let t := burnFuses s svn u
    (∀ k < 4, t.fuses.enrolled.getLsbD k = (s.fuses.enrolled.getLsbD k ||
        decide (k = u.enrolSlot ∧ 1 ≤ k ∧ s.fuses.enrolled.getLsbD k = false ∧ s.fuses.revoked.getLsbD k = false))) ∧
      (∀ k < 4, t.fuses.revoked.getLsbD k = (s.fuses.revoked.getLsbD k || (decide (1 ≤ k) && u.revoke.testBit k))) ∧
      t.fuses.floor = (if u.floor ≤ svn ∧ u.floor ≤ 64 then max s.fuses.floor u.floor else s.fuses.floor) ∧
      t.fuses.seed = s.fuses.seed ∧ t.fuses.ident = s.fuses.ident ∧ (t.fuses ≠ s.fuses → rdBit t IMG_EVT 6 = true) ∧
      (t.fuses = s.fuses → rd t IMG_EVT = rd s IMG_EVT)

/-- Appending an entry makes a 64-byte entry whose SEQ is LOG_COUNT the newest held, replaces the chain by the SHA-256 of
the chain followed by the entry, raises LOG_COUNT by one and holds at most 1,024 entries, the older ones unchanged and
in order. (R66) -/
def Obligations.LogChainExtends : Prop :=
  ∀ (s : State) (kind ch : Nat) (src : LoadSource) (code svn : Nat) (meas : List Byte),
    let t := appendLog s kind ch src code svn meas
    ∃ e : List Byte, e.length = 64 ∧ ofLe (e.take 4) = (rd s IMG_LOG_COUNT).toNat ∧
      regBytes t IMG_LOG_CHAIN 8 = sha256 (regBytes s IMG_LOG_CHAIN 8 ++ e) ∧ rd t IMG_LOG_COUNT = rd s IMG_LOG_COUNT + 1 ∧
      t.img.logEntries = (s.img.logEntries ++ [e]).drop (s.img.logEntries.length + 1 - 1024)

/-- On a running device with no quote in hand and no store failure, whose current leaf-state record gives an index i below
2^40, a QUOTE whose record reads back leaves a store whose current record gives i + 1, with the generation one higher,
in the other record's place; the quote in hand has index i; no byte outside the two records and the bottom trees
changed, and NV_COMMITS counted one. So no later quote can be given the index i while the records stand. With no valid
record the quote fails with NO_STATE and at index 2^40 with EXHAUSTED, and then no byte of the store changes. (R70,
R71, R76) -/
def Obligations.QuoteCommitsItsIndexFirst : Prop :=
  (∀ (tag : Byte) (cur : Bool) (s : State), runs s → s.img.quote = none → currentRec s = some cur → (leafRec s cur).next < 2 ^ 40 →
    rdBit s IMG_NV_STAT 3 = false →
    ∃ t j, exec (.quote tag true) s = .next t ∧ currentRec t = some (!cur) ∧ sigNext t = some ((leafRec s cur).next + 1) ∧
      (leafRec t (!cur)).gen = (leafRec s cur).gen + 1 ∧ leafRec t cur = leafRec s cur ∧
      t.img.quote = some j ∧ j.index = (leafRec s cur).next ∧ j.tag = tag ∧
      rd t IMG_NV_COMMITS = satInc (rd s IMG_NV_COMMITS) ∧
      (∀ a, 0x80 ≤ a → a < 0x10000 ∨ 0x20000 ≤ a → byteAt t.nv a = byteAt s.nv a) ∧ t.dev = s.dev ∧ t.fuses = s.fuses) ∧
  (∀ (tag : Byte) (w : Bool) (s : State), runs s → s.img.quote = none → currentRec s = none →
    ∃ t, exec (.quote tag w) s = .next t ∧ t.nv = s.nv ∧ rdFld t IMG_ATT_STAT 23 16 = 4 ∧ rdFld t IMG_ATT_STAT 15 8 = tag.toNat ∧
      rdBit t IMG_EVT 4 = true ∧ t.img.quote = none ∧ sameElse s t [IMG_ATT_STAT.addr, IMG_EVT.addr]) ∧
  (∀ (tag : Byte) (w cur : Bool) (s : State), runs s → s.img.quote = none → currentRec s = some cur → 2 ^ 40 ≤ (leafRec s cur).next →
    ∃ t, exec (.quote tag w) s = .next t ∧ t.nv = s.nv ∧ rdFld t IMG_ATT_STAT 23 16 = 2 ∧ rdBit t IMG_EVT 4 = true ∧
      t.img.quote = none)

/-- On a running device QUOTE_COMPLETE of a quote that waits for no tree writes its message and the device key's signature
of it, 3,604 bytes, formed with the nodes of the current tree as the store holds them, to its buffer and reports its
tag with OK and QUOTE_DONE, or with a DMA error writes nothing and reports 0x03 and QUOTE_FAIL; either way no quote is
in hand. TREE_BUILT while a tree is being built and no quote waits for it places the nodes of that tree at depth 11,
as the device key's tree has them, in the next tree's place, changes no other byte of the store and sets NEXT_READY
with that tree's number; where a quote waits for its tree the nodes stand in the current tree's place and the quote
waits no more; a QUOTE while one is in hand is only counted. (R67, R68, R71, R72, R76) -/
def Obligations.QuotesAndTreesComplete : Prop :=
  (∀ (j : QuoteJob) (s : State), runs s → s.img.quote = some j → j.waitTree = false →
    (∃ t, exec (.quoteComplete true) s = .next t ∧ t.out = .hostWrite j.buf (j.msg ++ hssSign s.fuses (storeBytes s 0x10000 0x10000) j.index j.msg) :: s.out ∧
      (hssSign s.fuses (storeBytes s 0x10000 0x10000) j.index j.msg).length = 3604 ∧ t.img.quote = none ∧ rdBit t IMG_ATT_STAT 0 = false ∧ rdFld t IMG_ATT_STAT 15 8 = j.tag.toNat ∧
      rdFld t IMG_ATT_STAT 23 16 = 0 ∧ rdBit t IMG_EVT 3 = true ∧ keepsStores s t) ∧
    (∃ t, exec (.quoteComplete false) s = .next t ∧ t.out = s.out ∧ t.img.quote = none ∧ rdFld t IMG_ATT_STAT 15 8 = j.tag.toNat ∧
      rdFld t IMG_ATT_STAT 23 16 = 3 ∧ rdBit t IMG_EVT 4 = true ∧ sameElse s t [IMG_ATT_STAT.addr, IMG_EVT.addr] ∧
      keepsStores s t)) ∧
  (∀ (j : QuoteJob) (s : State), runs s → s.img.quote = some j → j.waitTree = true →
    ∃ t, exec (.treeBuilt true) s = .next t ∧ t.treeNow = some (j.index / 2 ^ 20) ∧ t.treeReady = false ∧
      t.img.quote = some { j with waitTree := false } ∧ (∀ k < 0x10000, byteAt t.nv (0x10000 + k) = (treeNodes s.fuses (j.index / 2 ^ 20)).getD k 0) ∧ t.dev = s.dev) ∧
  (∀ (q : Nat) (s : State), runs s → treeBuilding s = some q → s.img.quote = none →
    ∃ t, exec (.treeBuilt true) s = .next t ∧ t.treeReady = true ∧ t.treeNext = q ∧ t.treeNow = s.treeNow ∧
      (∀ k < 0x10000, byteAt t.nv (0x20000 + k) = (treeNodes s.fuses q).getD k 0) ∧
      (∀ a, a < 0x20000 ∨ 0x30000 ≤ a → byteAt t.nv a = byteAt s.nv a) ∧ t.dev = s.dev ∧ sameElse s t []) ∧
  (∀ (tag : Byte) (w : Bool) (s : State), runs s → s.img.quote.isSome = true →
    ∃ t, exec (.quote tag w) s = .next t ∧ rd t IMG_REFUSE_CNT = satInc (rd s IMG_REFUSE_CNT) ∧
      sameElse s t [IMG_REFUSE_CNT.addr] ∧ t.nv = s.nv ∧ t.img = s.img)

/-- On a running device, of channel n: RWF_LATCH does nothing before the latch instant of the next boundary; from it on,
with COMMIT.HOLD set and no re-plan to take, HOLD_DEFER counts, HOLD_SEEN and EVT.HOLD_DEFER are set and the pending
set stays. With HOLD clear, no pending OUT_CTL and no command waiting, the boundary is bound to the pending set and
nothing stays pending. FRAME_BOUNDARY acts from B_k on: a channel with nothing pending but that set accepts frame k on
its grid point, FRAME shows k, and the channel's next frame is k + 1. INPUT_CUTOFF closes the oldest open frame at
B_(k+1); with no source frame in its window it counts IN_REPEAT. FIELD_COMPLETE gives the oldest composed frame its
field. FRAME_START starts the oldest decided frame from S_k on, with one picture for each rendition. GOVERNOR_DECISION
from G_k on decides the oldest undecided frame whose input has closed, and RESCUE_CHECK from the rescue instant on
settles the rescue of the oldest started frame, on every device but a standby. Each before its instant leaves the
device as it is. At and after its instant each does what its operation states, whatever else waits: a latch with
commands, a HOLD, a re-plan or a pause; a boundary of a channel that runs, pauses, stops or changes its slice; a cut-
off with or without a picture still in decoding; a field; a decision; a start; a rescue. (R78, R79, R81, R83, R84,
R85, R86, R90, R92, R117, R443, R506) -/
def Obligations.BoundarySchedule : Prop :=
  ∀ (n : Nat) (s : State), runs s → n < 16 → n < s.chans.length →
    (∀ g : Grid, (chan s n).grid = some g → reached s (latchAt g (chan s n).j) = false → exec (.rwfLatch n) s = .next s) ∧
    (∀ g : Grid, (chan s n).grid = some g → (chan s n).bound = none → (chan s n).stopped = false → (chan s n).gap = none →
      (chan s n).cmds = [] → (chan s n).plan.isSome = true → role s ≠ 2 → (chan s n).pend = none → rdBit s (CH_DUMP_CTL n) 0 = false →
      reached s (latchAt g (chan s n).j) = true →
      (tbit (wordAtLatch s n (CH_COMMIT n)) 0 = true →
        ∃ t, exec (.rwfLatch n) s = .next t ∧ rd t (CH_HOLD_DEFER n) = satInc (rd s (CH_HOLD_DEFER n)) ∧
          rdBit t (CH_STAT n) 3 = true ∧ rdBit t (CH_EVT n) 2 = true ∧ (chan t n).dirty = (chan s n).dirty ∧
          sameElse s t [(CH_HOLD_DEFER n).addr, (CH_STAT n).addr, (CH_EVT n).addr] ∧ keepsStores s t) ∧
      (tbit (wordAtLatch s n (CH_COMMIT n)) 0 = false → channelOutputs s n = [] →
        ∃ t b, exec (.rwfLatch n) s = .next t ∧ (chan t n).bound = some b ∧
          (chan t n).dirty = (chan s n).dirty.filter (fun a => (chan s n).lateAt a) ∧ (chan t n).late = [] ∧
          b.set = (chan s n).dirty.foldl (fun m a => match latchValue (holdSeen s n false) n (regAt a) with
            | some v => mput m a (v &&& rwfMask a)
            | none => m) [] ∧
          b.counts = !b.set.isEmpty ∧ rdBit t (CH_STAT n) 3 = false ∧ sameElse s t [(CH_STAT n).addr] ∧ keepsStores s t)) ∧
    (∀ g : Grid, (chan s n).grid = some g → (chan s n).bound = none → reached s (latchAt g (chan s n).j) = true →
      exec (.rwfLatch n) s = .next (keepStores s (latchFrame s n g))) ∧
    (∀ (g : Grid) (b : Bound), (chan s n).grid = some g → (chan s n).bound = some b →
      (reached s (boundaryAt g (chan s n).j) = false → exec (.frameBoundary n) s = .next s) ∧
      (reached s (boundaryAt g (chan s n).j) = true →
        exec (.frameBoundary n) s = .next (keepStores s (frameBoundary s n g b)) ∧
        ((chan s n).stopped = true →
          ∃ t, exec (.frameBoundary n) s = .next t ∧ rd t (CH_RESTART_GAP n) = satInc (rd s (CH_RESTART_GAP n)) ∧
            (chan t n).j = (chan s n).j + 1 ∧ (chan t n).k = (chan s n).k ∧ (chan t n).frames = (chan s n).frames ∧
            sameElse s t [(CH_RESTART_GAP n).addr] ∧ keepsStores s t))) ∧
    (∀ (g : Grid) (b : Bound) (p : ChannelPlan), (chan s n).grid = some g → (chan s n).bound = some b → (chan s n).stopped = false →
      reached s (boundaryAt g (chan s n).j) = true → s.img.forced = none → (chan s n).gap = none → (chan s n).pend = none →
      (chan s n).plan = some p → (∀ c ∈ p.clusters, c < 16) →
      (chan s n).tokens.find? (fun x => x.frame = (chan s n).k) = none →
      ∃ t f, exec (.frameBoundary n) s = .next t ∧ f ∈ (chan t n).frames ∧ f.j = (chan s n).j ∧ f.k = (chan s n).k ∧ f.grid = g ∧
        f.closed = false ∧ (chan t n).j = (chan s n).j + 1 ∧ (chan t n).k = (chan s n).k + 1 ∧ (chan t n).bound = none ∧
        rd t (CH_FRAME_LO n) = wordOf (chan s n).k ∧ keepsStores s t) ∧
    (∀ (f : FrameSt) (written : List (Nat × Nat × Nat × Nat)), oldest s n (fun f => !f.closed) = some f →
      (reached s (cutoffAt f.grid f.j) = false → exec (.inputCutoff n written) s = .next s) ∧
      (reached s (cutoffAt f.grid f.j) = true →
        ∃ t, exec (.inputCutoff n written) s = .next t ∧ t = keepStores s (cutOff s n f written) ∧
          (∀ x ∈ (chan t n).frames, x.j = f.j → x.closed = true) ∧ keepsStores s t ∧
          ((chan s n).sources.filter (fun x => inWindow f.grid f.j x.capture) = [] → f.plan.slot = none → f.input = none →
            rd t (CH_IN_REPEAT n) = satInc (rd s (CH_IN_REPEAT n)) ∧ rdBit t (CH_EVT n) 1 = true))) ∧
    (∀ (f : FrameSt) (p : Picture), oldest s n (fun f => f.field.isNone) = some f → f.composed = some p → scoutsOk s f.plan = true →
      ∃ t, exec (.fieldComplete n) s = .next t ∧ t = keepStores s (completeField s n f p.y) ∧ (∀ x ∈ (chan t n).frames, x.j = f.j → x.field.isSome = true) ∧ keepsStores s t) ∧
    (∀ f : FrameSt, oldest s n (fun f => !f.started) = some f →
      (reached s f.start = false → exec (.frameStart n) s = .next s) ∧
      (f.decided = true → (chan s n).dead = false → reached s f.start = true →
        ∃ t, exec (.frameStart n) s = .next t ∧ t = keepStores s (startFrame s n f) ∧ keepsStores s t ∧
          (∀ x ∈ (chan t n).frames, x.j = f.j → x.started = true ∧ x.rends.length = f.plan.rends.length) ∧
          (f.prepared = false → rd t (CH_PREP_LATE n) = satInc (rd s (CH_PREP_LATE n)) ∧ rdBit t (CH_EVT n) 6 = true))) ∧
    (∀ f : FrameSt, oldest s n (fun f => !f.decided) = some f → role s ≠ 2 → (chan s n).dead = false → (fieldNow s n f).isSome = true →
      reached s f.gov = true →
      ∃ t, exec (.governorDecision n) s = .next t ∧ t = keepStores s (noteJoin (sendToken (decideOwn s n f) n f.j) n f.j) ∧
        (∀ x ∈ (chan t n).frames, x.j = f.j → x.decided = true) ∧ keepsStores s t) ∧
    (∀ f : FrameSt, oldest s n (fun f => f.started && !f.rescueDone) = some f → role s ≠ 2 → (chan s n).dead = false →
      reached s f.rescueAt = true →
      ∃ t, exec (.rescueCheck n) s = .next t ∧ t = keepStores s (sendRescue (rescueFrame s n f) n f.j) ∧
        (∀ x ∈ (chan t n).frames, x.j = f.j → x.rescueDone = true) ∧ keepsStores s t)

/-- For a frame of a channel with delay D from 2 on and a frame period of at least 2 ns: the latch comes 100 µs before
B_k, which is g_k + 0.5 ms; the cut-off is B of the next grid point and not before B_k + Tf rounded down; the decision
is 100 µs before S_k; S_k is not before the cut-off of the last lookahead frame plus 0.6 ms; the rescue instant lies
after S_k and not after the deadline; the launch is 0.4 ms after the deadline; and the deadline is the frame start of
the next grid point under the same plan. (R85, R506) -/
def Obligations.ScheduleOfAFrame : Prop :=
  ∀ f : FrameSt, 0 < f.grid.num → 0 < f.grid.den → 2 ≤ f.plan.delay → f.grid.j0 ≤ f.j → 2 * f.grid.den ≤ f.grid.num →
    boundaryAt f.grid f.j = f.g + 500000 ∧ latchAt f.grid f.j = boundaryAt f.grid f.j - 100000 ∧
    cutoffAt f.grid f.j = boundaryAt f.grid (f.j + 1) ∧ boundaryAt f.grid f.j + ((f.grid.num / f.grid.den : Nat) : Int) ≤ cutoffAt f.grid f.j ∧
    f.gov = f.start - 100000 ∧ f.start = boundaryAt f.grid (f.j + (f.plan.delay - 2) + 1) + 600000 ∧
    f.start < f.rescueAt ∧ f.rescueAt ≤ f.deadline ∧ f.launch = f.deadline + 400000 ∧
    f.deadline = { f with j := f.j + 1 }.start

/-- Whatever the frame's set, the engines, the speed, the measurement and the earlier efforts: with FIXED_EN clear every
rendition's effort lies from lo to hi of R90; with FIXED_EN set every rendition takes FIXED as written; when the
prediction at the clamped efforts exceeds cap no effort is above its clamped value, and the result fits cap or every
rendition is at lo; otherwise every effort is its clamped value or one more, at most four are one more, and if any is
the prediction is at most fifteen sixteenths of cap. The speed moves by the arithmetic shift of R90 and s_use is the
larger of it and the measurement. (R90) -/
def Obligations.GovernorKeepsItsLimits : Prop :=
  ∀ (f : FrameSt) (n engines sOld : Nat) (meas : Option Measured) (prev : List (Nat × Nat)),
    (f.plan.rends.map (fun r => r.id)).Nodup →
    let r := governor f n engines sOld meas prev
    let start := fun i => min (max (effortOf prev i 4) (govLo f n i)) (govHi f n i)
    r.cap = govCap engines f.grid ∧
    (tbit (f.reg (CH_GOV_CTL n)) 7 = true → ∀ x ∈ f.plan.rends, effortOf r.es x.id 0 = f.fld (CH_GOV_CTL n) 10 8) ∧
    (tbit (f.reg (CH_GOV_CTL n)) 7 = false →
      (∀ x ∈ f.plan.rends, govLo f n x.id ≤ effortOf r.es x.id 0 ∧ effortOf r.es x.id 0 ≤ govHi f n x.id) ∧
      r.pred = govPredict f.plan.rends r.sUse r.es ∧
      (r.cap < govPredict f.plan.rends r.sUse (f.plan.rends.foldl (fun es x => mput es x.id (start x.id)) []) →
        r.raised = 0 ∧ (∀ x ∈ f.plan.rends, effortOf r.es x.id 0 ≤ start x.id) ∧
          (r.pred ≤ r.cap ∨ ∀ x ∈ f.plan.rends, effortOf r.es x.id 0 = govLo f n x.id)) ∧
      (govPredict f.plan.rends r.sUse (f.plan.rends.foldl (fun es x => mput es x.id (start x.id)) []) ≤ r.cap →
        r.lowered = 0 ∧ r.raised ≤ 4 ∧
          (∀ x ∈ f.plan.rends, effortOf r.es x.id 0 = start x.id ∨ effortOf r.es x.id 0 = start x.id + 1) ∧
          (f.plan.rends.filter (fun x => effortOf r.es x.id 0 ≠ start x.id)).length = r.raised ∧
          (0 < r.raised → r.pred ≤ r.cap * 15 / 16))) ∧
    (∀ m, meas = some m → 0 < m.work →
      let v := m.busy * 65536 / m.work
      (r.sNew : Int) = (sOld : Int) + ((v : Int) - sOld) / 4 ∧ r.sUse = max r.sNew v) ∧
    (meas = none → r.sNew = sOld ∧ r.sUse = sOld)

/-- On a running device that is no standby, with the field of the oldest undecided frame complete, GOVERNOR_DECISION
before G_k changes nothing; from G_k on that frame is decided with the efforts, the speed and the IDR decision that
governor and idrDecision give, GOV_SPEED, GOV_CAP, GOV_PRED and GOP_POS show them, GOV_LOWER and GOV_RAISE count the
single steps and IDR_CNT counts an IDR. RESCUE_CHECK before the rescue instant changes nothing; on a standby without a
notice the frame waits for one, and from the rescue instant on otherwise the rescue rows are settled as rescueFrame
states, and a Bellwether sends them. On a Bellwether or a device alone, the field written or late, its input closed,
GOVERNOR_DECISION from G_k on does what decideOwn states and sends the token: the field is the same function of the
pixels either way; while the input is open it waits. A standby that holds a notice applies it. (R86, R90, R92, R117,
R118, R443) -/
def Obligations.GovernorDecisionDecidesAFrame : Prop :=
  ∀ (n : Nat) (s : State), runs s → n < 16 → n < s.chans.length →
    (∀ f : FrameSt, oldest s n (fun f => !f.decided) = some f → role s = 0 → f.field.isSome = true → (chan s n).dead = false →
      (reached s f.gov = false → exec (.governorDecision n) s = .next s) ∧
      (reached s f.gov = true →
        let r := governor f n (engineCount s n) (if f.k = 0 then govFloor else (chan s n).s)
          ((chan s n).measured.filter (fun m => m.slice = f.sliceSeq)) (if f.k = 0 then [] else (chan s n).prevE)
        let d := idrDecision f n (chan s n).pos (chan s n).prevSeq ((chan s n).splices.contains f.j)
          ((f.field.map (fun x => x.sceneCut)).getD false)
        ∃ t, exec (.governorDecision n) s = .next t ∧ keepsStores s t ∧
          (∀ x ∈ (chan t n).frames, x.j = f.j → x.decided = true ∧ x.efforts = r.es ∧ x.idr = d.1 ∧ x.gopPos = d.2.1 ∧ x.sUse = r.sUse) ∧
          (chan t n).s = r.sNew ∧ (chan t n).prevE = r.es ∧ rd t (CH_GOV_SPEED n) = wordOf r.sUse ∧
          rd t (CH_GOV_CAP n) = wordOf r.cap ∧ rd t (CH_GOV_PRED n) = wordOf r.pred ∧ rd t (CH_GOP_POS n) = wordOf d.2.1 ∧
          (d.1 = true → rd t (CH_IDR_CNT n) = satInc (rd s (CH_IDR_CNT n))) ∧
          (d.1 = false → rd t (CH_IDR_CNT n) = rd s (CH_IDR_CNT n)))) ∧
    (∀ f : FrameSt, oldest s n (fun f => !f.decided) = some f → role s ≠ 2 → (chan s n).dead = false →
      (reached s f.gov = false ∨ (fieldNow s n f).isSome = false → exec (.governorDecision n) s = .next s) ∧
      (reached s f.gov = true → (fieldNow s n f).isSome = true →
        exec (.governorDecision n) s = .next (keepStores s (noteJoin (sendToken (decideOwn s n f) n f.j) n f.j)))) ∧
    (∀ f : FrameSt, oldest s n (fun f => f.started && !f.rescueDone) = some f →
      (reached s f.rescueAt = false → exec (.rescueCheck n) s = .next s) ∧
      (reached s f.rescueAt = true → (chan s n).dead = false →
        (role s = 2 → (chan s n).notices.find? (fun x => x.1 = f.k) = none →
          ∃ t, exec (.rescueCheck n) s = .next t ∧ (∀ x ∈ (chan t n).frames, x.j = f.j → x.rescueHeld = true) ∧
            sameElse s t [] ∧ keepsStores s t) ∧
        (∀ x, role s = 2 → (chan s n).notices.find? (fun x => x.1 = f.k) = some x →
          exec (.rescueCheck n) s = .next (keepStores s (applyNotice s n f x.2))) ∧
        (role s ≠ 2 →
          ∃ t, exec (.rescueCheck n) s = .next t ∧ t = keepStores s (sendRescue (rescueFrame s n f) n f.j) ∧ keepsStores s t)))

/-- A frame 0 is an IDR at position 0; a later frame with no changed IDR_REQ.SEQ, no splice, GOP_LEN 0 and no scene cut to
answer is none and its position is one more; whenever the decision is an IDR the position is 0, and a scene cut is
suppressed only where the frame is no IDR. The layer of position p with t layers is 0 exactly where p is a multiple of
2^(t-1), and below t. After an IDR the reference window holds that picture alone, a non-reference picture leaves it,
any other picture enters it, it never holds more than four, and no picture's references lie in a layer above its own.
(R116, R117, R142) -/
def Obligations.IdrDecisionAndLayers : Prop :=
  (∀ (f : FrameSt) (n pos : Nat) (q : Option (BitVec 8)) (splice scene : Bool),
    let d := idrDecision f n pos q splice scene
    (f.k = 0 → d.1 = true) ∧ (d.1 = true → d.2.1 = 0 ∧ d.2.2 = false) ∧ (d.1 = false → d.2.1 = pos + 1) ∧
    (f.k ≠ 0 → splice = true → d.1 = true) ∧
    (∀ v, f.k ≠ 0 → q = some v → v ≠ BitVec.ofNat 8 (f.fld (CH_IDR_REQ n) 7 0) → d.1 = true) ∧
    (∀ v, f.k ≠ 0 → q = some v → v = BitVec.ofNat 8 (f.fld (CH_IDR_REQ n) 7 0) → splice = false →
      f.fld (CH_GOP_CTL n) 10 0 = 0 → (tbit (f.reg (CH_GOP_CTL n)) 12 = false ∨ scene = false) → d.1 = false) ∧
    (d.2.2 = true → scene = true ∧ tbit (f.reg (CH_GOP_CTL n)) 12 = true ∧ pos + 1 < f.fld (CH_GOP_CTL n) 25 16)) ∧
  (∀ t p : Nat, 1 ≤ t → t ≤ 4 → temporalLayer t p < t ∧ (temporalLayer t p = 0 ↔ 2 ^ (t - 1) ∣ p)) ∧
  (∀ (w : List (Nat × Nat)) (k layer : Nat) (idr nr : Bool),
    (idr = true → nextWindow w idr nr k layer = [(k, layer)]) ∧
    (idr = false → nr = true → nextWindow w idr nr k layer = w) ∧
    (idr = false → nr = false → (k, layer) ∈ nextWindow w idr nr k layer) ∧
    (w.length ≤ 4 → (nextWindow w idr nr k layer).length ≤ 4) ∧
    (∀ l, ∀ x ∈ refsOf w l, ∃ e ∈ w, e.1 = x ∧ e.2 ≤ l))

/-- On a running device: a video packet in the window of a grid point whose cut-off has come counts IN_LATE_PKT and gives
the channel no sample; one before it adds its samples to the source frame of its capture time; a header outside the
raster counts IN_BAD_SRD. A packet of the ancillary flow whose ANC packets have DID 0x61 and SDID 0x01 counts each of
their CDPs whose checksum fails in CAP_BAD and puts the captions of the others in their place by RTP sequence number;
its other ANC packets give nothing. The commands ROI_UPDATE, FILM_GRAIN, CAPTION and SPLICE of a queue whose next
descriptor carries that opcode and names a channel the image does not define are refused with status 0x03, 0x01, 0x01
and 0x01, and with their other statuses where R120, R283, R286 and R374 give them; a SPLICE, CAPTION or ROI_UPDATE
that is refused for nothing waits in its channel. METADATA_WRITE writes the record of a channel's oldest frame once
every rendition's part is met, lets one of a channel left with no engine go without a record, and otherwise does
nothing; FIELD_DUMP_DONE ends a dump. (R78, R81, R82, R96, R111, R120, R283, R286, R374) -/
def Obligations.InputAndBindingCommands : Prop :=
  (∀ (n i : Nat) (v : VideoPacket) (p : ChannelPlan) (g : Grid) (s : State), runs s → n < 16 → n < s.chans.length →
    (chan s n).plan = some p → p.slot = none → (chan s n).grid = some g → (chan s n).stopped = false → (chan s n).gap = none →
    pointOf g (rtpTime s v.ts) = some i →
    ((∀ r ∈ v.srds, runInside p r = true) → reached s (cutoffAt g i) = true →
      ∃ t, exec (.videoPacketRx n v) s = .next t ∧ rd t (CH_IN_LATE_PKT n) = satInc (rd s (CH_IN_LATE_PKT n)) ∧ (chan t n).sources = (chan s n).sources ∧
        (chan t n).frames = (chan s n).frames ∧
        sameElse s t [(CH_IN_LATE_PKT n).addr] ∧ keepsStores s t) ∧
    (reached s (cutoffAt g i) = false →
      ∃ t, exec (.videoPacketRx n v) s = .next t ∧
        (chan t n).sources = addSource (chan s n).sources (rtpTime s v.ts) (v.srds.filter (runInside p)) none ∧ keepsStores s t ∧
        rd t (CH_IN_BAD_SRD n) = (if v.srds.all (runInside p) then rd s (CH_IN_BAD_SRD n) else satInc (rd s (CH_IN_BAD_SRD n))) ∧
        sameElse s t [(CH_IN_BAD_SRD n).addr])) ∧
  (∀ (n : Nat) (ts : BitVec 32) (q : BitVec 16) (packets : List AncPacket) (p : ChannelPlan) (s : State), runs s → n < 16 → n < s.chans.length →
    (chan s n).plan = some p → p.capsFlow = true →
    let cdps := (packets.filter (fun x => x.did = 0x61 && x.sdid = 0x01)).map (fun x => x.data)
    ∃ t, exec (.ancPacketRx n ts q packets) s = .next t ∧
      (rd t EGR_CAP_BAD).toNat = min ((rd s EGR_CAP_BAD).toNat + (cdps.filter (fun x => !cdpGood x)).length) (2 ^ 32 - 1) ∧
      (∃ a b, (chan s n).cdps = a ++ b ∧
        (chan t n).cdps = a ++ (rtpTime s ts, q, ((cdps.filter cdpGood).map cdpTriplets).flatten) :: b ∧
        (∀ y ∈ a, 0 ≤ (q - y.2.1).toInt) ∧ (∀ y, b.head? = some y → (q - y.2.1).toInt < 0)) ∧
      sameElse s t [EGR_CAP_BAD.addr] ∧ keepsStores s t) ∧
  (∀ (q : Nat) (o : Outst) (s : State), runs s → q < 32768 → nextUnhanded s q = some o →
    let p := o.payload.getD []
    let h := markHanded s q o.slot
    (o.opcode = 0x02 → leAt p 0 1 ≤ 64 → chanDefined s (leAt o.desc 2 1) = false →
      exec (.roiUpdate q) s = .next (keepStores s (refuseCmd (count h (CH_ROI_REJ (leAt o.desc 2 1))) q o.slot 0x03))) ∧
    (o.opcode = 0x02 → 64 < leAt p 0 1 →
      exec (.roiUpdate q) s = .next (keepStores s (refuseCmd (count h (CH_ROI_REJ (leAt o.desc 2 1))) q o.slot 0x01))) ∧
    (o.opcode = 0x02 → leAt p 0 1 ≤ 64 → chanDefined s (leAt o.desc 2 1) = true →
      (∃ r ∈ roiRects p, rectBad (((chan s (leAt o.desc 2 1)).plan.map (fun p => p.width)).getD 0)
        (((chan s (leAt o.desc 2 1)).plan.map (fun p => p.height)).getD 0) r = true) →
      exec (.roiUpdate q) s = .next (keepStores s (refuseCmd (count h (CH_ROI_REJ (leAt o.desc 2 1))) q o.slot 0x02))) ∧
    (o.opcode = 0x02 → leAt p 0 1 ≤ 64 → leAt o.desc 2 1 < s.chans.length →
      chanDefined s (leAt o.desc 2 1) = true →
      (∀ r ∈ roiRects p, rectBad (((chan s (leAt o.desc 2 1)).plan.map (fun p => p.width)).getD 0)
        (((chan s (leAt o.desc 2 1)).plan.map (fun p => p.height)).getD 0) r = false) →
      ∃ t c, exec (.roiUpdate q) s = .next t ∧ (chan t (leAt o.desc 2 1)).cmds = (chan s (leAt o.desc 2 1)).cmds ++ [c] ∧
        c.q = q ∧ c.slot = o.slot ∧ c.target = leInt64 p 8 ∧ sameElse s t [] ∧ keepsStores s t) ∧
    (o.opcode = 0x03 → chanDefined s (leAt o.desc 2 1) = false →
      exec (.filmGrain q) s = .next (keepStores s (refuseCmd h q o.slot 0x01))) ∧
    (o.opcode = 0x03 → leAt p 10 1 ≠ 1 →
      (leAt p 12 2 = 0 ∨ 256 < leAt p 12 2 ∨ grainParses (padTo (leAt p 12 2) ((p.drop 16).take (leAt p 12 2))) = false) →
      chanDefined s (leAt o.desc 2 1) = true →
      ((chan s (leAt o.desc 2 1)).plan.map (fun x => x.rends.any (fun r => r.codec = 2 && r.filmGrain))).getD false = true →
      exec (.filmGrain q) s = .next (keepStores s (refuseCmd h q o.slot 0x02))) ∧
    (o.opcode = 0x03 → (leAt p 10 1 = 1 ∨ (1 ≤ leAt p 12 2 ∧ leAt p 12 2 ≤ 256 ∧
        grainParses (padTo (leAt p 12 2) ((p.drop 16).take (leAt p 12 2))) = true)) →
      leAt o.desc 2 1 < s.chans.length → chanDefined s (leAt o.desc 2 1) = true →
      ((chan s (leAt o.desc 2 1)).plan.map (fun x => x.rends.any (fun r => r.codec = 2 && r.filmGrain))).getD false = true →
      ∃ t c, exec (.filmGrain q) s = .next t ∧
        (chan t (leAt o.desc 2 1)).cmds = (chan s (leAt o.desc 2 1)).cmds ++ [c] ∧ c.q = q ∧ c.slot = o.slot ∧
        sameElse s t [] ∧ keepsStores s t) ∧
    (o.opcode = 0x06 → 15 < leAt p 0 1 ∨ chanDefined s (leAt p 0 1) = false →
      exec (.caption q) s = .next (keepStores s (refuseCmd h q o.slot 0x01))) ∧
    (o.opcode = 0x06 → leAt p 0 1 < 16 → chanDefined s (leAt p 0 1) = true →
      ((chan s (leAt p 0 1)).plan.map (fun x => x.capsFlow)).getD false = false → (leAt p 1 1 = 0 ∨ 31 < leAt p 1 1) →
      exec (.caption q) s = .next (keepStores s (refuseCmd h q o.slot 0x02))) ∧
    (o.opcode = 0x06 → leAt p 0 1 < 16 → leAt p 0 1 < s.chans.length → chanDefined s (leAt p 0 1) = true →
      ((chan s (leAt p 0 1)).plan.map (fun x => x.capsFlow)).getD false = false → 1 ≤ leAt p 1 1 → leAt p 1 1 ≤ 31 →
      ∃ t c, exec (.caption q) s = .next t ∧ (chan t (leAt p 0 1)).cmds = (chan s (leAt p 0 1)).cmds ++ [c] ∧ c.q = q ∧
        c.slot = o.slot ∧ sameElse s t [] ∧ keepsStores s t) ∧
    (o.opcode = 0x05 → 15 < leAt p 0 1 ∨ chanDefined s (leAt p 0 1) = false →
      exec (.splice q) s = .next (keepStores s (refuseCmd (count h EGR_SPLICE_REJ) q o.slot 0x01))) ∧
    (let n := leAt p 0 1
     let sec := (p.drop 16).take (leAt p 2 2)
     let good := 16 ≤ leAt p 2 2 ∧ leAt p 2 2 ≤ 1024 ∧ sec.length = leAt p 2 2 ∧ spliceMalformed sec = false ∧ spliceEncrypted sec = false
     o.opcode = 0x05 → n < 16 → chanDefined s n = true →
      (¬ good → exec (.splice q) s = .next (keepStores s (refuseCmd (count h EGR_SPLICE_REJ) q o.slot 0x02))) ∧
      (good → spliceKindOk sec = false → exec (.splice q) s = .next (keepStores s (refuseCmd (count h EGR_SPLICE_REJ) q o.slot 0x03))) ∧
      (good → spliceKindOk sec = true → 8 ≤ pendingSplices s n →
        exec (.splice q) s = .next (keepStores s (refuseCmd (count h EGR_SPLICE_REJ) q o.slot 0x04)))) ∧
    (let n := leAt p 0 1
     let sec := (p.drop 16).take (leAt p 2 2)
     o.opcode = 0x05 → n < 16 → n < s.chans.length → chanDefined s n = true → 16 ≤ leAt p 2 2 → leAt p 2 2 ≤ 1024 →
      sec.length = leAt p 2 2 → spliceMalformed sec = false → spliceEncrypted sec = false → spliceKindOk sec = true →
      pendingSplices s n < 8 →
      ∃ t c, exec (.splice q) s = .next t ∧ (chan t n).cmds = (chan s n).cmds ++ [c] ∧ c.q = q ∧ c.slot = o.slot ∧
        rd t EGR_SPLICE_CNT = satInc (rd s EGR_SPLICE_CNT) ∧ sameElse s t [EGR_SPLICE_CNT.addr] ∧ keepsStores s t)) ∧
  (∀ (n : Nat) (f : FrameSt) (rest : List FrameSt) (s : State), runs s → n < 16 → n < s.chans.length →
    (chan s n).frames = f :: rest → f.started = true → f.rends.all (metaReady s n f) = true → reached s f.launch = true →
    ∃ t, exec (.metadataWrite n) s = .next t ∧ t = keepStores s (writeMeta s n f) ∧
      keepsStores s t ∧ (metaRecord f n).length = 72 + 8 * f.inIdOrder.length) ∧
  (∀ (n : Nat) (s : State), runs s → n < 16 →
    ((chan s n).frames = [] → exec (.metadataWrite n) s = .next s) ∧
    (∀ (f : FrameSt) (rest : List FrameSt), (chan s n).frames = f :: rest →
      (f.started && f.rends.all (metaReady s n f) && reached s f.launch) = false →
      let gone : Bool := (chan s n).dead && reached s f.launch && f.rends.all (fun p => p.packaged || !p.verified)
      (gone = true → exec (.metadataWrite n) s =
        .next (keepStores s (settleRelease (modChan s n (fun c => { c with frames := c.frames.drop 1, past := keepMark c.past f })) n))) ∧
      (gone = false → exec (.metadataWrite n) s = .next s))) ∧
  (∀ (n j k : Nat) (fl : Field) (s : State), runs s → n < 16 → n < s.chans.length → (chan s n).dumpFrame = some (j, k) →
    ((chan s n).fields.find? (fun x => x.1 = j)).map (fun x => x.2.2) = some fl →
    (∃ t, exec (.fieldDumpDone n true) s = .next t ∧ (chan t n).dumpFrame = none ∧ rdFld t (CH_DUMP_CTL n) 2 0 = 6 ∧
      rd t (CH_DUMP_FRAME_LO n) = wordOf k ∧ keepsStores s t) ∧
    (∃ t, exec (.fieldDumpDone n false) s = .next t ∧ (chan t n).dumpFrame = none ∧ rdFld t (CH_DUMP_CTL n) 2 0 = 2 ∧
      t.out.head? = some (.hostWrite (rd64 s (CH_DUMP_ADDR_LO n) (CH_DUMP_ADDR_HI n)) (fieldBytes fl)) ∧ keepsStores s t))

/-- For every picture, references, means, thresholds and rectangles: the field has one record for each 16 by 16 block and
64 + 32 x BW x BH bytes; its CRC does not depend on the number of bands; a fade is never a scene cut; a field without
slot 1 has every block intra-preferred and no static block; and the complexities of the coding-tree rows over the
column tiles of a rendition sum to SUM_CX. (R105, R107, R108, R109, R110, R115, R173) -/
def Obligations.FieldOfAPicture : Prop :=
  ∀ (k bands bands2 : Nat) (cur : Plane) (r1 r2 r4 : Option Plane) (m1 m2 : Option Nat) (ana : Word)
    (rects : List (Nat × Nat × Nat × Nat × Nat)) (roiSeq : Word),
    let f := analyse k bands cur r1 r2 r4 m1 m2 ana rects roiSeq
    f.blocks.length = f.bw * f.bh ∧ (fieldBytes f).length = 64 + 32 * (f.bw * f.bh) ∧
    fieldCrc f = fieldCrc (analyse k bands2 cur r1 r2 r4 m1 m2 ana rects roiSeq) ∧
    (f.fade = true → f.sceneCut = false) ∧
    (r1 = none → f.nIntra = f.bw * f.bh ∧ f.nStatic = 0 ∧ f.sceneCut = false) ∧
    (∀ (r : RendPlan) (t W H : Nat), 0 < r.w → 0 < r.h → 1 ≤ t →
      sumTo t (fun i => sumTo (ctRows r) (fun j => cxTile f W H t r i j)) = f.sumCx)

/-- On a running device: an idle engine of a channel takes the first item of the work list whose inputs are there and goes
on coding it, or does nothing where there is none; a row of a tile in hand, once every reference of its picture is
readable, is coded, as a function of what it reads, normally or in last-resort mode by normalRow and tailRow; the
read-out of a coded tile whose CRC-32C is that of its bytes verifies it, counts TILES_DONE and sets the edge passes
going or frees the engine, or, where its CRC fails, discards the tile and puts the engine in CHECK; an edge pass that
ends is run, the last of them frees the engine, and one with a parity error is only counted and repeated. (R127, R153,
R154, R155, R156, R174, R175) -/
def Obligations.EnginesTakeCodeAndVerify : Prop :=
  (∀ (e : Nat) (s : State), runs s → e < 128 →
    (engState s e ≠ 1 ∨ (chan s (engChannel s e)).work.find? (fun i => takeable s (engChannel s e) e i) = none →
      exec (.tileTake e) s = .next s) ∧
    (∀ i, engState s e = 1 → (chan s (engChannel s e)).dead = false → e < s.engs.length →
      (chan s (engChannel s e)).work.find? (fun i => takeable s (engChannel s e) e i) = some i →
      ∃ t, exec (.tileTake e) s = .next t ∧ t = keepStores s (takeItem s (engChannel s e) e i) ∧ keepsStores s t ∧
        (∀ f r p x, itemParts s (engChannel s e) i = some (f, r, p, x) → i.cls ≠ 1 → x.row < p.limit (ctRows r) →
          engState t e = 2 ∧ (eng t e).item = some i))) ∧
  (∀ (e : Nat) (flips : List (Nat × Byte)) (i : WorkItem) (f : FrameSt) (r : RendPlan) (p : RendPic) (x : TileSt) (s : State), runs s → e < 128 →
    (eng s e).item = some i → engState s e = 2 →
    let n := rdFld s (ENG_STAT e) 11 8
    let refs := readableRefs s n f r.id
    let inp := rowInput f r p x refs (colocatedOf s n f r.id) (decide (x.phase = .tail))
    let c := Config.codeRow inp
    itemParts s n i = some (f, r, p, x) →
    (x.running = true → refs.length = f.refs.length → x.phase = .coding →
      ∃ t, exec (.rowCoded e) s = .next t ∧ t = keepStores s (normalRow (readLines s (e / 8) c.lines) n e i f r p x refs inp c) ∧
        keepsStores s t) ∧
    (x.running = true → refs.length = f.refs.length → x.phase = .tail →
      ∃ t, exec (.rowCoded e) s = .next t ∧ t = keepStores s (tailRow (readLines s (e / 8) c.lines) n e i f r p x inp c) ∧
        rd t (ENG_LR_ROWS e) = satInc (rd s (ENG_LR_ROWS e)) ∧ keepsStores s t) ∧
    (x.running = false ∨ refs.length ≠ f.refs.length → exec (.rowCoded e) s = .next s) ∧
    (x.phase = .coded → e < s.engs.length → crc32c (flipBytes x.bytes flips) = crc32c x.bytes →
      (edgesOf p i = [] → ∃ t, exec (.tileVerified e flips) s = .next t ∧ (eng t e).item = none ∧ engState t e = restState s e ∧
        rd t (ENG_TILES_DONE e) = satInc (rd s (ENG_TILES_DONE e)) ∧ keepsStores s t) ∧
      (edgesOf p i ≠ [] → ∃ t, exec (.tileVerified e flips) s = .next t ∧ (eng t e).item = some i ∧ (eng t e).edges = edgesOf p i ∧
        rdBit t (ENG_STAT e) 3 = true ∧ engState t e = 2 ∧ rd t (ENG_TILES_DONE e) = satInc (rd s (ENG_TILES_DONE e)) ∧ keepsStores s t)) ∧
    (x.phase = .coded → e < s.engs.length → crc32c (flipBytes x.bytes flips) ≠ crc32c x.bytes →
      ((eng s e).edges = [] →
        ∃ t, exec (.tileVerified e flips) s = .next t ∧ (eng t e).item = none ∧ engState t e = 3 ∧
          rd t (ENG_PARITY_CNT e) = satInc (rd s (ENG_PARITY_CNT e)) ∧ rdFld t (ENG_FAULT_SITE e) 6 4 = 4 ∧
          rd t (ENG_REISSUE_CNT e) = satInc (rd s (ENG_REISSUE_CNT e)) ∧ keepsStores s t))) ∧
  (∀ (e : Nat) (i y : WorkItem) (ys : List WorkItem) (s : State), runs s → e < 128 → e < s.engs.length →
    (eng s e).item = some i → (eng s e).edges = y :: ys → engState s e = 2 →
    (∃ t, exec (.edgePassDone e true) s = .next t ∧ rd t (CL_EDGE_REDO (e / 8)) = satInc (rd s (CL_EDGE_REDO (e / 8))) ∧
      rd t (ENG_PARITY_CNT e) = satInc (rd s (ENG_PARITY_CNT e)) ∧ (eng t e).edges = y :: ys ∧ engState t e = 2 ∧ keepsStores s t) ∧
    (ys ≠ [] → ∃ t, exec (.edgePassDone e false) s = .next t ∧ (eng t e).edges = ys ∧ sameElse s t [] ∧ keepsStores s t) ∧
    (ys = [] → ∃ t, exec (.edgePassDone e false) s = .next t ∧ (eng t e).item = none ∧ engState t e = restState s e ∧ keepsStores s t))

/-- On a running device a parity event of an engine that is powered counts PARITY_CNT, sets the cluster's event and
records its site; an engine at rest, in its self-test or coding a tile enters CHECK, a tile in hand being discarded
and counted; an edge pass in hand is only repeated; a withdrawn engine takes no other action; an unpowered one detects
nothing. CHECK_END after 50 µs returns the engine to the state it has without work and before that does nothing.
CACHE_PARITY_ERROR counts, sets its event and fetches the line again, which the cache then holds. CLUSTER_UP with a
passed self-test takes every engine that is down into that state, and with a failed one none. A signature test runs on
an idle engine or scout whose period has passed or whose last test failed; it passes with the signatures of its
vector, which counts ST_PASS, a first mismatch counts nothing, and a second one does what engineTested and scoutTested
state. (R153, R156, R158, R159, R164, R456) -/
def Obligations.ParityChecksAndSelfTests : Prop :=
  (∀ (e : Nat) (el : BitVec 4) (kd : BitVec 3) (s : State), runs s → e < 128 → e < s.engs.length →
    (engState s e = 0 ∨ engState s e = 1 ∨ engState s e = 6 →
      ∃ t, exec (.engineParityError e el kd) s = .next t ∧ engState t e = 3 ∧ rd t (ENG_PARITY_CNT e) = satInc (rd s (ENG_PARITY_CNT e)) ∧
        rd t (ENG_FAULT_SITE e) = mkWord [(3, 0, el.toNat), (6, 4, kd.toNat)] ∧ rdBit t (CL_EVT (e / 8)) 0 = true ∧
        (eng t e).since = s.raw ∧ keepsStores s t) ∧
    (∀ i, engState s e = 2 → (eng s e).edges = [] → (eng s e).item = some i →
      ∃ t, exec (.engineParityError e el kd) s = .next t ∧ engState t e = 3 ∧ (eng t e).item = none ∧
        rd t (ENG_PARITY_CNT e) = satInc (rd s (ENG_PARITY_CNT e)) ∧ rd t (ENG_REISSUE_CNT e) = satInc (rd s (ENG_REISSUE_CNT e)) ∧
        rdBit t (CL_EVT (e / 8)) 1 = true ∧ keepsStores s t) ∧
    (engState s e = 2 → (eng s e).edges ≠ [] →
      ∃ t, exec (.engineParityError e el kd) s = .next t ∧ engState t e = 2 ∧ (eng t e).item = (eng s e).item ∧
        rd t (CL_EDGE_REDO (e / 8)) = satInc (rd s (CL_EDGE_REDO (e / 8))) ∧ keepsStores s t) ∧
    (engState s e = 3 → ∃ t, exec (.engineParityError e el kd) s = .next t ∧ engState t e = 3 ∧ (eng t e).since = s.raw ∧ keepsStores s t) ∧
    (engState s e = 4 → ∃ t, exec (.engineParityError e el kd) s = .next t ∧ engState t e = 4 ∧ t.engs = s.engs ∧
      rd t (ENG_PARITY_CNT e) = satInc (rd s (ENG_PARITY_CNT e)) ∧ keepsStores s t) ∧
    (engState s e = 5 → exec (.engineParityError e el kd) s = .next s) ∧
    (engState s e = 3 → ticksSince s (eng s e).since (usTicks 50) = true →
      ∃ t, exec (.checkEnd e) s = .next t ∧ engState t e = restState s e ∧
        sameElse s t [(ENG_STAT e).addr, (CL_ENG_PRESENT (e / 8)).addr] ∧ keepsStores s t) ∧
    (engState s e ≠ 3 ∨ ticksSince s (eng s e).since (usTicks 50) = false → exec (.checkEnd e) s = .next s) ∧
    (rdBit s GOOSE_ST_CTL 0 = true → engState s e = 1 → testWindow s (engChannel s e) = true →
      ((eng s e).stFails ≠ 0 ∨ passed s (eng s e).lastTest (testPeriod s) = true) →
      ∃ t, exec (.selfTestStart false e) s = .next t ∧ engState t e = 6 ∧ (eng t e).lastTest = some s.raw ∧ keepsStores s t) ∧
    (∀ crcs : Word × Word, engState s e = 6 →
      exec (.selfTestDone false e crcs) s = .next (keepStores s (engineTested s e (testMatches false (eng s e).stVector crcs)))) ∧
    (∀ crcs : Word × Word, engState s e = 6 →
      (testMatches false (eng s e).stVector crcs = true →
        ∃ t, exec (.selfTestDone false e crcs) s = .next t ∧ engState t e = restState s e ∧ (eng t e).stFails = 0 ∧
        rd t GOOSE_ST_PASS = satInc (rd s GOOSE_ST_PASS) ∧ rdBit t (CL_STAT (e / 8)) 6 = true ∧ keepsStores s t) ∧
      (testMatches false (eng s e).stVector crcs = false → (eng s e).stFails = 0 →
        ∃ t, exec (.selfTestDone false e crcs) s = .next t ∧ engState t e = restState s e ∧ (eng t e).stFails = 1 ∧
          rd t GOOSE_ST_FAIL = rd s GOOSE_ST_FAIL ∧ rdBit t (CL_STAT (e / 8)) 6 = false ∧ keepsStores s t))) ∧
  (∀ (c line : Nat) (s : State), runs s → c < 16 → c < s.engs.length →
    (rdBit s GOOSE_ST_CTL 0 = true → rdFld s (CL_SCT_STAT c) 1 0 = 1 → (eng s c).scoutOn = false →
      testWindow s (rdFld s (CL_STAT c) 3 0) = true →
      ((eng s c).scoutFails ≠ 0 ∨ passed s (eng s c).scoutLast (testPeriod s) = true) →
      ∃ t, exec (.selfTestStart true c) s = .next t ∧ (eng t c).scoutOn = true ∧ (eng t c).scoutLast = some s.raw ∧ sameElse s t [] ∧
        keepsStores s t) ∧
    (∀ crcs : Word × Word, (eng s c).scoutOn = true →
      exec (.selfTestDone true c crcs) s = .next (keepStores s (scoutTested s c (testMatches true (eng s c).scoutVector crcs)))) ∧
    (∃ t, exec (.cacheParityError c line) s = .next t ∧ (c < s.caches.length → (t.caches.getD c []).head? = some line) ∧
      t.out = .lineFetch c line :: s.out ∧ rd t (CL_CACHE_PARITY c) = satInc (rd s (CL_CACHE_PARITY c)) ∧
      rdBit t (CL_EVT c) 3 = true ∧ sameElse s t [(CL_CACHE_PARITY c).addr, (CL_EVT c).addr] ∧ keepsStores s t) ∧
    (∃ t, exec (.clusterUp c true) s = .next t ∧ keepsStores s t ∧
      ∀ i < 8, engState t (8 * c + i) = (if engState s (8 * c + i) = 5 then restState s (8 * c + i) else engState s (8 * c + i))) ∧
    (∃ t, exec (.clusterUp c false) s = .next t ∧ keepsStores s t ∧ ∀ i < 8, engState t (8 * c + i) = engState s (8 * c + i)))

/-- A rate decision gives the tiles of a picture caps whose sum is at most B_k less HDR_MAX, where LR_MAX is at least the
last-resort bits of its tiles. When a picture is sized whose access unit takes at most HDR_MAX besides its tile data
and whose tile data is at most B_k less HDR_MAX, for a rendition with G at most B_k and at most A_k, and A_k at least
65 below the buffer size, its bits with filler are at most B_k, the next fullness is at least G and, in every mode, at
most the buffer size less 1; it is B_k less the bits plus A_k in CBR. The filler unit is the smallest that reaches the
limit. Whatever the values, the decision and the sizing complete as decideRate and sizePicture state. (R168, R170,
R171, R173, R177, R178) -/
def Obligations.TheModelBufferNeverFails : Prop :=
  (∀ (n r : Nat) (f : FrameSt) (rp : RendPlan) (p : RendPic) (s : State), runs s → n < 16 → r < 40 → n < s.chans.length →
    oldestPic s n r (fun p => !p.decided) = some (f, rp, p) →
    (f.started = false → exec (.rateDecision n r) s = .next s) ∧
    (f.started = true → (chan s n).dead = false → previousSized s n r f.j = true → lookaheadKnown (chan s n) f = true →
      awaitsFull s n f = false → p.rescue ≠ some 0 →
      sumTo p.tiles.length (fun i => resBits p.tiles.length rp f.idr i 0) ≤ rp.lrMax → (p.tiles.map (fun x => x.col)) = List.range p.tiles.length →
      rp.hdrMax + rp.lrMax ≤ (modelFor (chan s n) f rp).b → ((chan s n).frames.map (fun z => z.j)).Nodup →
      (f.rends.map (fun z => z.id)).Nodup →
      ∃ t, exec (.rateDecision n r) s = .next t ∧ keepsStores s t ∧
        ∀ x ∈ (chan t n).frames, x.j = f.j → ∀ y ∈ x.rends, y.id = rp.id →
          y.decided = true ∧ y.b = (modelFor (chan s n) f rp).b ∧ y.a = arrival rp.rate f.k f.grid ∧
            y.qi = (rateOf (chan s n) f n rp (modelFor (chan s n) f rp)).2 ∧
            (y.tiles.map (fun u => u.cap)).sum + rp.hdrMax ≤ y.b)) ∧
  (∀ (n r : Nat) (f : FrameSt) (rp : RendPlan) (p : RendPic) (s : State), runs s → n < 16 → r < 40 →
    (oldestPic s n r (fun p => !p.decided) = some (f, rp, p) → f.started = true → (chan s n).dead = false →
      previousSized s n r f.j = true → lookaheadKnown (chan s n) f = true → awaitsFull s n f = false →
      exec (.rateDecision n r) s = .next (keepStores s (decideRate s n f rp p))) ∧
    (oldestPic s n r (fun p => !p.sized) = some (f, rp, p) → p.verified = true → noticeIn s n f = true →
      exec (.pictureSized n r) s = .next (keepStores s (sizePicture s n f rp p)))) ∧
  (∀ (n r : Nat) (f : FrameSt) (rp : RendPlan) (p : RendPic) (s : State), runs s → n < 16 → r < 40 → n < s.chans.length →
    oldestPic s n r (fun p => !p.sized) = some (f, rp, p) → p.verified = true → noticeIn s n f = true →
    let m := modelFor (chan s n) f rp
    let g := rp.hdrMax + rp.lrMax
    8 * partsLength (accessUnit f rp p m.b0 m.sinceBp) ≤ rp.hdrMax + tileBits p →
    g ≤ p.b → p.b + 1 ≤ rp.cpb → rp.hdrMax + tileBits p ≤ p.b → g ≤ p.a → p.a + 65 ≤ rp.cpb →
    ∃ t, exec (.pictureSized n r) s = .next t ∧ keepsStores s t ∧
      ∀ x ∈ (chan t n).frames, x.j = f.j → ∀ y ∈ x.rends, y.id = rp.id →
        y.sized = true ∧ y.bits ≤ p.b ∧ g ≤ y.cpbNext ∧ y.cpbNext + 1 ≤ rp.cpb ∧ (rp.mode = 1 → y.cpbNext + y.bits = p.b + p.a) ∧
          (rp.mode ≠ 1 → y.filler = 0)) ∧
  (∀ (codec q : Nat) (b lo : Int), fillerPayload codec b lo = some q →
    b < lo ∧ lo - b ≤ 8 * ((fillerUnit codec q : Nat) : Int) ∧
      ∀ pl, lo - b ≤ 8 * ((fillerUnit codec pl : Nat) : Int) → fillerUnit codec q ≤ fillerUnit codec pl)

/-- On a running device a slot that serves no channel takes neither packets nor pictures. A packet of an assigned slot is
taken as contribPacket states: one not later than the last is left out, and RTP packets missing before a payload count
PKT_GAP once. An access unit that ends before the first random-access point without being one counts PICS_DISCARDED; a
random-access point ends that wait, and any JPEG XS picture is one; an access unit that grows beyond AU_MAX is cut and
counts WORK_STOP. A slot decodes the oldest access unit of its ring once it has ended, by what its bits say: one that
repeats a capture time counts PICS_DISCARDED and is not output, one of HEVC without a slice and without a gap is no
picture, one of an unsupported stream counts UNSUPPORTED and puts the slot in UNSUPPORTED, a leading picture to skip
counts PICS_DISCARDED; any other is decoded, its concealed units counted. A picture that leaves in output order counts
exactly one of PICS_OK, PICS_CONCEALED and PICS_TAINTED, with CLEAN set for the first alone. (R190, R192, R193, R195,
R197, R198, R199, R200, R204) -/
def Obligations.ContributionSlots : Prop :=
  (∀ (u k : Nat) (s : State), runs s → u < 4 → k < 4 → u * 4 + k < s.slots.length →
    (∀ p, slotAssigned s u k = false →
      exec (.contribPacketRx u k p) s = .next s ∧ exec (.pictureDecoded u k) s = .next s) ∧
    (∀ p : ContribPacket, slotAssigned s u k = true →
      exec (.contribPacketRx u k p) s = .next (keepStores s (contribPacket s u k p)) ∧
      (∀ q, (slotOf s u k).seqLast = some q → (p.seq - q).toInt ≤ 0 → exec (.contribPacketRx u k p) s = .next s) ∧
      (∀ q, (slotOf s u k).seqLast = some q → 0 < (p.seq - q).toInt → slotCarriage s u k ≠ 1 →
        ∃ t, exec (.contribPacketRx u k p) s = .next t ∧ keepsStores s t ∧ (slotOf t u k).seqLast = some p.seq ∧
          rd t (DS_PKT_GAP u k) = (if 1 < (p.seq - q).toInt then satInc (rd s (DS_PKT_GAP u k)) else rd s (DS_PKT_GAP u k))) ∧
      ((∀ q, (slotOf s u k).seqLast = some q → 0 < (p.seq - q).toInt) → slotCarriage s u k ≠ 1 → slotXs s u k = true →
        slotState s u k = 1 → (slotOf s u k).gotRap = false → arriving s u k = none →
        ∃ t, exec (.contribPacketRx u k p) s = .next t ∧ slotState t u k = 2 ∧ (slotOf t u k).gotRap = true ∧ keepsStores s t)) ∧
    (∀ a : AuSt, arriving s u k = some a →
      (isRap s u k a = true → let t := noteRap s u k
        (slotOf t u k).gotRap = true ∧ slotState t u k = (if slotState s u k = 1 then 2 else slotState s u k)) ∧
      (isRap s u k a = false → (slotOf s u k).gotRap = false → let t := endArriving s u k
        rd t (DS_PICS_DISCARDED u k) = satInc (rd s (DS_PICS_DISCARDED u k)) ∧ (slotOf t u k).ring = (slotOf s u k).ring.dropLast ∧
          sameElse s t [(DS_PICS_DISCARDED u k).addr]) ∧
      (∀ bs : List Byte, a.cut = false → (rd s (DS_AU_MAX u k)).toNat < a.size + bs.length → let t := ringWrite s u k bs
        rd t (DS_WORK_STOP u k) = satInc (rd s (DS_WORK_STOP u k)) ∧ rdBit t (DU_EVT u) 2 = true ∧
          (arriving t u k).map (fun x => x.cut) = some true ∧
          sameElse s t [(DS_WORK_STOP u k).addr, (DU_EVT u).addr, (DU_BOUND_VIOL u).addr]))) ∧
  (∀ (u k : Nat) (s : State), runs s → u < 4 → k < 4 → u * 4 + k < s.slots.length → slotAssigned s u k = true →
    ((∀ a, (slotOf s u k).ring.head? = some a → a.ended = false) → exec (.pictureDecoded u k) s = .next s) ∧
    (∀ a : AuSt, (slotOf s u k).ring.head? = some a → a.ended = true →
      let c := auCapture s u k a
      let us := unitsOfAu s u k a
      let d := parsed s u k a
      let sets := noteParams us (slotOf s u k).sets d.params
      let ty := (auType us).getD 0
      let isPicture := (auType us).isSome = true ∨ a.pieces.any (fun p => p.2) = true
      let bad := (sets.any (fun y => y.1 = 33 && y.2.1 = d.stream.sps) &&
          !hevcSupported d.stream (rdFld s (DS_SLOT_FMT u k) 15 0) (rdFld s (DS_SLOT_FMT u k) 31 16)) ||
        (slotState s u k == 3 && !isRap s u k a)
      let s1 := modSlot s u k (fun x => { x with
        ring := x.ring.drop 1
        seen := c :: x.seen
        parser := d.state
        sets := sets })
      exec (.pictureDecoded u k) s = .next (keepStores s (decodePicture s u k a d)) ∧
      (c ∈ (slotOf s u k).seen →
        ∃ t, exec (.pictureDecoded u k) s = .next t ∧ rd t (DS_PICS_DISCARDED u k) = satInc (rd s (DS_PICS_DISCARDED u k)) ∧
          sameElse s t [(DS_PICS_DISCARDED u k).addr] ∧ keepsStores s t) ∧
      (c ∉ (slotOf s u k).seen → slotXs s u k = false → ¬isPicture →
        ∃ t, exec (.pictureDecoded u k) s = .next t ∧ (slotOf t u k).ring = (slotOf s u k).ring.drop 1 ∧ sameElse s t [] ∧ keepsStores s t) ∧
      (c ∉ (slotOf s u k).seen → slotXs s u k = false → isPicture → bad = true →
        ∃ t, exec (.pictureDecoded u k) s = .next t ∧ rd t (DS_UNSUPPORTED u k) = satInc (rd s (DS_UNSUPPORTED u k)) ∧
          slotState t u k = 3 ∧ keepsStores s t) ∧
      (c ∉ (slotOf s u k).seen → slotXs s u k = false → isPicture → bad = false → ty = 8 ∨ ty = 9 →
        (slotOf s u k).noRasl = true →
        ∃ t, exec (.pictureDecoded u k) s = .next t ∧ slotState t u k = 2 ∧
          rd t (DS_PICS_DISCARDED u k) = satInc (rd s (DS_PICS_DISCARDED u k)) ∧ keepsStores s t) ∧
      (c ∉ (slotOf s u k).seen →
        (slotXs s u k = true ∨ (isPicture ∧ bad = false ∧ ((ty ≠ 8 ∧ ty ≠ 9) ∨ (slotOf s u k).noRasl = false))) →
        let units := (decodeAu s1 u k a d).2.1
        ∃ t, exec (.pictureDecoded u k) s = .next t ∧ keepsStores s t ∧ slotState t u k = 2 ∧
          (rd t (DS_UNITS_CONCEALED u k)).toNat = min ((rd s (DS_UNITS_CONCEALED u k)).toNat + units.length) (2 ^ 32 - 1) ∧
          ((slotOf s u k).outs = [] → (slotXs s u k = true ∨ d.stream.reorder = 0) →
            let ok := rd t (DS_PICS_OK u k) = satInc (rd s (DS_PICS_OK u k))
            let conc := rd t (DS_PICS_CONCEALED u k) = satInc (rd s (DS_PICS_CONCEALED u k))
            let taint := rd t (DS_PICS_TAINTED u k) = satInc (rd s (DS_PICS_TAINTED u k))
            let sameOk := rd t (DS_PICS_OK u k) = rd s (DS_PICS_OK u k)
            let sameConc := rd t (DS_PICS_CONCEALED u k) = rd s (DS_PICS_CONCEALED u k)
            let sameTaint := rd t (DS_PICS_TAINTED u k) = rd s (DS_PICS_TAINTED u k)
            (ok ∧ sameConc ∧ sameTaint ∧ rdBit t (DS_SLOT_STAT u k) 3 = true ∧ units = []) ∨
              (sameOk ∧ conc ∧ sameTaint ∧ rdBit t (DS_SLOT_STAT u k) 3 = false) ∨
              (sameOk ∧ sameConc ∧ taint ∧ rdBit t (DS_SLOT_STAT u k) 3 = false ∧ units = []))))) ∧
  (∀ (u k : Nat) (o : OutPic) (s : State), u < 4 → k < 4 → u * 4 + k < s.slots.length →
    let t := outputPicture s u k o
    let concealed := o.flags % 2 = 1
    let tainted := o.flags % 2 ≠ 1 ∧ o.flags / 2 % 2 = 1
    (concealed → rd t (DS_PICS_CONCEALED u k) = satInc (rd s (DS_PICS_CONCEALED u k)) ∧ rdBit t (DS_SLOT_STAT u k) 3 = false) ∧
      (tainted → rd t (DS_PICS_TAINTED u k) = satInc (rd s (DS_PICS_TAINTED u k)) ∧ rdBit t (DS_SLOT_STAT u k) 3 = false) ∧
      (¬concealed → ¬tainted → rd t (DS_PICS_OK u k) = satInc (rd s (DS_PICS_OK u k)) ∧ rdBit t (DS_SLOT_STAT u k) 3 = true ∧
        (o.rap = true → (slotOf s u k).dirty = true → rdBit t (DU_EVT u) 7 = true)))

/-- The capture time of an access unit whose first byte arrived at the corrected time t is m + CT_OFS: with n_a the 90 kHz
count of t, n is congruent to the timestamp (for carriage 1 with TS_ADJ added) modulo 2^32, for carriage 1 modulo
2^33, and lies within half that range of n_a, and m is the first nanosecond of count n. The same holds of nearestCount
and mediaTime for every width, and in R191's example n = 4,294,940,000 and m = 47,721,555,555,556 ns. (R191) -/
def Obligations.MediaTimeIsTheNearestCount : Prop :=
  (∀ (s : State) (u k ts : Nat) (t : Int),
    let na := (t * 9).fdiv 100000
    let w := if slotCarriage s u k = 1 then 33 else 32
    let stamp : Int := if slotCarriage s u k = 1 then (ts : Int) + tsAdj s u k else ts
    ∃ n m : Int, (n - stamp) % 2 ^ w = 0 ∧ na - 2 ^ (w - 1) ≤ n ∧ n < na + 2 ^ (w - 1) ∧ (m * 9).fdiv 100000 = n ∧
      ((m - 1) * 9).fdiv 100000 < n ∧ captureTime s u k t ts = m + (rd s (DS_CT_OFS u k)).toNat) ∧
  nearestCount 32 4295000000 4294940000 = 4294940000 ∧ mediaTime 4294940000 = 47721555555556 ∧
  (∀ (w : Nat) (na ts : Int), 1 ≤ w →
    (nearestCount w na ts - ts) % 2 ^ w = 0 ∧ na - 2 ^ (w - 1) ≤ nearestCount w na ts ∧ nearestCount w na ts < na + 2 ^ (w - 1)) ∧
  (∀ n : Int, (mediaTime n * 9).fdiv 100000 = n ∧ ((mediaTime n - 1) * 9).fdiv 100000 < n)

/-- A picture composed with no layer that takes part is the programme's picture, sample for sample; every component that a
matrix or a filter gives lies from 0 to 1023; at the unit ratio every luma position falls on its own sample and phase
0; and a composed picture in 4:2:0 differs from that in 4:2:2 in its chroma planes alone. (R218, R220, R221, R223,
R224) -/
def Obligations.CompositionAndScaling : Prop :=
  (∀ (inp : Picture) (m0 mo : List Int) (ls : List LayerIn), (∀ l ∈ ls, l.enabled = false ∨ l.ready = false) →
    inp.y.px.length = inp.y.w * inp.y.h → inp.cb.w = inp.y.w / 2 → inp.cb.h = inp.y.h → inp.cr.w = inp.y.w / 2 → inp.cr.h = inp.y.h →
    inp.cb.px.length = inp.cb.w * inp.cb.h → inp.cr.px.length = inp.cr.w * inp.cr.h →
    composePicture inp m0 mo ls false = inp) ∧
  (∀ (inp : Picture) (m0 mo : List Int) (ls : List LayerIn),
    (composePicture inp m0 mo ls true).y = (composePicture inp m0 mo ls false).y) ∧
  (∀ (m : List Int) (v : Rgb), let r := applyMatrix m v
    0 ≤ r.1 ∧ r.1 ≤ 1023 ∧ 0 ≤ r.2.1 ∧ r.2.1 ≤ 1023 ∧ 0 ≤ r.2.2 ∧ r.2.2 ≤ 1023) ∧
  (∀ (coef : Nat → Nat → Int) (taps : Nat) (src : Int → Int) (p : Int), 0 ≤ filterAt coef taps src p ∧ filterAt coef taps src p ≤ 1023) ∧
  (∀ S x : Nat, 0 < S → pos64 S S x 1 0 1 0 = 64 * (x : Int))

/-- On a running device: the oldest frame without a composed picture, once its input is closed or all its rows are
received, gets the one composeFrame gives, COMP_FRAME and GSIG show it; a scaler output of the oldest frame that lacks
it is scaled; a tile's buffer takes the next frame and counts TILE_DROP where the one before was never selected; a
display frame, from its raw-counter instant on, selects every newest buffer, and where video is sent it is counted and
shown; the instant of the next lies 20,833,333 ticks later, every third time one more; before its instant the command
does nothing. That the first command is the first display frame is the model's choice (log entry 62). PLANE_LOAD of a
buffer outside the allocation, of a wrong size or of a busy buffer finishes with status 1, 2 or 3 and changes no
register; otherwise LOADING is set and LOADED cleared; its end sets LOADED, BUF_DIM and BUF_CRC, or with a DMA error
leaves the buffer not loaded. COEF_DATA reads and writes at COEF_IDX, which goes up by one; a write to a bank in use
is only counted. (R211, R212, R213, R216, R222, R225, R230, R231) -/
def Obligations.PicturesComposedScaledAndShown : Prop :=
  (∀ (n : Nat) (f : FrameSt) (p : Picture) (s : State), runs s → n < 16 → n < s.chans.length →
    oldest s n (fun f => f.composed.isNone) = some f →
    (f.input = none → receivedInput s n f = none → exec (.composedPictureComplete n) s = .next s) ∧
    (f.input = none → receivedInput s n f = some p → exec (.composedPictureComplete n) s =
      .next (keepStores s (composeFrame (modFrame s n f.j (fun f => { f with input := some p })) n f p))) ∧
    (f.input = some p → ∃ t, exec (.composedPictureComplete n) s = .next t ∧
      t = keepStores s (composeFrame s n f p) ∧ (∀ x ∈ (chan t n).frames, x.j = f.j → x.composed.isSome = true ∧ x.gsig = rd t (CMP_GSIG n)) ∧
      rd t (CMP_GSIG n) = graphicsSig (layersOf s n f) f.plan.width f.plan.height ∧ rd t (CMP_COMP_FRAME_LO n) = wordOf f.k ∧
      keepsStores s t)) ∧
  (∀ (n j o : Nat) (f : FrameSt) (rest : List FrameSt) (x : OutPlan) (p : Picture) (s : State), runs s → j < 48 → o < 16 → n < 16 →
    n < s.chans.length → (∀ m < 16, m ≠ n → (chan s m).frames = []) → (chan s n).frames = f :: rest →
    f.plan.outs.find? (fun x => x.scl = j && x.out = o) = some x → mget f.scaled x.dst = none → outSource f x = some p →
    exec (.scalerOutputComplete j o) s = .next (keepStores s (modFrame s n f.j (fun z => { z with
      scaled := mput z.scaled x.dst (scaleOut z j o p (resFormat z x.srcRes) x.ofmt x.dstW x.dstH) })))) ∧
  (∀ (k : Nat) (tp : TilePlan) (f : FrameSt) (s : State), runs s → k < 16 → k < s.tiles.length → tilePlan s k = some tp →
    oldest s tp.channel (fun f => f.composed.isSome && !f.tilesDone.contains k) = some f →
    ∃ t, exec (.tileBufferDone k) s = .next t ∧ ((tileOf t k).newest.map (fun x => x.1)) = some f.k ∧ (tileOf t k).selected = false ∧
      rd t DPO_TILE_DROP = (if (tileOf s k).newest.isSome && !(tileOf s k).selected then rd s DPO_TILE_DROP + 1 else rd s DPO_TILE_DROP) ∧
      sameElse s t [DPO_TILE_DROP.addr] ∧ keepsStores s t) ∧
  (∀ s : State, runs s → ∀ u, u = s.displayNext.getD (s.raw, 0) →
    (hasCome s u.1 = false → exec .displayFrame s = .next s) ∧
    (hasCome s u.1 = true → ∃ t, exec .displayFrame s = .next t ∧
      t.displayNext = some (u.1 + (if u.2 = 2 then 20833334 else 20833333), (u.2 + 1) % 3) ∧ (∀ x ∈ t.tiles, x.selected = true ∧ x.shown = x.newest) ∧ keepsStores s t ∧
      (rdBit s DPO_STAT 6 = false → sameElse s t [] ∧ t.out = s.out) ∧
      (rdBit s DPO_STAT 6 = true → rd64 t DPO_DFRAME_LO DPO_DFRAME_HI = (rd64 s DPO_DFRAME_LO DPO_DFRAME_HI + 1) % 2 ^ 64 ∧
        ∃ canvas, t.out = .display (displayTiles t) canvas :: s.out))) ∧
  (∀ (q : Nat) (y : Outst) (s : State), runs s → q < 32768 → nextUnhanded s q = some y → y.opcode = 0x04 →
    let p := y.payload.getD []
    let n := leAt p 0 1
    let l := leAt p 1 1
    let b := leAt p 2 1
    let h := markHanded s q y.slot
    (15 < n ∨ chanDefined s n = false ∨ l = 0 ∨ 7 < l ∨ rdFld s (LY_L_STAT n l) 10 8 ≤ b →
      exec (.planeLoad q) s = .next (keepStores s (finish h q y.slot 0x01 []))) ∧
    (n < 16 → chanDefined s n = true → 1 ≤ l → l ≤ 7 → b < rdFld s (LY_L_STAT n l) 10 8 →
      (leAt p 4 2 = 0 ∨ rdFld s (LY_L_ALLOC n l) 15 0 < leAt p 4 2 ∨ leAt p 6 2 = 0 ∨ rdFld s (LY_L_ALLOC n l) 31 16 < leAt p 6 2 ∨
        leAt p 8 4 % 64 ≠ 0 ∨ leAt p 8 4 < 8 * leAt p 4 2) →
      exec (.planeLoad q) s = .next (keepStores s (finish h q y.slot 0x02 []))) ∧
    (n < 16 → n < s.chans.length → chanDefined s n = true → 1 ≤ l → l ≤ 7 → b < rdFld s (LY_L_STAT n l) 10 8 → b < 4 →
      1 ≤ leAt p 4 2 → leAt p 4 2 ≤ rdFld s (LY_L_ALLOC n l) 15 0 → 1 ≤ leAt p 6 2 → leAt p 6 2 ≤ rdFld s (LY_L_ALLOC n l) 31 16 →
      leAt p 8 4 % 64 = 0 → 8 * leAt p 4 2 ≤ leAt p 8 4 →
      (bufferBusy s n l b = true → exec (.planeLoad q) s = .next (keepStores s (finish h q y.slot 0x03 []))) ∧
      (bufferBusy s n l b = false →
        ∃ t, exec (.planeLoad q) s = .next t ∧ rdBit t (LY_L_STAT n l) b = false ∧ rdBit t (LY_L_STAT n l) (4 + b) = true ∧
          (l, b, leAt p 4 2, leAt p 6 2, q, y.slot) ∈ (chan t n).loading ∧ sameElse s t [(LY_L_STAT n l).addr] ∧ keepsStores s t))) ∧
  (∀ (n l b w h q slot : Nat) (s : State), runs s → n < 16 → n < s.chans.length → 1 ≤ l → l < 8 → b < 4 →
    (chan s n).loading = [(l, b, w, h, q, slot)] →
    (∃ t, exec (.planeLoadDone n l b none) s = .next t ∧ rdBit t (LY_L_STAT n l) b = false ∧ rdBit t (LY_L_STAT n l) (4 + b) = false ∧
      (chan t n).loading = [] ∧ sameElse s t [(LY_L_STAT n l).addr] ∧ keepsStores s t) ∧
    (∀ ps : List (BitVec 64), ps.length = w * h →
      ∃ t, exec (.planeLoadDone n l b (some ps)) s = .next t ∧ rdBit t (LY_L_STAT n l) b = true ∧ rdBit t (LY_L_STAT n l) (4 + b) = false ∧
        planeAt t n l b = ps ∧ rd t (LY_BUF_CRC n l b) = crc32c ((ps.map (fun v => leBytes 8 v.toNat)).flatten) ∧
        rd t (LY_BUF_DIM n l b) = mkWord [(15, 0, w), (31, 16, h)] ∧
        sameElse s t [(LY_L_STAT n l).addr, (LY_BUF_CRC n l b).addr, (LY_BUF_DIM n l b).addr] ∧ keepsStores s t)) ∧
  (∀ (m : Master) (j : Nat) (v : BitVec 10) (s : State), runs s → j < 48 →
    let i := rdFld s (SCL_COEF_IDX j) 11 0
    (∃ t, exec (.coefDataRead m j) s = .next t ∧
      t.out = .read m (wordOf (BitVec.ofInt 10 ((mget s.coefs (4096 * j + i)).getD 0)).toNat) :: s.out ∧
      rdFld t (SCL_COEF_IDX j) 11 0 = (i + 1) % 4096 ∧ t.coefs = s.coefs ∧ sameElse s t [(SCL_COEF_IDX j).addr] ∧ keepsStores s t) ∧
    (bankInUse s j (i / 1024) = true →
      ∃ t, exec (.coefDataWrite j v) s = .next t ∧ t.coefs = s.coefs ∧ rd t (SCL_COEF_REJ j) = satInc (rd s (SCL_COEF_REJ j)) ∧
        rdBit t (SCL_EVT j) 1 = true ∧ rdFld t (SCL_COEF_IDX j) 11 0 = (i + 1) % 4096 ∧ keepsStores s t) ∧
    (bankInUse s j (i / 1024) = false →
      ∃ t, exec (.coefDataWrite j v) s = .next t ∧ t.coefs = mset 0 s.coefs (4096 * j + i) v.toInt ∧
        rdFld t (SCL_COEF_IDX j) 11 0 = (i + 1) % 4096 ∧ sameElse s t [(SCL_COEF_IDX j).addr] ∧ keepsStores s t))

/-- On a running device: HPD_ASSERT shows HPD and, with EN set, starts a training, counted in TRAIN_CNT; HPD_LOSS takes
the link down; IRQ_HPD sets its event and retrains a lost link; a training done at a rate the device may use shows the
rate, and sends video where the rate carries the canvas, with LINK_SHORT where it does not or where no rate trained; a
write of DPO_CTL with EN clear turns the output off, and one that changes it on a connected output retrains. (R233,
R234) -/
def Obligations.MonitorLink : Prop :=
  ∀ s : State, runs s →
    (rdBit s DPO_STAT 0 = true → exec .hpdAssert s = .next s) ∧
    (rdBit s DPO_STAT 0 = false →
      ∃ t, exec .hpdAssert s = .next t ∧ rdBit t DPO_STAT 0 = true ∧ rdBit t DPO_EVT 0 = true ∧
        rd t DPO_TRAIN_CNT = (if rdBit s DPO_CTL 0 then satInc (rd s DPO_TRAIN_CNT) else rd s DPO_TRAIN_CNT) ∧
        sameElse s t [DPO_STAT.addr, DPO_EVT.addr, DPO_TRAIN_CNT.addr] ∧ keepsStores s t) ∧
    (rdBit s DPO_STAT 0 = false → exec .hpdLoss s = .next s ∧ ∀ b, exec (.irqHpd b) s = .next s) ∧
    (rdBit s DPO_STAT 0 = true →
      (∃ t, exec .hpdLoss s = .next t ∧ rdFld t DPO_STAT 6 0 = 0 ∧ rdBit t DPO_EVT 0 = true ∧
        (rdBit s DPO_STAT 1 = true → rdBit t DPO_EVT 3 = true) ∧ sameElse s t [DPO_STAT.addr, DPO_EVT.addr] ∧ keepsStores s t) ∧
      (∃ t, exec (.irqHpd false) s = .next t ∧ rdBit t DPO_EVT 1 = true ∧ sameElse s t [DPO_EVT.addr] ∧ keepsStores s t) ∧
      (rdBit s DPO_CTL 0 = true → ∃ t, exec (.irqHpd true) s = .next t ∧ rdBit t DPO_EVT 1 = true ∧ rdFld t DPO_STAT 6 1 = 0 ∧
        rd t DPO_TRAIN_CNT = satInc (rd s DPO_TRAIN_CNT) ∧ keepsStores s t) ∧
      (∀ r : Fin 4, rdBit s DPO_CTL 0 = true → rdFld s DPO_STAT 6 1 = 0 → r.val ≤ dpMaxRate s →
        ∃ t, exec (.dpTrainingDone r) s = .next t ∧ rdFld t DPO_STAT 3 2 = r.val ∧ rdBit t DPO_STAT 1 = (r.val != 0) ∧ keepsStores s t ∧
          (let mode := rdFld s DPO_CANVAS 1 0
           let ten := dpCarries mode r.val false && !rdBit s DPO_CTL 1
           rdBit t DPO_STAT 6 = (ten || dpCarries mode r.val true) ∧
           ((ten || dpCarries mode r.val true) = true → rdBit t DPO_STAT 4 = !ten ∧ t.out = .dpVideo r.val (!ten) :: s.out) ∧
           ((ten || dpCarries mode r.val true) = false → r.val = 0 ∨ mode ≠ 0 → rdBit t DPO_STAT 5 = true ∧ rdBit t DPO_EVT 4 = true)))) ∧
    (∀ v : Word, tbit v 0 = false →
      ∃ t, exec (.dpoCtlWrite v) s = .next t ∧ rd t DPO_CTL = v &&& 0xF ∧ rdFld t DPO_STAT 6 1 = 0 ∧
        rdBit t DPO_STAT 0 = rdBit s DPO_STAT 0 ∧ sameElse s t [DPO_CTL.addr, DPO_STAT.addr] ∧ keepsStores s t) ∧
    (∀ v : Word, tbit v 0 = true → rdBit s DPO_STAT 0 = true → rd s DPO_CTL ≠ v &&& 0xF →
      ∃ t, exec (.dpoCtlWrite v) s = .next t ∧ rd t DPO_CTL = v &&& 0xF ∧ rd t DPO_TRAIN_CNT = satInc (rd s DPO_TRAIN_CNT) ∧ keepsStores s t)

/-- Every block a serial port forms holds 48 sample times; in it a muted channel, a channel the mask disables and every
channel of a port that is not locked is 0. A block takes 49 samples from a fill over 80, 47 from one under 48 and 48
otherwise; of 49 the sample removed, and of 47 the sample repeated, is the one with the lowest index among those of
least score over the indices that R248 names. (R247, R248, R252, R253, R254, R255) -/
def Obligations.SerialPortBlocks : Prop :=
  (∀ (s : State) (p : Nat), (portBlock s p).2.length = 48 ∧
    ∀ x ∈ (portBlock s p).2, ∀ c < 16,
      x.2.getLsbD c = true ∨ (apMask s p).getLsbD c = false ∨ apState s p ≠ 2 → x.1.getD c 0 = 0) ∧
  (∀ f : Nat, takeCount f = (if f > 64 + 16 then 49 else if f < 64 - 16 then 47 else 48)) ∧
  (∀ (mask : BitVec 16) (xs : List (AudioFrame × Bool)) (hi : Nat), 1 ≤ hi →
    let sc := fun i => score mask ((xs.getD i ([], false)).1)
    1 ≤ slipPoint mask hi xs ∧ slipPoint mask hi xs ≤ hi ∧
      ∀ j, 1 ≤ j → j ≤ hi → sc (slipPoint mask hi xs) ≤ sc j ∧ (j < slipPoint mask hi xs → sc (slipPoint mask hi xs) < sc j)) ∧
  (∀ (mask : BitVec 16) (xs : List (AudioFrame × Bool)),
    (xs.length = 49 → slipped mask xs = xs.eraseIdx (slipPoint mask 47 xs)) ∧
    (xs.length = 48 → slipped mask xs = xs) ∧
    (xs.length = 47 →
      let i := slipPoint mask 45 xs
      slipped mask xs = xs.take (i + 1) ++ [xs.getD i ([], false)] ++ xs.drop (i + 1)))

/-- On a running device: AP_LOCK of an unlocked port whose lock count is reached makes it locked, empties its FIFO and
sets EVT.LOCK; AP_UNLOCK of a locked port whose unlock count is reached makes it unlocked and counts LOCK_LOSS;
SERIAL_AUDIO_FRAME_RX of an assigned port counts the frame as good or bad and received, and a locked port's FIFO takes
its samples; each period of 1,000 grid blocks ends once, in order, when its last block has passed; that of a port
locked throughout writes RATE_PPM, and beyond 48 samples a locked port enters RELOCK, within them one in RELOCK locks
again. AUDIO_PACKET_RX of an assigned flow counts late and duplicate positions and keeps the others. AUDIO_AU_ENCODED
of a programme whose unit's blocks have closed counts AU_CNT and queues what the encoder makes of the unit's samples
for every stream that carries the programme. AUDIO_BLOCK acts at the next grid block due and at no other. (R243, R247,
R248, R249, R251, R257, R258) -/
def Obligations.AudioCommands : Prop :=
  (∀ (p : Nat) (s : State), runs s → p < 8 → p < s.aps.length →
    (apState s p = 1 → lockReached s p = true →
      ∃ t, exec (.apLock p) s = .next t ∧ apState t p = 2 ∧ rdBit t (AP_EVT p) 0 = true ∧ (apOf t p).fifo = [] ∧ (apOf t p).silent = true ∧
        sameElse s t [(AP_STAT p).addr, (AP_EVT p).addr] ∧ keepsStores s t) ∧
    (apState s p = 2 ∨ apState s p = 3 → unlockReached s p = true →
      ∃ t, exec (.apUnlock p) s = .next t ∧ apState t p = 1 ∧ rdBit t (AP_EVT p) 1 = true ∧ (apOf t p).fifo = [] ∧
        rd t (AP_LOCK_LOSS p) = satInc (rd s (AP_LOCK_LOSS p)) ∧
        sameElse s t [(AP_STAT p).addr, (AP_EVT p).addr, (AP_LOCK_LOSS p).addr] ∧ keepsStores s t) ∧
    (∀ (valid z na : Bool) (slots : List (BitVec 32)), apAssigned s p = true →
      let xs := slots.map (slotSample (apMode s p) (rdFld s (AP_CFG p) 9 8))
      ∃ t, exec (.serialAudioFrameRx p valid z slots na) s = .next t ∧ (apOf t p).good = (if valid then (apOf s p).good + 1 else 0) ∧
        (apOf t p).bad = (if valid then 0 else (apOf s p).bad + 1) ∧ (apOf t p).received = (apOf s p).received + 1 ∧
        (apState s p ≠ 2 → apState s p ≠ 3 → (apOf t p).fifo = (apOf s p).fifo) ∧
        (apState s p = 2 ∨ apState s p = 3 → (apOf s p).fifo.length < 256 → (apOf t p).fifo = (apOf s p).fifo ++ [(xs, na)]) ∧
        (apState s p = 2 ∨ apState s p = 3 → (apOf s p).fifo.length = 256 → (apOf t p).fifo.length = 256) ∧
        t.regs = s.regs ∧ keepsStores s t) ∧
    (∀ (valid z na : Bool) (slots : List (BitVec 32)), apAssigned s p = false →
      exec (.serialAudioFrameRx p valid z slots na) s = .next s) ∧
    (reached s (blockTime (rdBit s (AP_CFG p) 2) (1000 * ((apOf s p).period + 1))) = false ∨ apAssigned s p = false →
      exec (.ratePeriodEnd p) s = .next s) ∧
    (apAssigned s p = true → reached s (blockTime (rdBit s (AP_CFG p) 2) (1000 * ((apOf s p).period + 1))) = true →
      (apOf s p).lockedAll = false →
      ∃ t, exec (.ratePeriodEnd p) s = .next t ∧ (apOf t p).period = (apOf s p).period + 1 ∧ (apOf t p).received = 0 ∧
        (apOf t p).lockedAll = decide (apState s p = 2 ∨ apState s p = 3) ∧ sameElse s t [] ∧ keepsStores s t) ∧
    (apAssigned s p = true → (apOf s p).lockedAll = true →
      reached s (blockTime (rdBit s (AP_CFG p) 2) (1000 * ((apOf s p).period + 1))) = true →
      let d : Int := (apOf s p).received - 48000
      ∃ t, exec (.ratePeriodEnd p) s = .next t ∧ rd t (AP_RATE_PPM p) = BitVec.ofInt 32 ((d * 125).tdiv 6) ∧
        (apOf t p).period = (apOf s p).period + 1 ∧ (apOf t p).received = 0 ∧ keepsStores s t ∧
        (apState s p = 2 → 48 < d.natAbs → apState t p = 3 ∧ rdBit t (AP_EVT p) 2 = true ∧
          rd t (AP_RELOCK_CNT p) = satInc (rd s (AP_RELOCK_CNT p))) ∧
        (apState s p = 2 → d.natAbs ≤ 48 → apState t p = 2 ∧ (apOf t p).fifo = (apOf s p).fifo ∧ sameElse s t [(AP_RATE_PPM p).addr]) ∧
        (apState s p = 3 → 48 < d.natAbs → apState t p = 3 ∧ rdBit t (AP_EVT p) 2 = true ∧
          rd t (AP_RELOCK_CNT p) = rd s (AP_RELOCK_CNT p)) ∧
        (apState s p = 3 → d.natAbs ≤ 48 → apState t p = 2 ∧ (apOf t p).fifo = [] ∧ (apOf t p).silent = true))) ∧
  (∀ (f : Nat) (x : AudioPacket) (s : State), runs s → f < 32 → f < s.nfs.length →
    (nfAssigned s f = false → exec (.audioPacketRx f x) s = .next s) ∧
    (nfAssigned s f = true →
      let ps := (x.samples.zipIdx).map (fun (v : AudioFrame × Nat) => ((nfPosition s f x.ts + v.2).toNat, v.1, x.nonAudio.getD v.2 0))
      let late := fun (q : Nat) => ((nfOf s f).closed.map (fun c => decide (q / 48 ≤ c))).getD false
      let dup := fun (q : Nat) => (nfOf s f).got.any (fun g => g.1 = q)
      ∃ t, exec (.audioPacketRx f x) s = .next t ∧
        (nfOf t f).got = (nfOf s f).got ++ ps.filter (fun q => !late q.1 && !dup q.1) ∧
        rd t (NF_LATE_PKT f) = (if ps.any (fun q => late q.1) then satInc (rd s (NF_LATE_PKT f)) else rd s (NF_LATE_PKT f)) ∧
        rd t (NF_DUP_PKT f) =
          (if ps.any (fun q => !late q.1 && dup q.1) then satInc (rd s (NF_DUP_PKT f)) else rd s (NF_DUP_PKT f)) ∧
        (rdFld s (NF_STAT f) 1 0 = 1 → rdFld t (NF_STAT f) 1 0 = 2) ∧
        sameElse s t [(NF_LATE_PKT f).addr, (NF_DUP_PKT f).addr, (NF_STAT f).addr, (NF_EVT f).addr] ∧ keepsStores s t)) ∧
  (∀ (g n : Nat) (p : PrgPlan) (c : ChannelPlan) (j b : Nat) (s : State), runs s → g < 32 →
    g < s.prgs.length → (prgOf s g).plan = some (n, p) → nextAuOf s g = some j → s.lastBlock48 = some b → (chan s n).plan = some c →
    1 ≤ p.codec → p.codec ≤ 3 → auLength p * (j + 1) ≤ 48 * b →
    let au := Config.encodeAudio p (prgOf s g).encState (programmeRun s p (auLength p * j) (auLength p)).1
    ∃ t, exec (.audioAuEncoded g) s = .next t ∧ rd t (PRG_AU_CNT g) = rd s (PRG_AU_CNT g) + 1 ∧
      (prgOf t g).nextAu = some (j + 1) ∧ (prgOf t g).encState = au.2 ∧ (prgOf t g).auCrc = crc32c au.1 ∧
      sameElse s t [(PRG_AU_CNT g).addr, (PRG_ENC_LATE g).addr, (PRG_MUTED_AU g).addr] ∧ keepsStores s t ∧
      (∀ (i : Nat) (st : StreamSt), (programmeStreams s n g p).Nodup → i ∈ programmeStreams s n g p → streamOf s i = some st →
        ∃ st' : StreamSt, streamOf t i = some st' ∧
          st'.audio = st.audio ++ [{ t := sampleTime p.rate96 (auLength p * j)
                                     launch := auLaunch c p (sampleTime p.rate96 (auLength p * j)), bytes := au.1
                                     pos := auLength p * j, idx := programmeIndex s n g, prg := p, plan := c
                                     slice := (chan s n).sliceSeq }])) ∧
  (∀ (r96 : Bool) (s : State), runs s →
    (dueBlock s r96 (if r96 then s.lastBlock96 else s.lastBlock48) = none → exec (.audioBlock r96) s = .next s) ∧
    (∀ b, dueBlock s r96 (if r96 then s.lastBlock96 else s.lastBlock48) = some b →
      ∃ t, exec (.audioBlock r96) s = .next t ∧ (if r96 then t.lastBlock96 else t.lastBlock48) = some b ∧
        t.regs = (gridBlock s r96 b).regs ∧ t.aps = (gridBlock s r96 b).aps ∧ t.nfs = (gridBlock s r96 b).nfs ∧ keepsStores s t)) ∧
  (∀ (s : State) (p b : Nat), role s = 0 → p < s.aps.length →
    ∃ bs, (apOf (formBlock s p b) p).blocks = bs ++ [(b, (portBlock (applyMask s p (blockTime (rdBit s (AP_CFG p) 2) b)) p).2)] ∧
      rd64 (formBlock s p b) (AP_BLOCK_LO p) (AP_BLOCK_HI p) = b % 2 ^ 64)

/-- On a running device: UNIT_PACKAGED of a stream whose next unit in launch order is a sized picture packages it; where
the share can take it beside what it holds, one unit is appended with the next unit sequence, the frame's TS packets
or chunk, their CRC-32C and the frame's launch time, and the unit sequence and the RTP number move on by one and by
its datagrams; an audio unit at the head likewise; a picture not sized yet, or no unit, leaves the device as it is.
DATAGRAM_LAUNCH sends the live datagram due with its headers, counts DGRAMS and TX_FRAMES and its lateness, and moves
the stream's RTP number on by one; with a paired device not driving BW_HOLD it does nothing; with no live and no host
datagram due it serves a re-send with the command's addresses and leaves the streams as they are, and ends one whose
unit is gone with 0x04. HOST_EGRESS_LAUNCH sends the host packet due where no live datagram is due. RETENTION_FETCH of
an undefined stream finishes with 0x01, of a unit not held with 0x02, else the fetch runs; RETENTION_FETCH_DONE writes
the units in order and finishes the oldest running fetch. RESEND is refused with 0x01, 0x02 or 0x06 as R289 states,
else runs. (R270, R279, R280, R287, R288, R289, R302, R434) -/
def Obligations.EgressUnitsAndLaunches : Prop :=
  (∀ (i : Nat) (s : State) (st : StreamSt), runs s → i < 1024 → streamOf s i = some st →
    let old := rd64 s (STR_UNIT_NEXT_LO i) (STR_UNIT_NEXT_HI i)
    (∀ (f : FrameSt) (r : RendPlan) (p : RendPic), videoFirst s i = true →
      oldestPic s (i / 64) (i % 64) (fun p => !p.packaged) = some (f, r, p) → p.sized = true → noticeIn s (i / 64) f = true →
      let d := streamDef s st (oldPicture s i f)
      let m := videoMade s st d f r p old
      exec (.unitPackaged i) s = .next (keepStores s (packVideo s i f r p)) ∧
      (oldPicture s i f = false → (st.held.foldl (fun a v => a + v.bytes.length) 0) + m.bytes.length ≤ st.share →
        ∃ t st' v, exec (.unitPackaged i) s = .next t ∧ streamOf t i = some st' ∧ st'.held = st.held ++ [v] ∧ v.seq = old ∧
          v.bytes = (if d.form = 1 ∨ d.form = 2 then
              (numberTs d.cc (videoTs f r p (psiDue d.psiG f) (st.head f.sliceSeq).version)).1 else videoChunk f r p old) ∧
          v.crc = crc32c v.bytes ∧ v.launch = f.launch ∧ v.frame = some (f.j, f.k) ∧ v.dead = false ∧ v.acked = 0 ∧ v.sent = ackedOf st old v.nDgrams ∧ v.net = r.net ∧
          v.ptime = f.g + f.presentOffset ∧
          v.nDgrams = datagramCount d.form v.bytes.length (if d.form = 3 ∧ f.idr then (st.head f.sliceSeq).init.length else 0) ∧
          rd64 t (STR_UNIT_NEXT_LO i) (STR_UNIT_NEXT_HI i) = (old + 1) % 2 ^ 64 ∧
          st'.cc = m.cc ∧ st'.psiG = (if (d.form = 1 ∨ d.form = 2) ∧ psiDue d.psiG f then some f.g else d.psiG) ∧
          st'.seqNext = (if formRtp d.form then st.seqNext + BitVec.ofNat 16 v.nDgrams else st.seqNext) ∧ keepsStores s t)) ∧
    (∀ (x : AudioUnit) (rest : List AudioUnit), videoFirst s i = false → st.audio = x :: rest → audioReady s i x.t = true →
      let m := audioMade s i st (streamDef s st (oldSound s i)) x
      exec (.unitPackaged i) s = .next (keepStores s (packAudio s i x)) ∧
      (oldSound s i = false → (st.held.foldl (fun b v => b + v.bytes.length) 0) + m.bytes.length ≤ st.share →
        ∃ t st' v, exec (.unitPackaged i) s = .next t ∧ streamOf t i = some st' ∧ st'.held = st.held ++ [v] ∧ st'.audio = rest ∧
          v.seq = old ∧ v.bytes = m.bytes ∧ v.crc = crc32c m.bytes ∧ v.launch = x.launch ∧ v.frame = none ∧
          (strForm s st.id = 5 → 40 ≤ i % 64 → v.bytes = x.bytes ∧ v.rtpTs = some (wordOf x.pos) ∧ v.nDgrams = 1) ∧
          rd64 t (STR_UNIT_NEXT_LO i) (STR_UNIT_NEXT_HI i) = (old + 1) % 2 ^ 64 ∧ keepsStores s t)) ∧
    (∀ (f : FrameSt) (r : RendPlan) (p : RendPic), videoFirst s i = true →
      oldestPic s (i / 64) (i % 64) (fun p => !p.packaged) = some (f, r, p) → p.sized = false ∨ noticeIn s (i / 64) f = false →
      exec (.unitPackaged i) s = .next s) ∧
    (videoFirst s i = false → st.audio = [] → exec (.unitPackaged i) s = .next s)) ∧
  (∀ (p : Nat) (s : State), runs s → p < 24 →
    (isPaired s = true → holdDrive s = false → exec (.datagramLaunch p) s = .next s) ∧
    (∀ d : Due, dueLive s p = some d → d.stream < 1024 →
      let i := d.stream
      let late := nowN s - d.at_
      exec (.datagramLaunch p) s = .next (keepStores s (launchLive s p d)) ∧
      (∃ t, exec (.datagramLaunch p) s = .next t ∧ rd t (STR_DGRAMS i) = rd s (STR_DGRAMS i) + 1 ∧
        rd t (P_TX_FRAMES p) = rd s (P_TX_FRAMES p) + 1 ∧
        (rd t (STR_MAX_LATE i)).toNat = min (2 ^ 32 - 1) (max (rd s (STR_MAX_LATE i)).toNat late.toNat) ∧
        rd t (STR_PACE_LATE i) = (if 2000 < late then satInc (rd s (STR_PACE_LATE i)) else rd s (STR_PACE_LATE i)) ∧
        (2000 < late → rdBit t (EGR_CH_EVT (i / 64)) 1 = true) ∧
        sameElse s t [(STR_DGRAMS i).addr, (P_TX_FRAMES p).addr, (STR_MAX_LATE i).addr, (STR_PACE_LATE i).addr,
          (EGR_CH_EVT (i / 64)).addr, (STR_BYTES_LO i).addr, (STR_BYTES_HI i).addr] ∧ keepsStores s t ∧
        (∀ st : StreamSt, streamOf s i = some st → formRtp d.item.form = true → (d.item.fresh && d.item.sent == 0) = false →
          t.out = .datagram p i d.item.seq d.item.sent d.at_ (some st.outSeq) (some (datagramTs d.item d.item.sent))
            (datagramWire d.item d.item.net d.item.sent d.item.nDgrams st.outSeq (datagramTs d.item d.item.sent)) :: s.out ∧
          ∃ st', streamOf t i = some st' ∧ st'.outSeq = st.outSeq + 1))) ∧
    (∀ (j : ResendJob) (u : RetUnit), dueLive s p = none → dueHost s p = none → dueResend s p = some j → resendUnit s j = some u →
      exec (.datagramLaunch p) s = .next (keepStores s (launchResend s p j)) ∧
      ∃ t, exec (.datagramLaunch p) s = .next t ∧ t.streams = s.streams ∧ keepsStores s t ∧
        t.out = .resent p j.stream u.seq j.dgram j.seq (datagramWire u { resendNet u.net p j.dest j.udp with ssrc := j.ssrc } j.dgram
          (resendCount u) j.seq (datagramTs u j.dgram)) :: s.out) ∧
    (∀ j : ResendJob, dueLive s p = none → dueHost s p = none → dueResend s p = some j → resendUnit s j = none →
      exec (.datagramLaunch p) s = .next (keepStores s (endResend s j 0x04))) ∧
    (∀ k : HostPkt, dueLive s p = none → dueHost s p = some k → k.q < 32768 → p < s.ports.length →
      ∃ t, exec (.hostEgressLaunch p) s = .next t ∧ t.out = .hostPacket p k.q k.id (k.bytes ++ wordBytes (crcOf 0 k.bytes)) :: s.out ∧
        (portOf t p).hostQ = (portOf s p).hostQ.erase k ∧ rd t (P_TX_FRAMES p) = rd s (P_TX_FRAMES p) + 1 ∧
        rd t (TXP_HQ_LATE p) =
          (if k.past || (!k.now && decide (hostDiff s k < -2000)) then satInc (rd s (TXP_HQ_LATE p)) else rd s (TXP_HQ_LATE p)) ∧
        keepsStores s t) ∧
    (dueLive s p ≠ none → exec (.hostEgressLaunch p) s = .next s)) ∧
  (∀ (held : List RetUnit) (index : Bool) (seq room cnt : Nat),
    let r := fetchUnits held index seq room cnt
    r.1.length ≤ cnt ∧ (∀ k (h : k < r.1.length), (r.1[k]).seq = seq + k ∧ r.1[k] ∈ held) ∧
      (r.1.map (fun u => (fetchBytes index u).length)).sum ≤ room ∧ (r.2 = 0 ↔ r.1.length = cnt)) ∧
  (∀ (q : Nat) (o : Outst) (s : State), runs s → q < 32768 → nextUnhanded s q = some o → o.opcode = 7 →
    let p := o.payload.getD []
    let h := markHanded s q o.slot
    (strDefined h (leAt p 0 2) = false →
      exec (.retentionFetch q) s = .next (keepStores s (finish (count h EGR_FETCH_CNT) q o.slot 0x01 (fetchResult h (leAt p 0 2) 0 0)))) ∧
    (strDefined h (leAt p 0 2) = true → unitHeld h (leAt p 0 2) (leAt p 8 8) = false →
      exec (.retentionFetch q) s = .next (keepStores s (finish (count h EGR_FETCH_CNT) q o.slot 0x02 (fetchResult h (leAt p 0 2) 0 0)))) ∧
    (strDefined h (leAt p 0 2) = true → unitHeld h (leAt p 0 2) (leAt p 8 8) = true →
      exec (.retentionFetch q) s = .next (keepStores s h))) ∧
  (∀ (q copied : Nat) (dma : Bool) (o : Outst) (s : State), runs s → q < 32768 →
    (queueSt s q).outst.find? (fun o => o.opcode = 7 && o.handed && o.done.isNone) = some o →
    let p := o.payload.getD []
    let i := leAt p 0 2
    let index : Bool := leAt p 20 4 % 2 = 1
    let r := fetchUnits (((streamOf s i).map (fun st => st.held)).getD []) index (leAt p 8 8) (leAt p 32 8) (leAt p 16 4)
    let us := if dma then r.1.take copied else r.1
    let bs := (us.map (fetchBytes index)).flatten
    i < 1024 →
    ∃ t, exec (.retentionFetchDone q copied dma) s = .next t ∧ rd t EGR_FETCH_CNT = satInc (rd s EGR_FETCH_CNT) ∧
      (us ≠ [] → o.dead = false → t.out.head? = some (.hostWrite (leAt p 24 8) bs)) ∧
      (∃ o' ∈ (queueSt t q).outst, o'.slot = o.slot ∧
        o'.done = some (BitVec.ofNat 8 (if dma then 0x05 else r.2), padTo 24 (fetchResult s i us.length bs.length))) ∧
      keepsStores s t) ∧
  (∀ (q : Nat) (o : Outst) (s : State), runs s → q < 32768 → nextUnhanded s q = some o → o.opcode = 8 →
    let p := o.payload.getD []
    let h := markHanded s q o.slot
    (strDefined h (leAt p 0 2) = false → exec (.resend q) s = .next (keepStores s (finish h q o.slot 0x01 (leBytes 4 0)))) ∧
    (strDefined h (leAt p 0 2) = true → unitHeld h (leAt p 0 2) (leAt p 8 8) = false →
      exec (.resend q) s = .next (keepStores s (finish h q o.slot 0x02 (leBytes 4 0)))) ∧
    (strDefined h (leAt p 0 2) = true → unitHeld h (leAt p 0 2) (leAt p 8 8) = true → 16 ≤ s.resends.length →
      exec (.resend q) s = .next (keepStores s (finish h q o.slot 0x06 (leBytes 4 0)))) ∧
    (strDefined h (leAt p 0 2) = true → unitHeld h (leAt p 0 2) (leAt p 8 8) = true → s.resends.length < 16 →
      ∃ t j, exec (.resend q) s = .next t ∧ t.resends = s.resends ++ [j] ∧ rdFld t EGR_RESEND_ACT 4 0 = s.resends.length + 1 ∧
        j.stream = leAt p 0 2 ∧ j.next = leAt p 8 8 ∧ j.left = leAt p 4 4 ∧ j.due = s.raw ∧ j.rate = leAt p 40 8 ∧ j.ssrc = wordOf (leAt p 36 4) ∧ j.port = leAt p 2 1 ∧ t.streams = s.streams ∧ keepsStores s t))

/-- A rebase at tick r leaves the corrected time of every tick r' unchanged whose distance from the old anchor is the sum
of its distance from r and r's from the old anchor, and it leaves SUB below 2^16 and RES below 5 x 2^40. Under one set
with a rate above -1 the corrected time of a tick further from the anchor is not less. (R295, R297) -/
def Obligations.CorrectedTimeIsContinuous : Prop :=
  (∀ (t : TimeSet) (r r' : Raw), sdiff r' t.anchor = sdiff r t.anchor + sdiff r' r →
    t16Of (rebasedSet t r) r' = t16Of t r') ∧
  (∀ (t : TimeSet) (r : Raw), (rebasedSet t r).anchor = r ∧ (rebasedSet t r).rate = t.rate ∧ (rebasedSet t r).sub < 65536 ∧
    (rebasedSet t r).res < 5 * 2 ^ 40) ∧
  (∀ (t : TimeSet) (r r' : Raw), -(2 ^ 40) ≤ t.rate → sdiff r t.anchor ≤ sdiff r' t.anchor → t16Of t r ≤ t16Of t r')

/-- On a running device: an adjustment by the master that is not the servo is only counted in ADJ_REJ; one the time block
refuses leaves the set in force as it is, reports its code and tag, counts ADJ_REJ and sets EVT.ADJ_REFUSED, OP 0
among them; an accepted SET, STEP and RATE change the set as R298's table says, after the rebase where one is due at
that tick. REBASE acts at a distance of 2^46 ticks and at no other. SNAP_READ returns the raw counter and latches the
time of that tick. CMP_FIRE of an enabled comparator that has come sets its event and ends a one-shot or moves a
periodic target to its first place in the future, unless one of an earlier target is due too. PTP_RX counts a message
that matches and hands its record to the queue. TXTS_READ removes the oldest stamp. REF_STOP, REF_GLITCH and
REF_WINDOW_END move the reference's state as R310 and R311 say; the window in which a stop or a glitch fell is bad.
(R296, R297, R298, R299, R302, R304, R306, R307, R309, R310, R311, R494) -/
def Obligations.TimeBlockCommands : Prop :=
  (∀ (m : Master) (tag : Byte) (s : State), runs s → ownsServo s m = false →
    ∀ c ∈ [Instr.adjSet m tag, .adjStep m tag, .adjRate m tag, .adjOpZero m tag],
      ∃ t, exec c s = .next t ∧ rd t TIM_ADJ_REJ = satInc (rd s TIM_ADJ_REJ) ∧ sameElse s t [TIM_ADJ_REJ.addr] ∧ keepsStores s t) ∧
  (∀ (m : Master) (tag : Byte) (s : State), runs s → ownsServo s m = true →
    let refused := fun (c : Instr) (code : Nat) =>
      ∃ t, exec c s = .next t ∧ timeSet t = timeSet s ∧ rdFld t TIM_ADJ_STAT 7 0 = code ∧ rdFld t TIM_ADJ_STAT 15 8 = tag.toNat ∧
        rd t TIM_ADJ_REJ = satInc (rd s TIM_ADJ_REJ) ∧ rdBit t TIM_EVT 12 = true ∧
        sameElse s t [TIM_ADJ_STAT.addr, TIM_ADJ_REJ.addr, TIM_EVT.addr] ∧ keepsStores s t
    let accepted := fun (c : Instr) (want : TimeSet) (cnt : Reg) =>
      ∃ t, exec c s = .next t ∧ timeSet t = want ∧ rdFld t TIM_ADJ_STAT 7 0 = 0 ∧ rdFld t TIM_ADJ_STAT 15 8 = tag.toNat ∧
        rd t TIM_ADJ_REJ = rd s TIM_ADJ_REJ ∧ rdBit t TIM_EVT 11 = true ∧ rd t cnt = satInc (rd s cnt) ∧
        rd t TIM_REBASE_CNT = (if cnt = TIM_REBASE_CNT ∨ 2 ^ 46 ≤ sdiff s.raw (timeSet s).anchor then satInc (rd s TIM_REBASE_CNT)
          else rd s TIM_REBASE_CNT) ∧ keepsStores s t
    let old := timeSet s
    let based := rebasedSet old s.raw
    let stepped := if 2 ^ 46 ≤ sdiff s.raw old.anchor then based else old
    (adjVal s m < 0 → refused (.adjSet m tag) 1) ∧
    (0 ≤ adjVal s m → anyRunning s = true → refused (.adjSet m tag) 2) ∧
    (0 ≤ adjVal s m → anyRunning s = false →
      accepted (.adjSet m tag) { offset := adjVal s m, sub := adjSub s m, anchor := s.raw, res := 0, rate := old.rate } TIM_STEP_CNT ∧
      ∃ t, exec (.adjSet m tag) s = .next t ∧ rdBit t TIM_STAT 0 = true) ∧
    (1000 < (adjVal s m).natAbs → anyRunning s = true → refused (.adjStep m tag) 2) ∧
    ((adjVal s m).natAbs ≤ 1000 ∨ anyRunning s = false →
      accepted (.adjStep m tag) { stepped with offset := (BitVec.ofInt 64 (stepped.offset + adjVal s m)).toInt } TIM_STEP_CNT) ∧
    (549755813 < (adjRateVal s m).natAbs → refused (.adjRate m tag) 3) ∧
    ((adjRateVal s m).natAbs ≤ 549755813 →
      accepted (.adjRate m tag) { based with offset := (BitVec.ofInt 64 based.offset).toInt, rate := adjRateVal s m } TIM_REBASE_CNT) ∧
    refused (.adjOpZero m tag) 4) ∧
  (∀ s : State, runs s →
    (sdiff s.raw (timeSet s).anchor < 2 ^ 46 → exec .rebase s = .next s) ∧
    (2 ^ 46 ≤ sdiff s.raw (timeSet s).anchor →
      ∃ t, exec .rebase s = .next t ∧ rd t TIM_REBASE_CNT = satInc (rd s TIM_REBASE_CNT) ∧
        timeSet t = { rebasedSet (timeSet s) s.raw with offset := (BitVec.ofInt 64 (rebasedSet (timeSet s) s.raw).offset).toInt } ∧
        keepsStores s t)) ∧
  (∀ (m : Master) (s : State), runs s →
    let f := ptpForm (t16 s)
    ∃ t, exec (.snapRead m) s = .next t ∧ t.out = .read m (wordOf s.raw.toNat) :: s.out ∧ t.regs = s.regs ∧
      mget t.latches (latchKey m TIM_SNAP_RAW_HI) = some (mkWord [(15, 0, s.raw.toNat / 2 ^ 32), (31, 16, f.2.2)]) ∧
      mget t.latches (latchKey m TIM_SNAP_NS) = some (wordOf f.2.1) ∧ mget t.latches (latchKey m TIM_SNAP_SEC_LO) = some (wordOf f.1) ∧
      mget t.latches (latchKey m TIM_SNAP_SEC_HI) = some (wordOf (f.1 / 2 ^ 32 % 65536)) ∧ keepsStores s t) ∧
  (∀ (i : Nat) (s : State), runs s → i < 8 →
    let x := cmpTarget s i
    let per := (rd s (TIM_CMP_PER i)).toNat
    (rdBit s (TIM_CMP_CTL i) 0 = false ∨ reached s x = false → exec (.cmpFire i) s = .next s) ∧
    (∀ k < 8, rdBit s (TIM_CMP_CTL k) 0 = true → reached s (cmpTarget s k) = true → cmpTarget s k < x →
      exec (.cmpFire i) s = .next s) ∧
    (rdBit s (TIM_CMP_CTL i) 0 = true → reached s x = true →
      (∀ k < 8, rdBit s (TIM_CMP_CTL k) 0 = true → reached s (cmpTarget s k) = true → x ≤ cmpTarget s k) →
      (per = 0 → ∃ t, exec (.cmpFire i) s = .next t ∧ rdBit t TIM_EVT i = true ∧ rdBit t (TIM_CMP_CTL i) 0 = false ∧
        sameElse s t [TIM_EVT.addr, (TIM_CMP_CTL i).addr] ∧ keepsStores s t) ∧
      (0 < per → x ≤ nowN s → nowN s - x < 2 ^ 63 → nowN s + per < 2 ^ 63 →
        ∃ t, exec (.cmpFire i) s = .next t ∧ rdBit t TIM_EVT i = true ∧ rdBit t (TIM_CMP_CTL i) 0 = true ∧
          nowN s < cmpTarget t i ∧ cmpTarget t i - per ≤ nowN s ∧ (cmpTarget t i - x) % per = 0 ∧
          rdFld t (TIM_CMP_CTL i) 15 8 = min 255 (rdFld s (TIM_CMP_CTL i) 15 8 + (nowN s - x).toNat / per) ∧ keepsStores s t))) ∧
  (∀ (p : Nat) (m : PtpMsg) (s : State), runs s → p < 24 →
    (ptpMatches s p m = false → exec (.ptpRx p m) s = .next s) ∧
    (ptpMatches s p m = true →
      let bs := ptpRecord s p m (s.raw - BitVec.ofNat 48 (latencyTicks s (rd s (TXP_LAT_RX p)).toNat))
      let h := count { s with free := s.free + 1 } TIM_PTP_RX_CNT
      let r := putRecord h (rdFld s TIM_PTP_CTL 14 0) bs
      (rdBit s TIM_PTP_CTL 15 = false → exec (.ptpRx p m) s = .next h) ∧
      (rdBit s TIM_PTP_CTL 15 = true → r.2 = true → exec (.ptpRx p m) s = .next (keepStores s r.1)) ∧
      (rdBit s TIM_PTP_CTL 15 = true → r.2 = false →
        ∃ t, exec (.ptpRx p m) s = .next t ∧ rd t TIM_PTP_RX_DROP = satInc (rd s TIM_PTP_RX_DROP) ∧ rdBit t TIM_EVT 15 = true ∧
          rd t TIM_PTP_RX_CNT = satInc (rd s TIM_PTP_RX_CNT) ∧ t.out = s.out ∧ keepsStores s t))) ∧
  (∀ (m : Master) (p : Nat) (s : State), runs s → p < 24 → p < s.ports.length →
    ((portOf s p).txts = [] → exec (.txtsRead m p) s = .next { s with out := .read m 0 :: s.out }) ∧
    (∀ e es, (portOf s p).txts = e :: es → es.length < 64 →
      ∃ t, exec (.txtsRead m p) s = .next t ∧ t.out = .read m (e.getD 0 0) :: s.out ∧ (portOf t p).txts = es ∧
        rdFld t (TXP_TXTS_STAT p) 6 0 = es.length ∧ mget t.latches (latchKey m (TXP_TXTS_W1 p)) = some (e.getD 1 0) ∧
        mget t.latches (latchKey m (TXP_TXTS_W2 p)) = some (e.getD 2 0) ∧ mget t.latches (latchKey m (TXP_TXTS_W3 p)) = some (e.getD 3 0) ∧
        sameElse s t [(TXP_TXTS_STAT p).addr] ∧ keepsStores s t)) ∧
  (∀ (edges pct : Nat) (g : Bool) (s : State), runs s →
    let good : Bool := decide (((edges : Int) - 100000).natAbs ≤ 10) && !g && !s.refMark
    let k := min 255 (rdFld s TIM_REF_STAT 15 8 + 1)
    let held := fun (c : Instr) =>
      ∃ t, exec c s = .next t ∧ rdBit t TIM_STAT 1 = true ∧ rdFld t TIM_REF_STAT 1 0 = 3 ∧ rdFld t TIM_REF_STAT 15 8 = 0 ∧
        rd t TIM_HOLD_CNT = satInc (rd s TIM_HOLD_CNT) ∧ rdBit t TIM_EVT 8 = true ∧ keepsStores s t
    let out := fun (c : Instr) =>
      ∃ t, exec c s = .next t ∧ rdFld t TIM_REF_STAT 1 0 = (if rdFld s TIM_REF_STAT 1 0 = 0 then 0 else 3) ∧
        rdFld t TIM_REF_STAT 15 8 = 0 ∧ rd t TIM_HOLD_CNT = rd s TIM_HOLD_CNT ∧ rd t TIM_STAT = rd s TIM_STAT ∧ keepsStores s t
    (refInUse s = true → held .refStop ∧ held .refGlitch ∧ (good = false → held (.refWindowEnd edges g pct))) ∧
    (refInUse s = false → out .refStop ∧ out .refGlitch ∧ (good = false → out (.refWindowEnd edges g pct))) ∧
    (∃ t, exec .refGlitch s = .next t ∧ rd t TIM_GLITCH_CNT = satInc (rd s TIM_GLITCH_CNT) ∧ rdBit t TIM_EVT 10 = true ∧ t.refMark = true) ∧
    (∃ t, exec .refStop s = .next t ∧ t.refMark = true) ∧
    (∃ t, exec (.refWindowEnd edges g pct) s = .next t ∧ rd t TIM_REF_DEV = BitVec.ofInt 32 ((edges : Int) - 100000) ∧ t.refMark = false) ∧
    (good = true → refInUse s = true →
      ∃ t, exec (.refWindowEnd edges g pct) s = .next t ∧ rdFld t TIM_REF_STAT 1 0 = 2 ∧ rdFld t TIM_REF_STAT 15 8 = k ∧
        sameElse s t [TIM_REF_STAT.addr, TIM_REF_DEV.addr] ∧ keepsStores s t) ∧
    (good = true → refInUse s = false → k < 16 →
      ∃ t, exec (.refWindowEnd edges g pct) s = .next t ∧ rdFld t TIM_REF_STAT 1 0 = 1 ∧ rdFld t TIM_REF_STAT 15 8 = k ∧
        sameElse s t [TIM_REF_STAT.addr, TIM_REF_DEV.addr] ∧ keepsStores s t) ∧
    (good = true → refInUse s = false → 16 ≤ k →
      ∃ t, exec (.refWindowEnd edges g pct) s = .next t ∧ rdFld t TIM_REF_STAT 1 0 = 2 ∧ rdBit t TIM_STAT 1 = false ∧
        rdBit t TIM_EVT 9 = true ∧ (pct < 48 → rdBit t TIM_STAT 2 = true ∧ rdBit t TIM_EVT 16 = true) ∧ keepsStores s t))

/-- On a running device whose streams have IDs below 1024: an attempt that may start puts the port in AN or ALIGN;
negotiation ends in training where the highest common technology is the one the port advertises, alignment in UP where
every lane is aligned and block lock holds; each stage fails with its code, counted, with the next attempt 10 ms or,
after 16 failures in a row, 1 s later; an aligned port enters UP, counts LINK_UP_CNT and ends its run of failures. An
UP port goes down once, to DOWN, with the cause of LOS, LOL, block lock, marker lock or RETRAIN, the raw counter and
LINK_DOWN_CNT; LOS that clears last starts an attempt that waits for it. RETRAIN of a port that is not UP does
nothing, but at the tick at which a cause numbered higher has just taken the port down LAST_FAIL becomes 0x14.
ADMIN_DOWN puts the port in ADMIN and back in DOWN and counts no failure; from DOWN it takes TX_INV over. Fault
ordered sets set FAULT_RX and hold the egress of an UP port until 1 ms without them. (R318, R319, R320, R322, R323,
R324, R325, R326) -/
def Obligations.PortBringUpAndLoss : Prop :=
  ∀ (p : Nat) (s : State), runs s → p < 24 → p < s.ports.length → (∀ x ∈ s.streams, x.id < 1024) →
    let first := if rdBit s (P_PORT_CFG p) 13 then 2 else 4
    let justDown : Prop := portState s p = 1 ∧ 0x14 < rdFld s (P_PORT_STATE p) 15 8 ∧ rd s (P_LAST_DOWN_LO p) = wordOf s.raw.toNat ∧
      rdFld s (P_LAST_DOWN_HI p) 15 0 = s.raw.toNat / 2 ^ 32
    let starts := fun (c : Instr) =>
      ∃ t, exec c s = .next t ∧ portState t p = first ∧ (portOf t p).waitEnd = none ∧ (portOf t p).since = s.raw ∧
        rd t (P_AN_FAIL p) = rd s (P_AN_FAIL p) ∧ rd t (P_TRAIN_FAIL p) = rd s (P_TRAIN_FAIL p) ∧ keepsStores s t
    let fails := fun (c : Instr) (code : Nat) (cnt : Reg) (bit : Nat) =>
      ∃ t, exec c s = .next t ∧ portState t p = 1 ∧ rdFld t (P_PORT_STATE p) 15 8 = code ∧ rd t cnt = satInc (rd s cnt) ∧
        rdBit t (P_EVT p) bit = true ∧ rdFld t (P_PORT_STATE p) 20 16 = min 31 (rdFld s (P_PORT_STATE p) 20 16 + 1) ∧
        (portOf t p).waitEnd =
          some (s.raw + BitVec.ofNat 48 (if 15 ≤ rdFld s (P_PORT_STATE p) 20 16 then secTicks 1 else msTicks 10)) ∧ keepsStores s t
    let down := fun (c : Instr) (code : Nat) =>
      ∃ t, exec c s = .next t ∧ portState t p = 1 ∧ rdFld t (P_PORT_STATE p) 15 8 = code ∧
        rd t (P_LINK_DOWN_CNT p) = satInc (rd s (P_LINK_DOWN_CNT p)) ∧ rdBit t (P_EVT p) 1 = true ∧
        rd t (P_LAST_DOWN_LO p) = wordOf s.raw.toNat ∧ rdFld t (P_LAST_DOWN_HI p) 15 0 = s.raw.toNat / 2 ^ 32 ∧
        (rdFld s (P_PORT_STATE p) 20 16 < 16 → (portOf t p).waitEnd = some (s.raw + BitVec.ofNat 48 (msTicks 10))) ∧ keepsStores s t
    (portState s p ≠ 1 ∨ losClear s p = false → exec (.portAttemptStart p) s = .next s) ∧
    (portState s p = 1 → (portOf s p).waitEnd = none → losClear s p = true → starts (.portAttemptStart p)) ∧
    (∀ r, portState s p = 1 → (portOf s p).waitEnd = some r → hasCome s r = true →
      (losClear s p = true → starts (.retryWaitEnd p) ∧ starts (.portAttemptStart p)) ∧
      (losClear s p = false → ∃ t, exec (.retryWaitEnd p) s = .next t ∧ (portOf t p).losAtEnd = true ∧ t.regs = s.regs ∧ keepsStores s t)) ∧
    (portState s p = 2 → stageOver s p (msTicks 500) = false →
      exec (.anTimeout p) s = .next s ∧
      (∀ c : Technology, c ≠ advertised s p → fails (.anComplete p c) 0x01 (P_AN_FAIL p) 3) ∧
      ∃ t, exec (.anComplete p (advertised s p)) s = .next t ∧ portState t p = 3 ∧ (portOf t p).since = s.raw ∧
        sameElse s t [(P_PORT_STATE p).addr] ∧ keepsStores s t) ∧
    (portState s p = 2 → stageOver s p (msTicks 500) = true → fails (.anTimeout p) 0x02 (P_AN_FAIL p) 3) ∧
    (∀ inv : List Nat, portState s p = 3 → stageOver s p (trainTicks s p) = false →
      exec (.trainTimeout p) s = .next s ∧
      ∃ t, exec (.trainComplete p inv) s = .next t ∧ portState t p = 4 ∧ (portOf t p).since = s.raw ∧ keepsStores s t ∧
        (∀ i ∈ inv, i < rdFld s (P_PORT_CFG p) 12 9 → rdBit t (LN_STAT (rdFld s (P_PORT_CFG p) 8 3 + i)) 3 = true)) ∧
    (portState s p = 3 → stageOver s p (trainTicks s p) = true → fails (.trainTimeout p) 0x03 (P_TRAIN_FAIL p) 2) ∧
    (portState s p = 4 → stageOver s p (msTicks 100) = false → exec (.alignTimeout p) s = .next s) ∧
    (∀ (lanes : List LaneRx) (pcs : List (BitVec 2)), portAligned s p lanes pcs = false →
      exec (.alignComplete p lanes pcs) s = .next s) ∧
    (∀ (lanes : List LaneRx) (pcs : List (BitVec 2)), portState s p = 4 → stageOver s p (msTicks 100) = false →
      portAligned s p lanes pcs = true →
      ∃ t, exec (.alignComplete p lanes pcs) s = .next t ∧ portState t p = 5 ∧ rdBit t (P_EVT p) 0 = true ∧
        (∀ i ∈ invertedLanes s p lanes, rdBit t (LN_STAT (rdFld s (P_PORT_CFG p) 8 3 + i)) 3 = true) ∧
        rd t (P_LINK_UP_CNT p) = satInc (rd s (P_LINK_UP_CNT p)) ∧ rdFld t (P_PORT_STATE p) 20 16 = 0 ∧
        (∀ l ∈ portLanes s p, rdBit t (LN_STAT l) 2 = true) ∧
        (rdFld s (P_PORT_CFG p) 12 9 ≠ 0 → rdBit t (EGR_PORT_STAT p) 0 = rdBit s (P_PORT_STATE p) 3) ∧ keepsStores s t) ∧
    (portState s p = 4 → stageOver s p (msTicks 100) = true → fails (.alignTimeout p) 0x04 (P_TRAIN_FAIL p) 2) ∧
    (∀ l < 48, lanePort s l = some p →
      (portState s p = 5 → rdBit s (LN_STAT l) 0 = true → down (.losAssert l) 0x10 ∧
        ∃ t, exec (.losAssert l) s = .next t ∧ rdBit t (LN_STAT l) 0 = false ∧ rd t (LN_LOS_CNT l) = satInc (rd s (LN_LOS_CNT l)) ∧
          rdBit t (LN_EVT l) 0 = true) ∧
      (portState s p = 5 → rdBit s (LN_STAT l) 1 = true → down (.lolAssert l) 0x11 ∧
        ∃ t, exec (.lolAssert l) s = .next t ∧ rdBit t (LN_STAT l) 1 = false ∧ rd t (LN_LOL_CNT l) = satInc (rd s (LN_LOL_CNT l)) ∧
          rdBit t (LN_EVT l) 1 = true) ∧
      (portState s p = 3 → rdBit s (LN_STAT l) 0 = true → fails (.losAssert l) 0x03 (P_TRAIN_FAIL p) 2) ∧
      (portState s p = 1 → rdBit s (LN_STAT l) 0 = false → (portOf s p).losAtEnd = true →
        (∀ k ∈ portLanes s p, k ≠ l → rdBit s (LN_STAT k) 0 = true) →
        starts (.losClear l) ∧ ∃ t, exec (.losClear l) s = .next t ∧ rdBit t (LN_STAT l) 0 = true ∧ rdBit t (LN_EVT l) 3 = true) ∧
      (portState s p ≠ 0 → portState s p ≠ 6 →
        ∃ t, exec (.lolClear l) s = .next t ∧ rdBit t (LN_STAT l) 1 = true ∧ sameElse s t [(LN_STAT l).addr] ∧ keepsStores s t)) ∧
    (portState s p = 5 → (∀ pcs, headerLoss pcs = true → down (.blockLockLoss p pcs) 0x12) ∧ down (.retrain p) 0x14 ∧
      (rdBit s (P_PORT_CFG p) 14 = true → ∀ ms, markerLoss ms = true → down (.markerLockLoss p ms) 0x13)) ∧
    (∀ pcs, headerLoss pcs = false → exec (.blockLockLoss p pcs) s = .next s) ∧
    (∀ ms, rdBit s (P_PORT_CFG p) 14 = false ∨ markerLoss ms = false → exec (.markerLockLoss p ms) s = .next s) ∧
    ((portState s p ≠ 5 → exec (.faultOrderedSetRx p) s = .next s) ∧
      (portState s p ≠ 5 → ¬ justDown → exec (.retrain p) s = .next s) ∧
      (justDown → ∃ t, exec (.retrain p) s = .next t ∧ rdFld t (P_PORT_STATE p) 15 8 = 0x14 ∧ portState t p = 1 ∧
        sameElse s t [(P_PORT_STATE p).addr] ∧ keepsStores s t)) ∧
    (portState s p ≠ 0 →
      (∃ t, exec (.adminDown p true) s = .next t ∧ portState t p = 6 ∧ rdBit t (P_PORT_CTL p) 0 = true ∧
        rd t (P_AN_FAIL p) = rd s (P_AN_FAIL p) ∧ rd t (P_TRAIN_FAIL p) = rd s (P_TRAIN_FAIL p) ∧
        (portState s p = 1 → ∀ l ∈ portLanes s p, rdBit t (LN_STAT l) 4 = rdBit s (LN_CTL l) 0) ∧ keepsStores s t) ∧
      (∃ t, exec (.adminDown p false) s = .next t ∧ portState t p = (if portState s p = 6 then 1 else portState s p) ∧
        rdBit t (P_PORT_CTL p) 0 = false ∧ keepsStores s t)) ∧
    (portState s p = 5 →
      ∃ t, exec (.faultOrderedSetRx p) s = .next t ∧ rdBit t (P_PORT_STATE p) 3 = true ∧ (portOf t p).faultAt = some s.raw ∧
        (rdFld s (P_PORT_CFG p) 12 9 ≠ 0 → rdBit t (EGR_PORT_STAT p) 0 = true) ∧ portState t p = 5 ∧ keepsStores s t) ∧
    (rdBit s (P_PORT_STATE p) 3 = true → passed s (portOf s p).faultAt (msTicks 1) = true →
      ∃ t, exec (.faultRxClear p) s = .next t ∧ rdBit t (P_PORT_STATE p) 3 = false ∧ portState t p = portState s p ∧
        (portState s p = 5 → rdBit t (EGR_PORT_STAT p) 0 = false) ∧ keepsStores s t)

/-- On a running device an UP port counts corrected and uncorrectable codewords and received frames; a frame with a bad
FCS is counted, reported as a fault event and reaches no flow; a frame of a path it serves that fails a check is
counted BAD; one that matches no path and is no PTP message goes to the control queue, and is dropped and counted
where that is off. The merge counts LATE a packet 32,768 or more below the highest value, DUP a second copy and
MISMATCH where its payload differs, and any other by its path. MERGE_WAIT_EXPIRY moves a sequential flow past the
value furthest on that has been held for MERGE_WAIT. PATH_INACTIVE ends the activity of a path silent for 10 ms, with
the event of the path where the other one is active. (R327, R329, R330, R331) -/
def Obligations.FramesFlowsAndMerge : Prop :=
  (∀ (p : Nat) (s : State), runs s → p < 24 →
    (portState s p ≠ 5 → ∀ f : RxFrame, exec (.frameRx p f) s = .next s ∧ exec (.fecCorrected p) s = .next s ∧
      exec (.fecUncorrectable p) s = .next s) ∧
    (portState s p = 5 →
      (∃ t, exec (.fecCorrected p) s = .next t ∧ rd t (P_FEC_CORR p) = rd s (P_FEC_CORR p) + 1 ∧ sameElse s t [(P_FEC_CORR p).addr] ∧
        keepsStores s t) ∧
      (∃ t, exec (.fecUncorrectable p) s = .next t ∧ rd t (P_FEC_UNCORR p) = satInc (rd s (P_FEC_UNCORR p)) ∧ rdBit t (P_EVT p) 5 = true ∧
        sameElse s t [(P_FEC_UNCORR p).addr, (P_EVT p).addr] ∧ keepsStores s t) ∧
      (∀ f : RxFrame,
        let counted := fun (cnt : Reg) =>
          ∃ t, exec (.frameRx p f) s = .next t ∧ rd t (P_RX_FRAMES p) = rd s (P_RX_FRAMES p) + 1 ∧ rd t cnt = satInc (rd s cnt) ∧
            sameElse s t [(P_RX_FRAMES p).addr, cnt.addr] ∧ t.flows = s.flows ∧ keepsStores s t
        let h := bump s (P_RX_FRAMES p)
        (fcsOk f = false → counted (P_FCS_ERR p) ∧
          ∃ t, exec (.frameRx p f) s = .next t ∧ t.reports = s.reports ++ [(2, p, s.raw, 0)]) ∧
        (fcsOk f = true → flowPath s p f = none →
          exec (.frameRx p f) s = .next (keepStores s (controlFrame h p f)) ∧
          (isPtp s p f = true → exec (.frameRx p f) s = .next h) ∧
          (isPtp s p f = false → rdBit s (P_CTRL_Q p) 15 = false → counted (P_RX_DROP p)) ∧
          (isPtp s p f = false → rdBit s (P_CTRL_Q p) 15 = true →
            let r := putRecord h (rdFld s (P_CTRL_Q p) 14 0) (controlRecord p f)
            exec (.frameRx p f) s = .next (keepStores s (if r.2 then r.1 else count r.1 (P_RX_DROP p))))) ∧
        (∀ i b, fcsOk f = true → flowPath s p f = some (i, b) →
          pathServed s p f i b = true ∧
          (passesChecks (flowOf s i).payloadType f.bytes = false → counted (RXF_BAD i)) ∧
          (passesChecks (flowOf s i).payloadType f.bytes = true →
            let payload := rtpPayload (frameRtp f.bytes)
            let ts := BitVec.ofNat 32 (beAt (frameRtp f.bytes) 4 4)
            let seq := rtpSequence (flowKind s i) (frameRtp f.bytes)
            let x := extendSeq (flowKind s i) (flowOf s i).high seq
            let k := (flowOf s i).high.getD x
            exec (.frameRx p f) s = .next (keepStores s (mergePacket h i b seq ts payload)) ∧
            (i < s.flows.length →
              ((x - k).toInt ≤ -32768 → ∃ t, exec (.frameRx p f) s = .next t ∧ rd t (RXF_LATE i) = satInc (rd s (RXF_LATE i)) ∧
                (flowOf t i).got = (flowOf s i).got ∧ keepsStores s t) ∧
              (-32768 < (x - k).toInt → ∀ g, (flowOf s i).got.find? (fun g => g.1 = x) = some g →
                ∃ t, exec (.frameRx p f) s = .next t ∧ rd t (RXF_DUP i) = rd s (RXF_DUP i) + 1 ∧
                  rd t (RXF_MISMATCH i) = (if g.2.2.2.2 = payload then rd s (RXF_MISMATCH i) else satInc (rd s (RXF_MISMATCH i))) ∧
                  (g.2.2.2.2 ≠ payload → rdBit t (RXF_EVT i) 3 = true) ∧ keepsStores s t) ∧
              (-32768 < (x - k).toInt → (flowOf s i).got.find? (fun g => g.1 = x) = none → isSequential (flowKind s i) = false →
                ∃ t, exec (.frameRx p f) s = .next t ∧
                  rd t (RXF_PKT_A i) = (if b then rd s (RXF_PKT_A i) else rd s (RXF_PKT_A i) + 1) ∧
                  rd t (RXF_PKT_B i) = (if b then rd s (RXF_PKT_B i) + 1 else rd s (RXF_PKT_B i)) ∧
                  (x, !b, b, ts, payload) ∈ (flowOf t i).got ∧ rdBit t (RXF_STAT i) (b2n b) = true ∧
                  (flowOf t i).high = some (if 0 < (x - k).toInt then x else k) ∧ keepsStores s t))))))) ∧
  (∀ (f : Nat) (s : State), runs s → f < 128 → f < s.flows.length →
    (expired s f = none → exec (.mergeWaitExpiry f) s = .next s) ∧
    (∀ x r, expired s f = some x → (flowOf s f).nextRel = some r →
      ∃ t, exec (.mergeWaitExpiry f) s = .next t ∧
        (∀ h ∈ (flowOf t f).held, h ∈ (flowOf s f).held ∧ 0 < (h.1 - x).toInt) ∧ (∃ r', (flowOf t f).nextRel = some r') ∧
        sameElse s t [(RXF_MISS_A f).addr, (RXF_MISS_B f).addr, (RXF_LOST f).addr, (RXF_EVT f).addr] ∧ keepsStores s t) ∧
    (∀ b : Bool,
      let lastOf := if b then (flowOf s f).lastB else (flowOf s f).lastA
      (rdBit s (RXF_STAT f) (b2n b) = false ∨ passed s lastOf (msTicks 10) = false → exec (.pathInactive f b) s = .next s) ∧
      (rdBit s (RXF_STAT f) (b2n b) = true → passed s lastOf (msTicks 10) = true →
        ∃ t, exec (.pathInactive f b) s = .next t ∧ rdBit t (RXF_STAT f) (b2n b) = false ∧
          (rdBit s (RXF_CFG f) 13 = true → rdBit s (RXF_STAT f) (1 - b2n b) = true → rdBit t (RXF_EVT f) (b2n b) = true) ∧
          sameElse s t [(RXF_STAT f).addr, (RXF_EVT f).addr] ∧ keepsStores s t)))

/-- Two HBM3E addresses of one stack with the same pseudo-channel, bank, row and byte are the same, and the place of an
address is one the stack has; two offsets of a DDR-5 channel with the same rank, bank, row and byte are the same. A
sweep of a periodic step stays within 16 LSB of the value in force. A sweep has no result exactly when no point
passes; its result is the centre, rounded down, of a run of passing points that no other run exceeds. (R340, R341,
R348) -/
def Obligations.OxMapsAndSweeps : Prop :=
  (∀ a b : Nat, a < 0x1200000000 → b < 0x1200000000 → a / 0x900000000 = b / 0x900000000 → hbmPlace a = hbmPlace b → a = b) ∧
  (∀ a : Nat, a < 0x1200000000 → (hbmPlace a).target < 32 ∧ (hbmPlace a).bank < 48 ∧ (hbmPlace a).row < 24576 ∧ (hbmPlace a).col < 1024) ∧
  (∀ rows a b : Nat, 1 ≤ rows → ddrPlace rows a = ddrPlace rows b → a = b) ∧
  (∀ (v k : Nat) (points : List Bool), v < 1024 → k < (sweepOf false v points).points.length →
    v ≤ (sweepOf false v points).first + k + 16 ∧ (sweepOf false v points).first + k ≤ v + 16 ∧
      (sweepOf false v points).first + k < 1024) ∧
  (∀ r : SweepResult, (sweepResult r = none ↔ ∀ b ∈ r.points, b = false) ∧
    ∀ v w, sweepResult r = some (v, w) → 1 ≤ w ∧
      (∃ j, (∀ k < w, r.points[j + k]? = some true) ∧ v = r.first + (2 * j + w - 1) / 2) ∧
      ∀ j w', (∀ k < w', r.points[j + k]? = some true) → w' ≤ w)

/-- On a running device: a MEMORY_REQUEST outside the installed range faults; a write to a target in service, or to the
system region, leaves the sector holding its data, in both copies where it lies in the system region, and every other
byte as it was; a read captures the sector as it stood at acceptance, that of the system region at the lower-numbered
copy in service, and is answered at once while a write to it is pending; a target out of service answers free bytes
and drops writes. READ_COMPLETE returns the oldest read issued, counts RD_SECT and CE_CNT, and after a second
uncorrectable read counts UE_CNT with its address. One of the system region that the other copy holds is repaired from
it. PATROL_READ, when due, reads the next sector and at the end of the memory completes a pass. At each refresh
interval, which the rate indication divides, a refresh falls due in the mode of REF_CTL: it waits for the end of a
window, and at the limit for that of a replay; it is postponed, never beyond the limit, where the banks it covers are
busy; else the oldest is issued, which closes the rows it covers. REFRESH_RATE_POLL takes the indication every 16 ms.
(R339, R342, R343, R346, R347, R357, R358, R359) -/
def Obligations.OxRequestsAndChecks : Prop :=
  (∀ (i addr : Nat) (w : Option (List Byte)) (s : State), runs s → i < 10 → inRange s i addr = false →
    exec (.memoryRequest i addr w) s = .fault .noSuchAddress) ∧
  (∀ (i addr : Nat) (s : State), runs s → i < 10 → i < s.ox.length → inRange s i addr = true →
    let a := addr / 64 * 64
    let answers := fun (k b : Nat) =>
      (writePending (oxOf s k) k b = false →
        ∃ t, exec (.memoryRequest i addr none) s = .next t ∧ t.dev = s.dev ∧ t.nv = s.nv ∧ t.fuses = s.fuses ∧
        ∃ r ∈ (oxOf t k).reqs ++ (oxOf t k).reads, r.addr = b ∧ r.wr = none ∧ r.data = sectorAt s k b) ∧
      (writePending (oxOf s k) k b = true →
        ∃ t, exec (.memoryRequest i addr none) s = .next t ∧ t.out = .sector k b (sectorAt s k b) :: s.out ∧ t.ox = s.ox ∧ t.dev = s.dev)
    let serving := serves s i (placeOf s i a).target
    (∀ w, exec (.memoryRequest i addr w) s = .next (keepTime s (acceptReq s i addr w))) ∧
    (inSystem s i a = false → serving = true → answers i a) ∧
    (inSystem s i a = true → ∀ k, (systemCopies s).head? = some k → k < s.ox.length → answers k (oxBase k + (a - oxBase i))) ∧
    (inSystem s i a = false → serving = false → (∀ bs, exec (.memoryRequest i addr (some bs)) s = .next s) ∧
      ∃ t, exec (.memoryRequest i addr none) s = .next t ∧ t.out = .sector i a (freeBytes s.free 64) :: s.out ∧ t.ox = s.ox ∧
        t.dev = s.dev) ∧
    (∀ bs : List Byte, bs.length = 64 → inSystem s i a = true ∨ serving = true →
      let at_ := fun (k : Nat) => oxBase k + (a - oxBase i)
      let ks := if inSystem s i a then systemCopies s else [i]
      ∃ t, exec (.memoryRequest i addr (some bs)) s = .next t ∧ t.nv = s.nv ∧ t.fuses = s.fuses ∧
        (∀ k ∈ ks, (∀ k' ∈ ks, k' = k ∨ at_ k + 64 ≤ at_ k' ∨ at_ k' + 64 ≤ at_ k) → bytesAt t.dev (at_ k) 64 = bs) ∧
        (∀ b, (∀ k ∈ ks, b < at_ k ∨ at_ k + 64 ≤ b) → byteAt t.dev b = byteAt s.dev b))) ∧
  (∀ (i : Nat) (again other : SectorRead) (q : MemReq) (rest : List MemReq) (s : State), runs s → i < 10 → i < s.ox.length →
    (oxOf s i).reads = q :: rest →
    (∃ t, exec (.readComplete i .clean again other) s = .next t ∧ t.out = .sector i q.addr q.data :: s.out ∧ (oxOf t i).reads = rest ∧
      rd64 t (OX_RD_SECT_LO i) (OX_RD_SECT_HI i) = min (rd64 s (OX_RD_SECT_LO i) (OX_RD_SECT_HI i) + 1) (2 ^ 64 - 1) ∧
      sameElse s t [(OX_RD_SECT_LO i).addr, (OX_RD_SECT_HI i).addr] ∧ t.dev = s.dev) ∧
    (∃ t, exec (.readComplete i .corrected again other) s = .next t ∧ t.out = .sector i q.addr q.data :: s.out ∧
      (oxOf t i).reads = rest ∧ rd t (OX_CE_CNT i) = satInc (rd s (OX_CE_CNT i)) ∧ t.dev = s.dev) ∧
    (again ≠ .uncorrectable → ∃ t, exec (.readComplete i .uncorrectable again other) s = .next t ∧
      t.out = .sector i q.addr q.data :: s.out ∧ rest <+: (oxOf t i).reads ∧ rd t (OX_CE_CNT i) = satInc (rd s (OX_CE_CNT i)) ∧
      rd t (OX_UE_CNT i) = rd s (OX_UE_CNT i) ∧ t.dev = s.dev) ∧
    (∀ k, inSystem s i q.addr = true → (systemCopies s).find? (fun k => k ≠ i) = some k → other ≠ .uncorrectable →
      let b := oxBase k + (q.addr - oxBase i)
      ∃ t, exec (.readComplete i .uncorrectable .uncorrectable other) s = .next t ∧ rest <+: (oxOf t i).reads ∧
        t.dev = putBytes s.dev q.addr (bytesAt s.dev b 64) ∧ t.out = .sector i q.addr q.data :: s.out ∧
        rd t (OX_UE_CNT i) = satInc (rd s (OX_UE_CNT i)) ∧ rd t (OX_MIRROR_FIX i) = satInc (rd s (OX_MIRROR_FIX i))) ∧
    (inSystem s i q.addr = false → (∀ x ∈ s.streams, x.id < 1024) →
      ∃ t, exec (.readComplete i .uncorrectable .uncorrectable other) s = .next t ∧ rest <+: (oxOf t i).reads ∧
        rd t (OX_UE_CNT i) = satInc (rd s (OX_UE_CNT i)) ∧ rdBit t (OX_EVT i) 1 = true ∧
        rd64 t (OX_LAST_UE_ADDR_LO i) (OX_LAST_UE_ADDR_HI i) = q.addr % 2 ^ 64 ∧ t.dev = s.dev)) ∧
  (∀ (i : Nat) (again other : SectorRead) (s : State), runs s → i < 10 → i < s.ox.length → (∀ x ∈ s.streams, x.id < 1024) →
    let k := (oxOf s i).patrol
    let a := oxBase i + 64 * k
    let tgt := (placeOf s i a).target
    let n := nextPatrol s i k
    (patrolDue s i = false ∨ targetHeld s i tgt = true → ∀ r, exec (.patrolRead i r again other) s = .next s) ∧
    (patrolDue s i = true → targetHeld s i tgt = false → ∀ r,
      ∃ t, exec (.patrolRead i r again other) s = .next t ∧ (oxOf t i).patrol = (if oxSectors s i ≤ n then 0 else n) ∧
        (oxOf t i).lastPatrol = some s.raw ∧
        rd t (OX_PATROL_PASS i) = (if oxSectors s i ≤ n then satInc (rd s (OX_PATROL_PASS i)) else rd s (OX_PATROL_PASS i))) ∧
    (patrolDue s i = true → targetHeld s i tgt = false →
      ∃ t, exec (.patrolRead i .clean again other) s = .next t ∧
        sameElse s t [(OX_PATROL_PASS i).addr, (OX_RD_SECT_LO i).addr, (OX_RD_SECT_HI i).addr, (OX_WR_SECT_LO i).addr,
          (OX_WR_SECT_HI i).addr, (OX_ROW_HIT i).addr, (OX_ROW_MISS i).addr] ∧ t.dev = s.dev ∧ t.out = s.out)) ∧
  (∀ (i tgt divisor : Nat) (s : State), runs s → i < 10 → i < s.ox.length → tgt < 32 → (oxTargets s i).contains tgt = true →
    let o := oxOf s i
    let mode := rdFld s (OX_REF_CTL i) 0 0
    let lim := Config.refreshLimit (b2n (oxDdr i)) mode
    let ms := postponedOf o tgt
    let busy := refreshBusy mode i tgt o || targetHeld s i tgt
    let waits := windowOn o tgt || (decide (lim ≤ ms.length) && inAlert o i tgt)
    (targetIn s i tgt = true → 1 ≤ oxState s i → oxState s i ≤ 3 → passed s (mget o.refLast tgt) (refreshTicks s i tgt) = true →
      (∃ t, exec (.refreshDue i tgt) s = .next t ∧ mget (oxOf t i).refLast tgt = some s.raw ∧ mget (oxOf t i).refMode tgt = some mode ∧
        keepsStores s t ∧ (ms.length ≤ lim → (postponedOf (oxOf t i) tgt).length ≤ lim)) ∧
      (waits = true → ∃ t, exec (.refreshDue i tgt) s = .next t ∧ t.regs = s.regs ∧
        mget (oxOf t i).refDue tgt = some ((mget o.refDue tgt).getD [] ++ [mode]) ∧ (oxOf t i).banks = o.banks ∧
        postponedOf (oxOf t i) tgt = ms) ∧
      (waits = false → busy = true → ms.length < lim → ∃ t, exec (.refreshDue i tgt) s = .next t ∧ t.regs = s.regs ∧
        postponedOf (oxOf t i) tgt = ms ++ [mode] ∧ (oxOf t i).banks = o.banks) ∧
      (waits = false → busy = false ∨ lim ≤ ms.length →
        exec (.refreshDue i tgt) s = .next (keepStores s (runTarget (modOx s i (fun o =>
          issuePostponed s.raw i tgt (putPostponed { o with refLast := mput o.refLast tgt s.raw, refMode := mput o.refMode tgt mode } tgt
            (ms ++ [mode])))) i tgt)))) ∧
    (targetIn s i tgt = false ∨ oxState s i = 0 ∨ 3 < oxState s i ∨ passed s (mget o.refLast tgt) (refreshTicks s i tgt) = false →
      exec (.refreshDue i tgt) s = .next s) ∧
    (passed s (mget o.polled tgt) (msTicks 16) = true →
      ∃ t, exec (.refreshRatePoll i tgt divisor) s = .next t ∧ mget (oxOf t i).polled tgt = some s.raw ∧
        refreshTicks t i tgt = Config.refreshInterval (b2n (oxDdr i)) (refreshMode o tgt) / max 1 divisor ∧
        t.regs = s.regs ∧ keepsStores s t) ∧
    (passed s (mget o.polled tgt) (msTicks 16) = false → exec (.refreshRatePoll i tgt divisor) s = .next s)) ∧
  (∀ (now : Raw) (i tgt m : Nat) (ms : List Nat) (o : OxSt), postponedOf o tgt = m :: ms →
    let ptr := (mget o.refNext tgt).getD 0
    let o' := issuePostponed now i tgt o
    postponedOf o' tgt = ms ∧ mget o'.refNext tgt = some (ptr + 1) ∧
      ∀ b ∈ o'.banks, b.target = tgt → refreshCovers m i ptr b.bank = true → b.opened = none)

/-- On a running device: a pass starts at the first target in service with step 3 when its time has come; a window opens
when none has for 1 ms; a pass passes over a target withdrawn since. In a window a step with no working setting counts
STEP_FAIL and leads to a full training of its target, a narrow run counts MARGIN_LOW, and the result is kept or the
pass goes on; data gathered while a rate waits is discarded and the rate begins. In full training a step that works
leads to the next, one that does not ends the training of its target. The end of a target's full training puts it in
service, the last the controller; a DDR-5 channel that finds no working setting at the lowest rate is FAILED, at
another the rate falls by one; a pseudo-channel that finds none withdraws its set. A rate request is refused with
0x01, 0x02 or 0x03 as R351 says, or pending. An alert counts ALERT_CNT, closes an open window of its domain without a
result and stops the domain, a third within one replay leads to a full training of the targets affected, and its
release replays and counts what was issued in its window, after that training where it is the third. (R348, R349,
R350, R351, R352, R353, R355, R356) -/
def Obligations.OxTrainingAndAlerts : Prop :=
  ∀ (i : Nat) (s : State), runs s → i < 10 → i < s.ox.length →
    let o := oxOf s i
    (∀ tgt, rdBit s (OX_RETRAIN_CTL i) 0 = true → oxState s i = 2 → o.passOn = false → passed s o.lastPass (secTicks (retrainSecs s i)) = true →
      nextTarget s i 0 = some tgt →
      ∃ t, exec (.retrainPassStart i) s = .next t ∧ (oxOf t i).passOn = true ∧ (oxOf t i).target = tgt ∧ (oxOf t i).step_ = 3 ∧
        (oxOf t i).lastPass = some s.raw ∧ t.regs = s.regs ∧ keepsStores s t) ∧
    (o.passOn = true → targetIn s i o.target = true →
      (o.windowOpen = false → oxState s i = 2 → passed s o.lastWindow (msTicks 1) = true →
        refreshAtLimit s i o.target = false → targetHeld s i o.target = false →
        ∃ t, exec (.trainingWindow i) s = .next t ∧ (oxOf t i).windowOpen = true ∧ (oxOf t i).lastWindow = some s.raw ∧
          t.regs = s.regs ∧ keepsStores s t) ∧
      (o.windowOpen = true ∨ oxState s i ≠ 2 ∨ passed s o.lastWindow (msTicks 1) = false ∨ refreshAtLimit s i o.target = true ∨
        targetHeld s i o.target = true → exec (.trainingWindow i) s = .next s)) ∧
    (o.passOn = true → targetIn s i o.target = false →
      (∀ tgt, nextTarget s i (o.target + 1) = some tgt →
        ∃ t, exec (.trainingWindow i) s = .next t ∧ (oxOf t i).target = tgt ∧ (oxOf t i).step_ = 3 ∧ (oxOf t i).results = [] ∧
          t.regs = s.regs ∧ keepsStores s t) ∧
      (nextTarget s i (o.target + 1) = none →
        ∃ t, exec (.trainingWindow i) s = .next t ∧ (oxOf t i).passOn = false ∧ (oxOf t i).windowOpen = o.windowOpen ∧
          rd t (OX_RETRAIN_CNT i) = satInc (rd s (OX_RETRAIN_CNT i)) ∧ sameElse s t [(OX_RETRAIN_CNT i).addr] ∧ keepsStores s t)) ∧
    (∀ (tgt : Nat) (sweeps : List (List Bool)), tgt < 32 →
      (windowOn o tgt = false → o.fullFor.contains tgt = false ∨ alertStops o i tgt = true ∨ stepsOver o i tgt = true →
        exec (.trainingStepDone i tgt sweeps) s = .next s) ∧
      (windowOn o tgt = true → freqWaits o = true → o.alerts = [] → o.fullFor = [] →
        ∃ t, exec (.trainingStepDone i tgt sweeps) s = .next t ∧ (oxOf t i).windowOpen = false ∧
          (oxOf t i).freqOn = o.freq.map (fun x => x.1) ∧ (oxOf t i).results = o.results ∧ keepsStores s t) ∧
      (windowOn o tgt = true → freqWaits o = false →
        let res := runResult s i tgt o.step_ false sweeps
        (res = none → targetIn s i tgt = true →
          ∃ t, exec (.trainingStepDone i tgt sweeps) s = .next t ∧ (oxOf t i).windowOpen = false ∧ tgt ∈ (oxOf t i).fullFor ∧
            rd t (OX_STEP_FAIL i) = satInc (rd s (OX_STEP_FAIL i)) ∧ rdBit t (OX_EVT i) 5 = true ∧ keepsStores s t) ∧
        (∀ xs, res = some xs →
          let rs := o.results ++ [xs.map (fun x => x.1)]
          ∃ t, exec (.trainingStepDone i tgt sweeps) s = .next t ∧ (oxOf t i).windowOpen = false ∧
            rd t (OX_MARGIN_LOW i) = (if xs.any (fun x => x.2 < 4) then satInc (rd s (OX_MARGIN_LOW i)) else rd s (OX_MARGIN_LOW i)) ∧
            (pairDone o.step_ rs = false →
              (oxOf t i).results = rs ∧ (oxOf t i).step_ = o.step_ ∧ (oxOf t i).target = o.target) ∧
            (pairDone o.step_ rs = true → o.step_ < 6 →
              (oxOf t i).results = [] ∧ (oxOf t i).step_ = o.step_ + 1 ∧ (oxOf t i).target = o.target) ∧
            (pairDone o.step_ rs = true → 6 ≤ o.step_ → nextTarget s i (tgt + 1) = none →
              (oxOf t i).passOn = false ∧ rd t (OX_RETRAIN_CNT i) = satInc (rd s (OX_RETRAIN_CNT i))) ∧ keepsStores s t)) ∧
      (windowOn o tgt = false → o.fullFor.contains tgt = true → alertStops o i tgt = false → stepsOver o i tgt = false →
        freqWaits o = false →
        let step := fullStepOf o tgt
        let res := runResult s i tgt step true sweeps
        (res = none →
          ∃ t, exec (.trainingStepDone i tgt sweeps) s = .next t ∧ tgt ∈ (oxOf t i).fullBad ∧ (oxOf t i).fullFor = o.fullFor ∧
            rd t (OX_STEP_FAIL i) = satInc (rd s (OX_STEP_FAIL i)) ∧ rdBit t (OX_EVT i) 5 = true ∧
            sameElse s t [(OX_STEP_FAIL i).addr, (OX_EVT i).addr] ∧ keepsStores s t) ∧
        (∀ xs, res = some xs →
          let rs := (mget o.fullRuns tgt).getD [] ++ [xs.map (fun x => x.1)]
          ∃ t, exec (.trainingStepDone i tgt sweeps) s = .next t ∧ (oxOf t i).fullFor = o.fullFor ∧ (oxOf t i).fullBad = o.fullBad ∧
            fullStepOf (oxOf t i) tgt = (if (stepTrims i tgt step).isEmpty || pairDone step rs then step + 1 else step) ∧
            rd t (OX_MARGIN_LOW i) = (if xs.any (fun x => x.2 < 4) then satInc (rd s (OX_MARGIN_LOW i)) else rd s (OX_MARGIN_LOW i)) ∧
            sameElse s t [(OX_MARGIN_LOW i).addr, (OX_EVT i).addr] ∧ keepsStores s t))) ∧
    (∀ tgt < 32,
      (o.fullFor.contains tgt = false ∨ alertStops o i tgt = true ∨ stepsOver o i tgt = false →
        exec (.fullTrainingDone i tgt) s = .next s) ∧
      (o.fullFor.contains tgt = true → alertStops o i tgt = false → stepsOver o i tgt = true → o.fullBad.contains tgt = false →
        oxState s i = 1 ∨ oxState s i = 3 → o.freq = none → o.freqOn = none → o.released = [] →
        ∃ t, exec (.fullTrainingDone i tgt) s = .next t ∧ (oxOf t i).fullFor = o.fullFor.filter (fun x => x ≠ tgt) ∧
          (targetIn s i tgt = true → serves t i tgt = true) ∧
          rd t (OX_CAP_MIB i) = wordOf (((oxTargets s i).filter (fun x => serves t i x)).length * targetMib s i) ∧
          ((∃ x ∈ o.fullFor, x ≠ tgt) → oxState t i = oxState s i ∧ rd t (OX_FULL_TRAIN_CNT i) = rd s (OX_FULL_TRAIN_CNT i)) ∧
          ((∀ x ∈ o.fullFor, x = tgt) → oxState t i = 2 ∧
            rd t (OX_FULL_TRAIN_CNT i) =
              (if oxState s i = 1 then rd s (OX_FULL_TRAIN_CNT i) else satInc (rd s (OX_FULL_TRAIN_CNT i)))) ∧ keepsStores s t) ∧
      (o.fullFor.contains tgt = true → alertStops o i tgt = false → o.fullBad.contains tgt = true →
        (oxDdr i = true → oxState s i = 1 ∨ oxState s i = 3 → o.freqOn = none → freqWaits o = false →
          (rdFld s (OX_FREQ_STAT i) 1 0 < 2 →
            ∃ t, exec (.fullTrainingDone i tgt) s = .next t ∧ rdFld t (OX_FREQ_STAT i) 1 0 = rdFld s (OX_FREQ_STAT i) 1 0 + 1 ∧
              rdBit t (OX_STAT i) 3 = true ∧ rdBit t (OX_EVT i) 9 = true ∧ oxState t i = oxState s i ∧
              (∀ x ∈ oxTargets s i, targetIn s i x = true → x ∈ (oxOf t i).fullFor) ∧ keepsStores s t) ∧
          (rdFld s (OX_FREQ_STAT i) 1 0 = 2 → (∀ x ∈ s.streams, x.id < 1024) → (∀ k ∈ s.systemPair, 2 ≤ k ∧ k < 10) →
            ∃ t, exec (.fullTrainingDone i tgt) s = .next t ∧ oxState t i = 4 ∧ rd t (OX_CAP_MIB i) = 0 ∧ rdBit t (OX_EVT i) 7 = true ∧
              (oxOf t i).failed = oxTargets s i ∧ keepsStores s t)) ∧
        (oxDdr i = false → targetIn s i tgt = true → oxState s i = 1 ∨ oxState s i = 3 →
          (∀ x ∈ s.streams, x.id < 1024) → (∀ k ∈ s.systemPair, 2 ≤ k ∧ k < 10) →
          ∃ t, exec (.fullTrainingDone i tgt) s = .next t ∧ rdBit t (OX_PC_FAIL i) tgt = true ∧
            rdBit t (OX_SET_STAT i) (setOf tgt) = true ∧ targetIn t i tgt = false ∧ rdBit t (OX_EVT i) 7 = true ∧
            rdBit t (OX_EVT i) 8 = true ∧ keepsStores s t))) ∧
    (∀ (rate : BitVec 2) (tag : Byte),
      let refused := fun (code : Nat) =>
        ∃ t, exec (.freqCmd i rate tag) s = .next t ∧ rdFld t (OX_FREQ_STAT i) 23 16 = code ∧ rdFld t (OX_FREQ_STAT i) 15 8 = tag.toNat ∧
          t.ox = s.ox ∧ sameElse s t [(OX_FREQ_STAT i).addr] ∧ keepsStores s t
      (oxDdr i = false → anyRunning s = true → refused 0x01) ∧
      (oxDdr i = true ∨ anyRunning s = false → rate = 3 → refused 0x02) ∧
      (oxDdr i = true ∨ anyRunning s = false → rate ≠ 3 → oxState s i = 0 ∨ oxState s i = 4 ∨ oxState s i = 5 → refused 0x03) ∧
      (oxDdr i = true ∨ anyRunning s = false → rate ≠ 3 → oxState s i = 1 ∨ oxState s i = 2 ∨ oxState s i = 3 →
        ∃ t, exec (.freqCmd i rate tag) s = .next t ∧ rdBit t (OX_FREQ_STAT i) 2 = true ∧ (oxOf t i).freq = some (rate.toNat, tag) ∧
          (oxState s i = 2 → o.windowOpen = false → o.fullFor = [] → o.alerts = [] → o.freqOn = none →
            oxState t i = 3 ∧ (oxOf t i).freqOn = some rate.toNat ∧
            (∀ tgt ∈ oxTargets s i, targetIn s i tgt = true → tgt ∈ (oxOf t i).fullFor)) ∧ keepsStores s t)) ∧
    (∀ d rank, d < (if oxDdr i then 1 else 16) → oxState s i = 1 ∨ oxState s i = 2 ∨ oxState s i = 3 →
      let n := ((o.alerts.find? (fun a => a.domain = d)).map (fun a => a.num)).getD 0 + 1
      let hit := fun (tgt : Nat) => tgt ∈ oxTargets s i ∧ domainOf i tgt = d ∧ (oxDdr i = true → tgt = rank)
      (∃ t a, exec (.parityAlert i d rank) s = .next t ∧ rd t (OX_ALERT_CNT i) = satInc (rd s (OX_ALERT_CNT i)) ∧
        rdBit t (OX_EVT i) 2 = true ∧ (oxOf t i).alerts.find? (fun a => a.domain = d) = some a ∧ a.num = n ∧ a.at_ = s.raw ∧
        (∀ tgt, hit tgt → tgt ∈ a.affected) ∧ (∀ tgt, domainOf i tgt = d → targetHeld t i tgt = true) ∧
        (n = 3 → ∀ tgt, hit tgt → targetIn s i tgt = true → tgt ∈ (oxOf t i).fullFor) ∧
        (domainOf i o.target = d → (oxOf t i).windowOpen = false) ∧ (oxOf t i).results = o.results ∧ keepsStores s t) ∧
      (∀ a, o.alerts.find? (fun a => a.domain = d) = some a → 3 ≤ a.num → (∃ x ∈ a.affected, o.fullFor.contains x = true) →
        ∃ t, exec (.alertRelease i d) s = .next t ∧ (oxOf t i).released = o.released ++ [d] ∧ (oxOf t i).alerts = o.alerts ∧
          t.regs = s.regs ∧ keepsStores s t) ∧
      (∀ a, o.alerts.find? (fun a => a.domain = d) = some a → a.num < 3 ∨ (∀ x ∈ a.affected, o.fullFor.contains x = false) →
        freqWaits o = false →
        let es := o.issued.filter (fun x => domainOf i x.target = d && sdiff x.at_ a.at_ < 0 &&
          sdiff a.at_ x.at_ ≤ (if oxDdr i then 50 else 37))
        ∃ t, exec (.alertRelease i d) s = .next t ∧ (oxOf t i).alerts = o.alerts.filter (fun x => x.domain ≠ d) ∧
          (rd t (OX_REPLAY_CNT i)).toNat = min ((rd s (OX_REPLAY_CNT i)).toNat + es.length) (2 ^ 32 - 1) ∧ keepsStores s t))

/-- On a running device SWI_SET of word w with value v sets the bits of v the word has and SWI_CLR clears them; both
registers of the word then read the same bits, bits 27 to 31 of word 1 excepted from either, and every other register
is unchanged. Bit b of word 0 is the level of source 438 + b, and bit b of word 1, below 27, that of source 470 + b.
(R394) -/
def Obligations.SoftwareRequestsSetAndClear : Prop :=
  (∀ (w : Nat) (v : Word) (s : State), runs s → w < 2 →
    (∃ t, exec (.swiSet w v) s = .next t ∧ rd t (IRQ_SWI_SET w) = rd s (IRQ_SWI_SET w) ||| (v &&& swiMask w) ∧
      rd t (IRQ_SWI_CLR w) = rd t (IRQ_SWI_SET w) ∧ sameElse s t [(IRQ_SWI_SET w).addr, (IRQ_SWI_CLR w).addr] ∧ keepsStores s t) ∧
    (∃ t, exec (.swiClr w v) s = .next t ∧ rd t (IRQ_SWI_SET w) = rd s (IRQ_SWI_SET w) &&& ~~~(v &&& swiMask w) ∧
      rd t (IRQ_SWI_CLR w) = rd t (IRQ_SWI_SET w) ∧ sameElse s t [(IRQ_SWI_SET w).addr, (IRQ_SWI_CLR w).addr] ∧ keepsStores s t)) ∧
  (∀ (s : State) (b : Nat), (b < 32 → sourceLevel s (438 + b) = rdBit s (IRQ_SWI_SET 0) b) ∧
    (b < 27 → sourceLevel s (470 + b) = rdBit s (IRQ_SWI_SET 1) b))

/-- On a running device a CLAIM at a steward target t that has source i signalled returns i, makes it active at t with the
priority it has now, counts DELIV_CNT and leaves nothing signalled; with nothing signalled it returns 0x1FF, counts
SPUR_CNT and changes no other register; at a host target it returns 0x1FF and changes nothing. An EOI ends the active
state of a source active at the target and no other; of a source not active there it changes nothing and counts
EOI_ERR. CORE_WAIT puts the core in its wait state. An evaluation counts EVAL_CNT and otherwise is the procedure of
R396 as evaluate states it. (R396, R397, R399, R400, R408) -/
def Obligations.ClaimTakesTheSignalledSource : Prop :=
  (∀ (m : Master) (t : Nat) (s : State), runs s → t < 4 → rdFld s (TGT_HIGHEST t) 8 0 ≠ noSource →
    ∃ u, exec (.claim m t) s = .next u ∧ u.out = .read m (wordOf (rdFld s (TGT_HIGHEST t) 8 0)) :: s.out ∧
      u.active = s.active ++ [(rdFld s (TGT_HIGHEST t) 8 0, t, srcPrio s (rdFld s (TGT_HIGHEST t) 8 0))] ∧
      rd u (TGT_DELIV_CNT t) = rd s (TGT_DELIV_CNT t) + 1 ∧ rd u (TGT_HIGHEST t) = wordOf noSource ∧ keepsStores s u) ∧
  (∀ (m : Master) (t : Nat) (s : State), runs s → t < 4 → rdFld s (TGT_HIGHEST t) 8 0 = noSource →
    ∃ u, exec (.claim m t) s = .next u ∧ u.out = .read m (wordOf noSource) :: s.out ∧ u.active = s.active ∧
      rd u IRQ_SPUR_CNT = satInc (rd s IRQ_SPUR_CNT) ∧ sameElse s u [IRQ_SPUR_CNT.addr] ∧ keepsStores s u) ∧
  (∀ (m : Master) (t : Nat) (s : State), runs s → 4 ≤ t → t < 8 →
    ∃ u, exec (.claim m t) s = .next u ∧ u = { s with out := .read m (wordOf noSource) :: s.out }) ∧
  (∀ (t : Nat) (i : BitVec 9) (s : State), runs s → t < 8 → activeAt s i.toNat t = true →
    ∃ u, exec (.eoi t i) s = .next u ∧ u.active = s.active.filter (fun a => !(a.1 = i.toNat && a.2.1 = t)) ∧ keepsStores s u) ∧
  (∀ (t : Nat) (i : BitVec 9) (s : State), runs s → t < 8 → activeAt s i.toNat t = false →
    ∃ u, exec (.eoi t i) s = .next u ∧ u.active = s.active ∧ rd u IRQ_EOI_ERR = satInc (rd s IRQ_EOI_ERR) ∧
      sameElse s u [IRQ_EOI_ERR.addr] ∧ keepsStores s u) ∧
  (∀ (c : Nat) (s : State), runs s → c < 4 →
    ∃ u, exec (.coreWait c) s = .next u ∧ u.waitCores.getLsbD c = true ∧
      (∀ d < 4, d ≠ c → u.waitCores.getLsbD d = s.waitCores.getLsbD d) ∧
      sameElse s u [(TGT_RUNNING c).addr, (TGT_STAT c).addr] ∧ keepsStores s u) ∧
  (∀ s : State, runs s →
    ∃ u, exec .irqEvaluation s = .next u ∧ rd u IRQ_EVAL_CNT = rd s IRQ_EVAL_CNT + 1 ∧ u = keepStores s (evaluate s) ∧ keepsStores s u)

/-- For every target and list of pending sources the winner, when there is one, is a pending source that pends toward the
target, is not active there and has PRIO below the target's PMR, and under every binary point bp from 0 to 7 no other
such source is less in the order of group, then sub-priority, then source number; when there is none no pending source
is such. (R397) -/
def Obligations.WinnerIsLeastInTheManualsOrder : Prop :=
  ∀ (s : State) (t : Nat) (pend : List Nat),
    let ok := fun i => (mayUse s i).contains t && !activeAt s i t && srcPrio s i < rdFld s (TGT_PMR t) 8 0
    (∀ w, winner s t pend = some w → w ∈ pend ∧ ok w = true ∧
      ∀ i ∈ pend, ok i = true → ∀ bp ≤ 7,
        srcPrio s w >>> bp < srcPrio s i >>> bp ∨
        (srcPrio s w >>> bp = srcPrio s i >>> bp ∧
          (srcPrio s w % 2 ^ bp < srcPrio s i % 2 ^ bp ∨ (srcPrio s w % 2 ^ bp = srcPrio s i % 2 ^ bp ∧ w ≤ i)))) ∧
    (winner s t pend = none → ∀ i ∈ pend, ok i = false)

/-- On a running device, for a unit not bound to the Mule link: CK_START with START alone opens a message with the initial
value of the polynomial that CK_CTL selects and a byte count of 0; with a message open DATA_B, DATA_H and DATA_W feed
1, 2 and 4 bytes, lowest first, and BYTES counts them; with none open they change nothing; CK_FINISH with FINISH alone
places the final value in RESULT, counts MSG_CNT and sets EVT.DONE, and no message is open; CK_ALIVE_RESET sets
STAT.FIRST whatever other bits it sets, and with ALIVE_RESET alone changes no other register. A unit bound to the link
ignores all of them. (R423, R425, R426, R427, R430, R431) -/
def Obligations.CheckValueUnitCommands : Prop :=
  ∀ (i : Nat) (v : Word) (s : State), runs s → i < 8 →
    (rdBit s (CK_CTL i) 4 = false → v = 1 →
      ∃ t, exec (.ckStart i v) s = .next t ∧ rd t (CK_RUNNING i) = crcInit (rdFld s (CK_CTL i) 1 0) ∧ rd t (CK_BYTES i) = 0 ∧
        (i < s.cks.length → (ckOf t i).isOpen = true ∧ (ckOf t i).ctl = rd s (CK_CTL i)) ∧
        sameElse s t [(CK_RUNNING i).addr, (CK_BYTES i).addr, (CK_STAT i).addr] ∧ keepsStores s t) ∧
    (rdBit s (CK_CTL i) 4 = false → (ckOf s i).isOpen = true →
      (∃ t, exec (.dataB i v) s = .next t ∧
        rd t (CK_RUNNING i) = (leBytes 1 v.toNat).foldl (crcStep (ckPoly s i)) (rd s (CK_RUNNING i)) ∧
        sameElse s t [(CK_RUNNING i).addr, (CK_BYTES i).addr] ∧ t.cks = s.cks ∧ keepsStores s t ∧
        (rd t (CK_BYTES i)).toNat = min ((rd s (CK_BYTES i)).toNat + 1) (2 ^ 32 - 1)) ∧
      (∃ t, exec (.dataH i v) s = .next t ∧
        rd t (CK_RUNNING i) = (leBytes 2 v.toNat).foldl (crcStep (ckPoly s i)) (rd s (CK_RUNNING i)) ∧
        sameElse s t [(CK_RUNNING i).addr, (CK_BYTES i).addr] ∧ t.cks = s.cks ∧ keepsStores s t ∧
        (rd t (CK_BYTES i)).toNat = min ((rd s (CK_BYTES i)).toNat + 2) (2 ^ 32 - 1)) ∧
      (∃ t, exec (.dataW i v) s = .next t ∧
        rd t (CK_RUNNING i) = (leBytes 4 v.toNat).foldl (crcStep (ckPoly s i)) (rd s (CK_RUNNING i)) ∧
        sameElse s t [(CK_RUNNING i).addr, (CK_BYTES i).addr] ∧ t.cks = s.cks ∧ keepsStores s t ∧
        (rd t (CK_BYTES i)).toNat = min ((rd s (CK_BYTES i)).toNat + 4) (2 ^ 32 - 1))) ∧
    (rdBit s (CK_CTL i) 4 = false → v = 2 → i < s.cks.length →
      ∃ t, exec (.ckFinish i v) s = .next t ∧
        rd t (CK_RESULT i) = crcFinal (ckPoly s i) (if (ckOf s i).isOpen then rd s (CK_RUNNING i) else crcInit (ckPoly s i)) ∧
        rd t (CK_MSG_CNT i) = rd s (CK_MSG_CNT i) + 1 ∧ rdBit t (CK_EVT i) 0 = true ∧ (ckOf t i).isOpen = false ∧ keepsStores s t) ∧
    (rdBit s (CK_CTL i) 4 = false → tbit v 2 = true →
      ∃ t, exec (.ckAliveReset i v) s = .next t ∧ rdBit t (CK_STAT i) 4 = true ∧ keepsStores s t ∧
        (v = 4 → sameElse s t [(CK_STAT i).addr] ∧ t.cks = s.cks)) ∧
    (rdBit s (CK_CTL i) 4 = true ∨ (ckOf s i).isOpen = false →
      exec (.dataB i v) s = .next s ∧ exec (.dataH i v) s = .next s ∧ exec (.dataW i v) s = .next s) ∧
    (rdBit s (CK_CTL i) 4 = true →
      exec (.ckStart i v) s = .next s ∧ exec (.ckFinish i v) s = .next s ∧ exec (.ckAliveReset i v) s = .next s)

/-- If a message opened with polynomial p has been fed the bytes bs, so that RUNNING holds the register after them, a
further DATA_B, DATA_H or DATA_W write makes it the register after bs and the bytes written, ALIVE_RESET leaves it and
sets FIRST, and FINISH places crcOf p of the bytes in RESULT; START makes it the register after no byte. The four
polynomials give the check values of R424 on the bytes of "123456789". (R423, R424) -/
def Obligations.FinishGivesTheCrcOfTheBytesFed : Prop :=
  (∀ (i p : Nat) (bs : List Byte) (v : Word) (s : State), runs s → i < 8 → i < s.cks.length → rdBit s (CK_CTL i) 4 = false →
    (∃ t, exec (.ckStart i 1) s = .next t ∧ (ckOf t i).isOpen = true ∧
      rd t (CK_RUNNING i) = ([] : List Byte).foldl (crcStep (ckPoly t i)) (crcInit (ckPoly t i))) ∧
    ((ckOf s i).isOpen = true → ckPoly s i = p → rd s (CK_RUNNING i) = bs.foldl (crcStep p) (crcInit p) →
      (∃ t, exec (.dataW i v) s = .next t ∧ (ckOf t i).isOpen = true ∧ ckPoly t i = p ∧
        rd t (CK_RUNNING i) = (bs ++ leBytes 4 v.toNat).foldl (crcStep p) (crcInit p)) ∧
      (∃ t, exec (.dataB i v) s = .next t ∧ (ckOf t i).isOpen = true ∧ ckPoly t i = p ∧
        rd t (CK_RUNNING i) = (bs ++ leBytes 1 v.toNat).foldl (crcStep p) (crcInit p)) ∧
      (∃ t, exec (.dataH i v) s = .next t ∧ (ckOf t i).isOpen = true ∧ ckPoly t i = p ∧
        rd t (CK_RUNNING i) = (bs ++ leBytes 2 v.toNat).foldl (crcStep p) (crcInit p)) ∧
      (∃ t, exec (.ckAliveReset i 4) s = .next t ∧ (ckOf t i).isOpen = true ∧ ckPoly t i = p ∧ rdBit t (CK_STAT i) 4 = true ∧
        rd t (CK_RUNNING i) = bs.foldl (crcStep p) (crcInit p)) ∧
      (∃ t, exec (.ckFinish i 2) s = .next t ∧ rd t (CK_RESULT i) = crcOf p bs))) ∧
  (let nine : List Byte := [0x31, 0x32, 0x33, 0x34, 0x35, 0x36, 0x37, 0x38, 0x39]
   crcOf 0 nine = 0xCBF43926 ∧ crcOf 1 nine = 0xE3069283 ∧ crcOf 2 nine = 0x29B1 ∧ crcOf 3 nine = 0x4B)

/-- On a running device a FAULT_EVENT of an instance that its class has takes the report of that stamp, counts
CLASS_EVENTS and enters the event with its stamp and the DATA of its class, 0 for classes 1 and 5; where it does not
reach the threshold nothing else happens but the counting of its window, and where it does the threshold is entered
too and the class's outcome follows as thresholdReached states it. A LEDGER_RELEASE of the entry first in order, once
it is 5,000 ticks old, gives it the next sequence number, and the number rises by exactly one. (R411, R413, R416,
R158, R203, R328, R360) -/
def Obligations.FaultEventIsCountedAndEntered : Prop :=
  (∀ (c i : Nat) (stamp : Raw) (data : Word) (s : State), runs s → c < 6 → i < classInsts c →
    let h := { s with reports := s.reports.eraseP (fun r => r.1 = c && r.2.1 = i && r.2.2.1 = stamp) }
    let r := countEvent (faultChannels h c i).2 c i stamp data (faultChannels h c i).1
    r.2 = false →
    ∃ t, exec (.faultEvent c i stamp data) s = .next t ∧ rd t (GOOSE_CLASS_EVENTS c) = satInc (rd s (GOOSE_CLASS_EVENTS c)) ∧
      t.waiting = s.waiting ++ [{ kind := 0x0100 + c, unit := i, channel := channelCode (faultChannels h c i).1, lasting := false,
                                  time := stamp, data := if c = 1 ∨ c = 5 then 0 else data }] ∧
      t.reports = h.reports ∧ sameElse s t [(GOOSE_CLASS_EVENTS c).addr] ∧ keepsStores s t) ∧
  (∀ (c i : Nat) (stamp : Raw) (data : Word) (s : State), runs s → c < 6 → i < classInsts c →
    let h := { s with reports := s.reports.eraseP (fun r => r.1 = c && r.2.1 = i && r.2.2.1 = stamp) }
    let r := countEvent (faultChannels h c i).2 c i stamp data (faultChannels h c i).1
    r.2 = true →
    rdBit r.1 GOOSE_EVT c = true ∧
    ∃ t, exec (.faultEvent c i stamp data) s = .next t ∧ t = keepStores s (thresholdReached r.1 c i (faultChannels h c i).1) ∧
      keepsStores s t) ∧
  (∀ (e : LedgerEntry) (s : State), runs s → firstEntry s.waiting = some e → ticksSince s e.time 5000 = true →
    ∃ t, exec .ledgerRelease s = .next t ∧ t.ledgerNext = s.ledgerNext + 1 ∧ t.waiting = s.waiting.erase e ∧
      t.ledger.getLast? = some (s.ledgerNext, e) ∧ keepsStores s t)

/-- Counting m events of one instance in one window it has not counted in, with threshold n at least 1, reports the
threshold on exactly one of them if m is at least n and on none otherwise, and the window's count is then m; an event
of a window that lies more than one window before the instance's own changes nothing. Further events in the same
window are counted and report nothing more. (R411) -/
def Obligations.OneThresholdAWindow : Prop :=
  (∀ (n m : Nat) (j : Int) (x : InstSt), 1 ≤ n → x.win < j →
    let run := (List.range m).foldl (fun (a : InstSt × Nat) _ => ((countInst n a.1 j).1, a.2 + b2n (countInst n a.1 j).2)) (x, 0)
    run.2 = (if n ≤ m then 1 else 0) ∧ (1 ≤ m → run.1.win = j ∧ run.1.cur = m)) ∧
  (∀ (n : Nat) (j : Int) (x : InstSt), j < x.win - 1 → countInst n x j = (x, false))

/-- On a running device a read in the doorbell space returns 0 and changes nothing; a doorbell of the right size to a
queue of the host that is enabled, or a completion queue that drains, sets the tail of a submission or egress queue,
or the head of a completion or event queue, to its index; an index at or beyond the size is error 0x01; a head beyond
the tail is error 0x02; a doorbell to a queue that is STEWARD, not enabled or of kind 0 counts DB_REJ and changes
nothing else; one of the wrong size counts BAD_ACC and changes nothing else. On a running device a write of EN from 0
to 1 to a queue that is neither active nor draining sets head and tail to 0, clears the error and the code and sets
EN; while the queue is active or draining the write leaves EN at 0; a write of EN = 0 to an enabled queue makes EN
read 0 at once. (R367, R368, R369, R383, R370) -/
def Obligations.QueuesAndTheirDoorbells : Prop :=
  (
  ∀ (q : Nat) (v : Word) (s : State), runs s → q < 32768 →
    (∀ sized, exec (.doorbell q true sized v) s = .next { s with out := .read .host 0 :: s.out }) ∧
    (∃ t, exec (.doorbell q false false v) s = .next t ∧ rd t HOST_BAD_ACC = satInc (rd s HOST_BAD_ACC) ∧
      sameElse s t [HOST_BAD_ACC.addr] ∧ keepsStores s t) ∧
    (rdBit s (Q_QCFG q) 4 = true ∨ qOpen s q = false ∨ qKind s q = 0 →
      ∃ t, exec (.doorbell q false true v) s = .next t ∧ rd t QUE_DB_REJ = satInc (rd s QUE_DB_REJ) ∧
        sameElse s t [QUE_DB_REJ.addr] ∧ keepsStores s t) ∧
    (rdBit s (Q_QCFG q) 4 = false → qOpen s q = true → qKind s q ≠ 0 →
      (qSize s q ≤ fld v 15 0 →
        ∃ t, exec (.doorbell q false true v) s = .next t ∧ qErr t q = true ∧ rdFld t (Q_QSTAT q) 15 8 = 1 ∧
          rd t QUE_QERR_CNT = satInc (rd s QUE_QERR_CNT) ∧ sameElse s t [(Q_QSTAT q).addr, QUE_QERR_CNT.addr] ∧ keepsStores s t) ∧
      (fld v 15 0 < qSize s q → qKind s q = 1 ∨ qKind s q = 3 →
        ∃ t, exec (.doorbell q false true v) s = .next t ∧ rd t (Q_TAIL q) = wordOf (fld v 15 0) ∧ sameElse s t [(Q_TAIL q).addr] ∧
          keepsStores s t) ∧
      (fld v 15 0 < qSize s q → ¬(qKind s q = 1 ∨ qKind s q = 3) →
        qUsed s q < (fld v 15 0 + qSize s q - qHead s q) % qSize s q →
        ∃ t, exec (.doorbell q false true v) s = .next t ∧ qErr t q = true ∧ rdFld t (Q_QSTAT q) 15 8 = 2 ∧
          rd t QUE_QERR_CNT = satInc (rd s QUE_QERR_CNT) ∧ sameElse s t [(Q_QSTAT q).addr, QUE_QERR_CNT.addr] ∧ keepsStores s t) ∧
      (fld v 15 0 < qSize s q → ¬(qKind s q = 1 ∨ qKind s q = 3) →
        (fld v 15 0 + qSize s q - qHead s q) % qSize s q ≤ qUsed s q →
        ∃ t, exec (.doorbell q false true v) s = .next t ∧ rd t (Q_HEAD q) = wordOf (fld v 15 0) ∧
          sameElse s t [(Q_HEAD q).addr, (GRP_STAT (qGroup s q)).addr] ∧ keepsStores s t))
  ) ∧ (
  ∀ (q : Nat) (v : Word) (s : State), runs s → q < 32768 →
    (tbit v 0 = true → qEn s q = false → (qKind s q = 1 ∨ qKind s q = 3 → (queueSt s q).outst = []) → qDraining s q = false →
      ∃ t, exec (.queueEnable q v) s = .next t ∧ qEn t q = true ∧ rd t (Q_HEAD q) = 0 ∧ rd t (Q_TAIL q) = 0 ∧ qErr t q = false ∧
        rdFld t (Q_QSTAT q) 15 8 = 0 ∧ (queueSt t q).phase = true ∧ keepsStores s t) ∧
    (tbit v 0 = true → qEn s q = false → qDraining s q = true →
      ∃ t, exec (.queueEnable q v) s = .next t ∧ qEn t q = false ∧ rd t (Q_HEAD q) = rd s (Q_HEAD q) ∧
        rd t (Q_TAIL q) = rd s (Q_TAIL q) ∧ keepsStores s t) ∧
    (tbit v 0 = false → qEn s q = true →
      ∃ t, exec (.queueDisable q v) s = .next t ∧ qEn t q = false ∧ keepsStores s t)
  )

/-- On a running device a DESCRIPTOR_FETCH allowed by R370 of a descriptor that its ring in device memory holds, or else
the DMA returns, takes it at the head, which moves on by one modulo the size, counts ENTRIES and makes it the newest
of its queue's outstanding descriptors, the older ones unchanged and in place; a DMA error is queue error 0x03 and
fetches nothing. UNKNOWN_OPCODE of the next descriptor of unknown opcode finishes it with status 0x80.
COMPLETION_WRITE writes nothing but the completion of the oldest descriptor, and only when that one is finished and
none that goes to the same completion queue became writable before it. MODERATION_HOLDOFF of a counting group whose
holdoff has passed or whose count is reached makes it FIRED. (R369, R370, R377, R379, R383) -/
def Obligations.DescriptorsAreFetchedAndCompletedInOrder : Prop :=
  (∀ (q : Nat) (desc payload : Option (List Byte)) (s : State), runs s → q < 32768 →
    exec (.descriptorFetch q desc payload) s = .next (keepStores s (fetchDescriptor s q desc payload)) ∧
    (mayFetch s q = false → exec (.descriptorFetch q desc payload) s = .next s)) ∧
  (∀ (q : Nat) (d : List Byte) (desc payload : Option (List Byte)) (s : State), runs s → q < 32768 → mayFetch s q = true →
    (if rdBit s (Q_QCFG q) 3 then ringEntry s q (qHead s q) else desc) = some d →
    ∃ t o, exec (.descriptorFetch q desc payload) s = .next t ∧ rd t (Q_HEAD q) = wordOf ((qHead s q + 1) % qSize s q) ∧
      rd t (Q_ENTRIES q) = rd s (Q_ENTRIES q) + 1 ∧ (queueSt t q).outst = (queueSt s q).outst ++ [o] ∧ o.desc = padTo 64 d ∧
      o.slot = (queueSt s q).nextSlot ∧ keepsStores s t) ∧
  (∀ (q : Nat) (desc payload : Option (List Byte)) (s : State), runs s → q < 32768 → mayFetch s q = true →
    (if rdBit s (Q_QCFG q) 3 then ringEntry s q (qHead s q) else desc) = none →
    ∃ t, exec (.descriptorFetch q desc payload) s = .next t ∧ qErr t q = true ∧ rdFld t (Q_QSTAT q) 15 8 = 3 ∧
      t.queues = s.queues ∧ sameElse s t [(Q_QSTAT q).addr, QUE_QERR_CNT.addr] ∧ keepsStores s t) ∧
  (∀ (q : Nat) (o : Outst) (s : State), runs s → q < 32768 → nextUnhanded s q = some o →
    o.opcode = 0 ∨ 8 < o.opcode → o.done = none →
    ∃ t, exec (.unknownOpcode q) s = .next t ∧
      { o with handed := true, done := some (0x80, zeros 24) } ∈ (queueSt t q).outst ∧ keepsStores s t) ∧
  (∀ (q : Nat) (s t : State), exec (.completionWrite q) s = .next t →
    (∀ b ∈ t.out.take (t.out.length - s.out.length), ∀ cq slot how bs, b = .completion cq slot how bs →
      ∃ o, (queueSt s q).outst.head? = some o ∧ o.done.isSome = true ∧ firstWritable s q = true ∧ cq = qBound s q ∧ how = tlpTo s cq ∧
        bs = completionBytes q (queueSt s cq).phase o) ∧
    keepsStores s t) ∧
  (∀ (q : Nat) (o : Outst) (rest : List Outst) (s : State), runs s → q < 32768 → (queueSt s q).outst = o :: rest →
    o.done.isSome = true → o.dead = false → firstWritable s q = true → qOpen s (qBound s q) = true → qHostMem s (qBound s q) = false ∨ hostHeld s = false →
    ∃ t, exec (.completionWrite q) s = .next t ∧
      t.out = .completion (qBound s q) (qTail s (qBound s q)) (tlpTo s (qBound s q)) (completionBytes q (queueSt s (qBound s q)).phase o) ::
        s.out ∧
      keepsStores s t) ∧
  (∀ (q : Nat) (s : State), runs s → q < 32768 → exec (.completionWrite q) s = .next (keepStores s (writeCompletion s q)) ∧
    ((queueSt s q).outst = [] → exec (.completionWrite q) s = .next s)) ∧
  (∀ (g : Nat) (s : State), runs s → g < 256 → rdFld s (GRP_STAT g) 1 0 = 1 →
    (max (rdFld s (GRP_MOD g) 15 0) 1 ≤ (groupSt s g).e ∨ ticksSince s (groupSt s g).start (rdFld s (GRP_MOD g) 31 16 * 1250) = true) →
    ∃ t, exec (.moderationHoldoff g) s = .next t ∧ rdFld t (GRP_STAT g) 1 0 = 2 ∧ groupHeld t g = true ∧
      sameElse s t [(GRP_STAT g).addr] ∧ keepsStores s t)

/-- On a running device: L1_ENTRY_REQUEST with the link up and not in L1, ASPM enabled and the port idle for L1_IDLE puts
it in L1; D3HOT_ENTRY shows the power state and Bus Master Enable it names; D0_RETURN shows D0 with Bus Master Enable,
clears PME_PEND and takes the MSI-X enable, masks and entries the host has set, and the messages whose vectors are not
masked leave the PBA; PME_REPEAT sends PM_PME again once 100 ms have passed while PME_PEND stays set and counts it;
FUNCTION_RESET counts FLR_CNT, gives HOST_CTL and HG_VEC their reset values, clears Bus Master Enable, the MSI-X table
and the PBA and ends the active state of every source at the host targets, and where the link went down HOST_STAT
shows no speed or width; PERST_RELEASE releases PERST_N; PCIE_LINK_UP after it shows speed and width. On a running
device MBX_POST with IN_BUSY clear sets it and changes no other register; with IN_BUSY set it counts MBX_REJ and
changes nothing else; MBX_IN_TAKEN clears IN_BUSY and the firmware holds the message; MBX_REPLY with OUT_FULL clear
answers the oldest message held, with the service, tag, status, length and payload of R389, in OUT_MSG and sets
OUT_FULL; MBX_DONE clears OUT_FULL and leaves IN_BUSY as it is. (R385, R386, R387, R402, R488, R388, R389) -/
def Obligations.HostPortAndMailboxes : Prop :=
  (
  ∀ s : State, runs s →
    (∀ (aspm : Bool) (idle : Nat), rdFld s HOST_STAT 2 0 = 0 ∨ rdBit s HOST_STAT 10 = true ∨ aspm = false ∨ idle < rdFld s HOST_CTL 7 0 →
      exec (.l1EntryRequest aspm idle) s = .next s) ∧
    (∀ idle : Nat, rdFld s HOST_STAT 2 0 ≠ 0 → rdBit s HOST_STAT 10 = false → rdFld s HOST_CTL 7 0 ≤ idle →
      ∃ t, exec (.l1EntryRequest true idle) s = .next t ∧ rdBit t HOST_STAT 10 = true ∧ t.out = .l1Request :: s.out ∧
        sameElse s t [HOST_STAT.addr] ∧ keepsStores s t) ∧
    (∀ d3hot bme pmeEn : Bool, ∃ t, exec (.d3hotEntry d3hot bme pmeEn) s = .next t ∧
      rdFld t HOST_STAT 9 8 = (if d3hot then 3 else 0) ∧ rdBit t HOST_STAT 11 = bme ∧ t.pmeEn = pmeEn ∧ keepsStores s t) ∧
    (∀ (msix mask : Bool) (table : List (Nat × MsixEntry)), ∃ t, exec (.d0Return msix mask table) s = .next t ∧ t.msixEn = msix ∧
      t.funcMask = mask ∧ t.msixTable = (table.filter (fun x => x.1 < 2048)).foldl (fun m x => mput m x.1 x.2) s.msixTable ∧
      t.pba = s.pba.filter (fun v => mask || (msixEntry t v).masked) ∧ keepsStores s t ∧
      (s.writable = [] → rdFld t HOST_STAT 9 8 = 0 ∧ rdBit t HOST_STAT 11 = true ∧ rdBit t HOST_STAT 12 = false)) ∧
    (rdBit s HOST_STAT 12 = true → passed s s.pmeAt (msTicks 100) = true →
      ∃ t, exec .pmeRepeat s = .next t ∧ t.out = .pme :: s.out ∧ rd t HOST_PME_CNT = satInc (rd s HOST_PME_CNT) ∧
        sameElse s t [HOST_PME_CNT.addr] ∧ keepsStores s t) ∧
    (∀ kind : ResetKind, ∃ t, exec (.functionReset kind) s = .next t ∧ rd t HOST_CTL = 0x0A ∧ (∀ h < 4, rd t (HOST_HG_VEC h) = wordOf (0x02000000 + 0x200 * h)) ∧
      rdBit t HOST_STAT 11 = false ∧ t.msixEn = false ∧ t.funcMask = false ∧ t.msixTable = [] ∧ t.pba = [] ∧
      t.active = s.active.filter (fun a => a.2.1 < 4) ∧ keepsStores s t ∧
      ((∀ x ∈ s.queues, x.qid < 32768) →
        rdFld t HOST_STAT 2 0 = (if kind = .flr then rdFld s HOST_STAT 2 0 else 0) ∧
        rdFld t HOST_STAT 7 3 = (if kind = .flr then rdFld s HOST_STAT 7 3 else 0))) ∧
    (∃ t, exec .perstRelease s = .next t ∧ t = { s with pins := { s.pins with perstReleased := true } }) ∧
    (∀ (speed : Fin 5) (width : LinkWidth), s.pins.perstReleased = true →
      ∃ t, exec (.pcieLinkUp speed width) s = .next t ∧ rdFld t HOST_STAT 2 0 = speed.val + 1 ∧ rdFld t HOST_STAT 7 3 = width.lanes ∧
        sameElse s t [HOST_STAT.addr] ∧ keepsStores s t)
  ) ∧ (
  ∀ (c : Nat) (s : State), runs s → c < 4 →
    (rdBit s (MBX_STAT c) 0 = false →
      ∃ t, exec (.mbxPost c) s = .next t ∧ rdBit t (MBX_STAT c) 0 = true ∧ rdBit t (MBX_STAT c) 1 = rdBit s (MBX_STAT c) 1 ∧
        sameElse s t [(MBX_STAT c).addr] ∧ keepsStores s t) ∧
    (rdBit s (MBX_STAT c) 0 = true →
      ∃ t, exec (.mbxPost c) s = .next t ∧ rd t (MBX_REJ c) = satInc (rd s (MBX_REJ c)) ∧
        sameElse s t [(MBX_REJ c).addr] ∧ keepsStores s t) ∧
    (∃ t, exec (.mbxInTaken c) s = .next t ∧ rdBit t (MBX_STAT c) 0 = false ∧ rdBit t (MBX_STAT c) 1 = rdBit s (MBX_STAT c) 1 ∧
      sameElse s t [(MBX_STAT c).addr] ∧ keepsStores s t) ∧
    (rdBit s (MBX_STAT c) 0 = true → c < s.mbx.length →
      ∃ t, exec (.mbxInTaken c) s = .next t ∧
        t.mbx.getD c [] = s.mbx.getD c [] ++ [(List.range 16).map (fun k => rd s (MBX_IN_MSG c k))]) ∧
    (s.mbx.getD c [] = [] ∨ rdBit s (MBX_STAT c) 1 = true → exec (.mbxReply c) s = .next s) ∧
    (∀ (m : List Word) (rest : List (List Word)), s.mbx.getD c [] = m :: rest → rdBit s (MBX_STAT c) 1 = false →
      let a := mbxAnswer s m
      ∃ t, exec (.mbxReply c) s = .next t ∧ rdBit t (MBX_STAT c) 1 = true ∧ t.mbx.getD c [] = rest ∧ keepsStores s t ∧
        fld (rd t (MBX_OUT_MSG c 0)) 7 0 = fld (m.getD 0 0) 7 0 ∧ fld (rd t (MBX_OUT_MSG c 0)) 15 8 = fld (m.getD 0 0) 15 8 ∧
        fld (rd t (MBX_OUT_MSG c 0)) 23 16 = a.1 ∧ fld (rd t (MBX_OUT_MSG c 0)) 31 24 = a.2.length ∧
        (∀ k < (mbxWords m a.1 a.2).length, rd t (MBX_OUT_MSG c k) = (mbxWords m a.1 a.2).getD k 0)) ∧
    (∀ m : List Word, fld (m.getD 0 0) 23 16 = 0 → fld (m.getD 0 0) 31 24 ≤ 60 → m.length = 16 →
      (fld (m.getD 0 0) 7 0 = 0 →
        mbxAnswer s m = (0, ((((m.drop 1).map wordBytes).flatten).take (fld (m.getD 0 0) 31 24)))) ∧
      (∀ g, fld (m.getD 0 0) 7 0 = 1 → s.img.inForce = some g → mbxAnswer s m = (0, padTo 16 g.imageId ++ wordBytes g.build)) ∧
      (1 < fld (m.getD 0 0) 7 0 → (mbxAnswer s m).1 = 1)) ∧
    (∃ t, exec (.mbxDone c) s = .next t ∧ rdBit t (MBX_STAT c) 1 = false ∧ rdBit t (MBX_STAT c) 0 = rdBit s (MBX_STAT c) 0 ∧
      sameElse s t [(MBX_STAT c).addr] ∧ keepsStores s t)
  )

/-- On a running device: MULE_LINK_UP of a paired device whose link is down and not waiting to restart, with no LOS, the
four lanes' headers locked and markers found, locks the four lanes and sends a message with the next sequence number;
the link is up, with EVT.LINK_UP, once the peer's message has come that shows by its RX_SEQ that it has received one
of these; MULE_LINK_TIMEOUT after 100 µs without a valid message takes it down; a detector of one of its lanes and
RESET_LINK alone take an up link down; each counts LINK_DOWN_CNT, sets its event, sets the restart 1 ms later and
diverges every channel of a standby with cause 9; LOS of a lane is kept; MULE_BRINGUP_RESTART at that instant clears
the lanes' lock. MULE_MESSAGE_CORRUPT counts NAK_CNT, sets EVT.ALIVE and discards what follows, once. Where a
condition fails the device stays as it is. (R437, R438, R439, R448, R464) -/
def Obligations.MuleLinkGoesUpAndDown : Prop :=
  ∀ s : State, runs s →
    (∀ lanes : List LaneRx, isPaired s = true → linkUp s = false → s.pair.restartAt = none → s.pair.los = [] → muleAligned lanes = true →
      (s.pair.aligned = false →
        ∃ t, exec (.muleLinkUp lanes none) s = .next t ∧ linkUp t = false ∧ t.pair.aligned = true ∧
          t.pair.firstTx = some s.pair.txSeq ∧ t.pair.txSeq = s.pair.txSeq + 1 ∧ t.pair.lastTx = some s.raw ∧
          (∀ m < 4, rdBit t (MULE_ML_STAT m) 0 = true ∧ rdBit t (MULE_ML_STAT m) 1 = true) ∧ keepsStores s t) ∧
      (s.pair.aligned = true → exec (.muleLinkUp lanes none) s = .next s ∧
        ∀ h : MuleHdr, exec (.muleLinkUp lanes (some h)) s = exec (.idle h) s)) ∧
    (∀ (h : MuleHdr) (q : Word), isPaired s = true → linkUp s = false → s.pair.aligned = true → s.pair.firstTx = some q →
      h.lseq = s.pair.rxSeq →
      ∃ t, exec (.idle h) s = .next t ∧ linkUp t = decide (0 < sdiff h.rxSeq q) ∧ t.pair.lastRx = some s.raw ∧
        (0 < sdiff h.rxSeq q → rdBit t MULE_EVT 0 = true) ∧ keepsStores s t) ∧
    (∀ (lanes : List LaneRx) (h : Option MuleHdr),
      isPaired s = false ∨ linkUp s = true ∨ s.pair.restartAt ≠ none ∨ s.pair.los ≠ [] ∨ muleAligned lanes = false →
      exec (.muleLinkUp lanes h) s = .next s) ∧
    (∀ m < 4, isPaired s = true → linkUp s = true →
      (rdBit s (MULE_ML_STAT m) 0 = true →
        ∃ t, exec (.losAssert (48 + m)) s = .next t ∧ linkUp t = false ∧ rdBit t (MULE_ML_STAT m) 0 = false ∧ m ∈ t.pair.los ∧
          t.pair.aligned = false ∧ rd t MULE_LINK_DOWN_CNT = satInc (rd s MULE_LINK_DOWN_CNT) ∧ keepsStores s t) ∧
      (rdBit s (MULE_ML_STAT m) 1 = true →
        ∃ t, exec (.lolAssert (48 + m)) s = .next t ∧ linkUp t = false ∧ rdBit t (MULE_ML_STAT m) 1 = false ∧
          rd t MULE_LINK_DOWN_CNT = satInc (rd s MULE_LINK_DOWN_CNT) ∧ keepsStores s t) ∧
      (rdBit s (MULE_ML_STAT m) 1 = true → ∀ pcs, headerLoss pcs = true →
        ∃ t, exec (.blockLockLoss (24 + m) pcs) s = .next t ∧ linkUp t = false ∧ rdBit t (MULE_ML_STAT m) 1 = false ∧ keepsStores s t)) ∧
    (linkUp s = true → passed s s.pair.lastRx (usTicks 100) = true →
      ∃ t, exec .muleLinkTimeout s = .next t ∧ linkUp t = false ∧ rd t MULE_LINK_DOWN_CNT = satInc (rd s MULE_LINK_DOWN_CNT) ∧
        rdBit t MULE_EVT 1 = true ∧ t.pair.restartAt = some (s.raw + BitVec.ofNat 48 (msTicks 1)) ∧ keepsStores s t ∧
        (role s = 2 → ∀ n < 16, divCause t n = 9) ∧ (role s ≠ 2 → ∀ n < 16, divCause t n = divCause s n)) ∧
    (linkUp s = false ∨ passed s s.pair.lastRx (usTicks 100) = false → exec .muleLinkTimeout s = .next s) ∧
    (linkUp s = true →
      ∃ t, exec (.resetLink 8) s = .next t ∧ linkUp t = false ∧ rd t MULE_LINK_DOWN_CNT = satInc (rd s MULE_LINK_DOWN_CNT) ∧
        rdBit t MULE_EVT 1 = true ∧ (role s = 2 → ∀ n < 16, divCause t n = 9) ∧ keepsStores s t) ∧
    (∀ τ, s.pair.restartAt = some τ → linkUp s = false → hasCome s τ = true →
      ∃ t, exec .muleBringupRestart s = .next t ∧ t.pair.restartAt = none ∧ (∀ m < 4, rdBit t (MULE_ML_STAT m) 1 = false) ∧
        sameElse s t [(MULE_ML_STAT 0).addr, (MULE_ML_STAT 1).addr, (MULE_ML_STAT 2).addr, (MULE_ML_STAT 3).addr] ∧
        keepsStores s t) ∧
    (∀ τ, s.pair.restartAt = some τ → hasCome s τ = false → exec .muleBringupRestart s = .next s) ∧
    (∀ ty : Byte, isPaired s = false ∨ linkUp s = false ∨ s.pair.skipping = true → exec (.muleMessageCorrupt ty) s = .next s) ∧
    (∀ ty : Byte, isPaired s = true → linkUp s = true → s.pair.skipping = false →
      ∃ t, exec (.muleMessageCorrupt ty) s = .next t ∧ rd t MULE_NAK_CNT = satInc (rd s MULE_NAK_CNT) ∧ rdBit t MULE_EVT 7 = true ∧
        t.pair.skipping = true ∧ t.pair.rxSeq = s.pair.rxSeq ∧ t.pair.txSeq = s.pair.txSeq + 1 ∧ keepsStores s t)

/-- For every message of the Mule link with operands the device takes, on a running device: one longer than LEN allows
leaves the device as it is; else an unpaired device, and a paired one that is discarding or gets a sequence number
already taken, stays as it is; a number ahead of the expected one counts NAK_CNT, starts the discarding and takes
nothing; the expected number is taken: the expected number goes up by one and discarding ends, whatever the message
does. (R436, R438, R439) -/
def Obligations.MuleMessagesInSequence : Prop :=
  ∀ (i : Instr) (h : MuleHdr) (s : State), runs s → i.wf = true → muleHeader i = some h →
    ∃ t, exec i s = .next t ∧ keepsStores s t ∧
      (isPaired s = false ∨ muleFits (muleBody i) = false → t = s) ∧
      (isPaired s = true → h.lseq ≠ s.pair.rxSeq → (s.pair.skipping = true ∨ sdiff h.lseq s.pair.rxSeq < 0) → t = s) ∧
      (isPaired s = true → muleFits (muleBody i) = true → h.lseq ≠ s.pair.rxSeq → s.pair.skipping = false →
        0 ≤ sdiff h.lseq s.pair.rxSeq → t.pair.skipping = true ∧ t.pair.rxSeq = s.pair.rxSeq ∧ rd t MULE_NAK_CNT = satInc (rd s MULE_NAK_CNT)) ∧
      (isPaired s = true → muleFits (muleBody i) = true → h.lseq = s.pair.rxSeq →
        t.pair.rxSeq = s.pair.rxSeq + 1 ∧ t.pair.skipping = false)

/-- On a running device, an accepted message has its effect on the state after its acceptance: IDLE, TEST and GIVE_UP
none; a NAK of a number no longer held takes the link down and one of the next number to send changes nothing; HEALTH
is shown in HR_LAST, counted in HR_RX, and gives ELIG its upper half; REPLAN and a STATE, RESCUE or TOKEN that comes
before its frame are kept by a standby and by nobody else; a TOKEN of an undecided frame decides it; FULL is adopted;
ACK marks its datagrams launched; an AUDIO block of an assigned port is used where the standby has none in use; JOIN
at a Bellwether of the image either forces the IDR of each channel whose measurement agrees or awaits one; JOIN at a
Bellwether of another image takes its channels out of ELIG, and any of these at a device of another role does nothing;
TAKEN shows the peer driving, diverges a standby's channels, and makes a device that drives the net with the same
epoch yield where its PAIR_SIDE is 1. (R436, R439, R441, R443, R445, R446, R449, R451, R454, R458, R459, R460) -/
def Obligations.MuleMessageEffects : Prop :=
  ∀ (h : MuleHdr) (s : State), runs s →
    let r (ty ch : Byte) (body : List Byte) := receive s ty ch h body
    ((r 0x01 0xFF []).2 = .accepted → exec (.idle h) s = .next (keepStores s (r 0x01 0xFF []).1)) ∧
    (∀ p, (r 0x03 0xFF p).2 = .accepted → exec (.test h p) s = .next (keepStores s (r 0x03 0xFF p).1)) ∧
    (∀ (reason : Word) (cf : BitVec 16),
      let b := wordBytes reason ++ leBytes 2 cf.toNat ++ zeros 2
      (r 0x32 0xFF b).2 = .accepted → exec (.giveUp h reason cf) s = .next (keepStores s (r 0x32 0xFF b).1)) ∧
    (∀ e : Word,
      let x := r 0x02 0xFF (wordBytes e ++ zeros 4)
      x.2 = .accepted →
      (e = x.1.pair.txSeq → exec (.nak h e) s = .next (keepStores s x.1)) ∧
      (e ≠ x.1.pair.txSeq → x.1.pair.store.any (fun m => m.lseq = e) = false →
        exec (.nak h e) s = .next (keepStores s (muleDown x.1 3))) ∧
      (e ≠ x.1.pair.txSeq → x.1.pair.store.any (fun m => m.lseq = e) = true →
        ∃ t, exec (.nak h e) s = .next t ∧ t.pair.txSeq = x.1.pair.txSeq ∧ t.pair.store = x.1.pair.store ∧ keepsStores s t)) ∧
    (∀ b : HealthBody,
      let x := r 0x30 0xFF ((b.words.map wordBytes).flatten)
      x.2 = .accepted → b.words.length = 16 →
      ∃ t, exec (.health h b) s = .next t ∧ rd t GOOSE_HR_RX = rd x.1 GOOSE_HR_RX + 1 ∧
        (∀ w < 16, rd t (GOOSE_HR_LAST w) = b.words.getD w 0) ∧ rdFld t MULE_ELIG 31 16 = fld (b.words.getD 0 0) 31 16 ∧
        t.pair.lastHealthRx = some s.raw ∧ t.pair.peerDriving = tbit (b.words.getD 0 0) 8 ∧ keepsStores s t) ∧
    (∀ (n : Nat) (b : TokenBody), n < 16 → n < s.chans.length →
      let x := r 0x10 (BitVec.ofNat 8 n) (tokenBodyBytes b)
      x.2 = .accepted →
      (role x.1 ≠ 2 → exec (.token h n b) s = .next (keepStores s x.1)) ∧
      (role x.1 = 2 → (∀ f ∈ (chan x.1 n).frames, f.k ≠ b.frame) →
        ∃ t, exec (.token h n b) s = .next t ∧ b ∈ (chan t n).tokens ∧ keepsStores s t) ∧
      (∀ f, role x.1 = 2 → (chan x.1 n).frames.find? (fun f => f.k = b.frame && !f.decided) = some f →
        exec (.token h n b) s = .next (keepStores s (applyToken x.1 n f b))) ∧
      ((∃ f ∈ (chan x.1 n).frames, f.k = b.frame) → (chan x.1 n).frames.find? (fun f => f.k = b.frame && !f.decided) = none →
        exec (.token h n b) s = .next (keepStores s x.1))) ∧
    (∀ (n frame : Nat) (rows : List Nat), n < 16 → n < s.chans.length →
      let x := r 0x11 (BitVec.ofNat 8 n) (leBytes 8 frame ++ leBytes 1 rows.length ++ zeros 7 ++ padUp 8 ((rows.map (leBytes 2)).flatten))
      (x.2 = .accepted → role x.1 ≠ 2 → exec (.rescue h n frame rows) s = .next (keepStores s x.1)) ∧
      (x.2 = .accepted → role x.1 = 2 →
      ((chan x.1 n).frames.find? (fun f => f.k = frame && f.rescueHeld) = none →
        ∃ t, exec (.rescue h n frame rows) s = .next t ∧ (frame, rows) ∈ (chan t n).notices ∧ keepsStores s t) ∧
      (∀ f, (chan x.1 n).frames.find? (fun f => f.k = frame && f.rescueHeld) = some f →
        exec (.rescue h n frame rows) s = .next (keepStores s (applyNotice x.1 n f rows))))) ∧
    (∀ (n : Nat) (b : StateBody), n < 16 →
      let x := r 0x12 (BitVec.ofNat 8 n) (stateBytes b)
      x.2 = .accepted → role x.1 ≠ 2 ∨ (chan x.1 n).frames.find? (fun f => f.k = b.frame) = none →
      exec (.state h n b) s = .next (keepStores s x.1)) ∧
    (∀ (n : Nat) (b : StateBody) (f : FrameSt), n < 16 →
      let x := r 0x12 (BitVec.ofNat 8 n) (stateBytes b)
      x.2 = .accepted → role x.1 = 2 → (chan x.1 n).frames.find? (fun f => f.k = b.frame) = some f →
      let y := modFrame x.1 n f.j (fun f => { f with stateSeen := true })
      exec (.state h n b) s = .next (keepStores s (if f.complete then compareState y n f b
        else modChan y n (fun c => { c with states := c.states ++ [(b.frame, b)] })))) ∧
    (∀ (n : Nat) (b : FullBody), n < 16 →
      let x := r 0x13 (BitVec.ofNat 8 n) (fullBytes b)
      x.2 = .accepted → exec (.full h n b) s = .next (keepStores s (if role x.1 = 2 then adoptFull x.1 n b h.epoch else x.1))) ∧
    (∀ (n bd : Nat) (meas : List Byte), n < 16 → n < s.chans.length →
      let x := r 0x14 (BitVec.ofNat 8 n) (leBytes 8 n ++ meas ++ leBytes 8 bd)
      (x.2 = .accepted → role x.1 ≠ 2 → exec (.replanMsg h n meas bd) s = .next (keepStores s x.1)) ∧
      (x.2 = .accepted → role x.1 = 2 → exec (.replanMsg h n meas bd) s = .next (keepStores s (nameReplan x.1 n meas bd))) ∧
      (x.2 = .accepted → role x.1 = 2 → (chan x.1 n).pend = none ∨ noBoundary x.1 n = false →
        ∃ t, exec (.replanMsg h n meas bd) s = .next t ∧ (meas, bd) ∈ (chan t n).named ∧ keepsStores s t)) ∧
    (∀ (p : Nat) (mask : BitVec 16) (b : Nat) (xs : List (List (BitVec 24))), p < 8 →
      let x := r 0x21 (BitVec.ofNat 8 (apChannel s p)) (audioBody p mask b xs)
      x.2 = .accepted →
      exec (.audio h p mask b xs) s = .next (keepStores s (takeAudio x.1 p mask b xs)) ∧
      (role x.1 ≠ 2 ∨ apAssigned x.1 p = false ∨ (apOf x.1 p).blocks.any (fun y => y.1 = b) = true →
        exec (.audio h p mask b xs) s = .next (keepStores s x.1)) ∧
      (role x.1 = 2 → apAssigned x.1 p = true → (apOf x.1 p).blocks.any (fun y => y.1 = b) = false → p < s.aps.length →
        ∃ t, exec (.audio h p mask b xs) s = .next t ∧
          (apOf t p).blocks = keepBlocks (apOf x.1 p).blocks (receivedBlock x.1 p b mask xs) ∧ keepsStores s t)) ∧
    (∀ es, (r 0x20 0xFF (ackBody es)).2 = .accepted →
      (role (r 0x20 0xFF (ackBody es)).1 ≠ 2 → exec (.ack h es) s = .next (keepStores s (r 0x20 0xFF (ackBody es)).1)) ∧
      (role (r 0x20 0xFF (ackBody es)).1 = 2 →
      exec (.ack h es) s = .next (keepStores s (forEach es (r 0x20 0xFF (ackBody es)).1 (fun e s => markLaunched s e))))) ∧
    (∀ b : JoinBody,
      let x := r 0x31 0xFF (joinBytes b)
      x.2 = .accepted →
      exec (.join h b) s = .next (keepStores s (acceptJoin x.1 b)) ∧
      (role x.1 ≠ 1 → exec (.join h b) s = .next (keepStores s x.1)) ∧
      (role x.1 = 1 → bytesWords (padTo 16 b.imageId) ≠ ownImageId x.1 →
        ∃ t, exec (.join h b) s = .next t ∧ keepsStores s t ∧
          ∀ n < 16, b.mask.getLsbD n = true → n ∈ t.pair.refused ∧ rdBit t MULE_ELIG n = false) ∧
      (∀ n, n < 16 → n < s.chans.length → role x.1 = 1 → bytesWords (padTo 16 b.imageId) = ownImageId x.1 →
        maskChannels b.mask = [n] → b.chMeas.getD n [] = s.img.chMeas.getD n [] → rdBit x.1 (CH_STAT n) 0 = true →
        (rdBit x.1 MULE_PAIR_CTL 3 = false ∨ (chan x.1 n).pend ≠ none →
          ∃ t, exec (.join h b) s = .next t ∧ (chan t n).joinWait = true ∧ keepsStores s t) ∧
        (rdBit x.1 MULE_PAIR_CTL 3 = true → (chan x.1 n).pend = none →
          ∃ t, exec (.join h b) s = .next t ∧ (chan t n).joinIdr = true ∧ (CH_IDR_REQ n).addr ∈ (chan t n).dirty ∧
            rdFld t (CH_IDR_REQ n) 7 0 = (rdFld s (CH_IDR_REQ n) 7 0 + 1) % 256 ∧ keepsStores s t))) ∧
    (∀ e : Word,
      let x := r 0x33 0xFF (wordBytes e ++ zeros 4)
      x.2 = .accepted →
      exec (.taken h e) s = .next (keepStores s (peerTook x.1 h.epoch)) ∧
      (∃ t, exec (.taken h e) s = .next t ∧ t.pair.peerDriving = true ∧ keepsStores s t) ∧
      (holdDrive x.1 = false →
        ∃ t, exec (.taken h e) s = .next t ∧ (role x.1 = 2 → ∀ n < 16, divCause t n = 0xB) ∧ keepsStores s t) ∧
      (holdDrive x.1 = true → isPaired x.1 = true → h.epoch = rd x.1 MULE_EPOCH → rdBit x.1 MULE_PAIR_STAT 6 = true →
        ∃ t, exec (.taken h e) s = .next t ∧ holdDrive t = false ∧ role t = 2 ∧ (∀ n < 16, divCause t n = 0xB) ∧ keepsStores s t))

/-- On a running device: CLAIM on a paired device that does not drive the net, with the net low for 10 ms and the link up
or PAIR_SIDE 0, makes it the Bellwether with an epoch one above both; otherwise it is refused: CLAIM_REJ counts and
EVT is set, nothing else. GIVE_UP on a Bellwether makes it a standby with every channel diverged with cause 11,
GIVEUP_CNT counted and the net released; on another device it does nothing. TAKEOVER on a standby that does not drive
the net, with no short of it in the last second, makes it the Bellwether with the next epoch and counts TAKEOVER_CNT;
otherwise it does nothing. HOLD_KEEPER_EXPIRY on a device that drives the net releases it; on another it does nothing.
(R433, R434, R435, R436, R452, R453, R454, R455, R496) -/
def Obligations.ControlOfTheHoldNet : Prop :=
  ∀ s : State, runs s →
    (let low := match s.pins.holdLowSince with
       | none => false
       | some τ => ticksSince s τ (msTicks 10)
     (isPaired s = true → low = true → holdDrive s = false → (linkUp s = true ∨ rdBit s MULE_PAIR_STAT 6 = false) →
        ∃ t, exec (.claimCmd 1) s = .next t ∧ role t = 1 ∧ holdDrive t = true ∧ rdBit t MULE_PAIR_STAT 5 = false ∧
          rd t MULE_EPOCH = wordOf (max (rd s MULE_EPOCH).toNat (rd s MULE_PEER_EPOCH).toNat + 1) ∧
          { kind := 0x0508, unit := 0, channel := channelCode [], lasting := false, time := s.raw, data := rd t MULE_EPOCH } ∈ t.waiting ∧
          keepsStores s t) ∧
     (isPaired s = false ∨ low = false ∨ holdDrive s = true ∨ (linkUp s = false ∧ rdBit s MULE_PAIR_STAT 6 = true) →
        ∃ t, exec (.claimCmd 1) s = .next t ∧ rd t MULE_CLAIM_REJ = satInc (rd s MULE_CLAIM_REJ) ∧ rdBit t MULE_EVT 9 = true ∧
          sameElse s t [MULE_CLAIM_REJ.addr, MULE_EVT.addr] ∧ keepsStores s t)) ∧
    (isPaired s = true → role s = 1 →
      ∃ t, exec (.giveUpCmd 2) s = .next t ∧ role t = 2 ∧ holdDrive t = false ∧ (∀ n < 16, divCause t n = 0xB) ∧
        rd t MULE_GIVEUP_CNT = satInc (rd s MULE_GIVEUP_CNT) ∧ rdBit t MULE_EVT 3 = true ∧ t.pair.deferred = [] ∧ keepsStores s t) ∧
    (role s ≠ 1 → exec (.giveUpCmd 2) s = .next s) ∧
    (role s = 2 → holdDrive s = false → holdShorted s = false → exec .takeover s = .next (keepStores s (takeOver s))) ∧
    (isPaired s = true → role s = 2 → holdDrive s = false → holdShorted s = false →
      (∀ n < 16, ∀ f ∈ (chan s n).frames, f.rescueHeld = false) → (∀ x ∈ s.streams, x.id < 1024) →
      ∃ t, exec .takeover s = .next t ∧ role t = 1 ∧ holdDrive t = true ∧ rd t MULE_EPOCH = rd s MULE_EPOCH + 1 ∧
        rd t MULE_TAKEOVER_CNT = satInc (rd s MULE_TAKEOVER_CNT) ∧ rdBit t MULE_EVT 2 = true ∧ t.pair.peerDriving = false ∧
        keepsStores s t) ∧
    (role s ≠ 2 ∨ holdDrive s = true ∨ holdShorted s = true → exec .takeover s = .next s) ∧
    (holdDrive s = true →
      ∃ t, exec .holdKeeperExpiry s = .next t ∧ holdDrive t = false ∧ rd t MULE_GIVEUP_CNT = satInc (rd s MULE_GIVEUP_CNT) ∧
        (isPaired s = true → role t = 2 ∧ ∀ n < 16, divCause t n = 0xB) ∧ keepsStores s t) ∧
    (holdDrive s = false → exec .holdKeeperExpiry s = .next s)

/-- On a running device: IDLE_SEND with the link up, or its lanes aligned, and nothing sent for 10 µs sends one message;
HEALTH_SEND of a paired device sends HEALTH each 100 ms and HEALTH_MISS after 250 ms without one counts HR_MISS and
sets EVT; ACK_SEND on a Bellwether sends what is due at most each 1 µs and then nothing is due; with the link down it
stays due. A standby whose token has not come by its instant decides the frame itself and counts TOKEN_LATE; one whose
rescue notice has not come by the deadline rescues every row of none and diverges; one whose STATE has not come marks
the frame; one whose audio block has not come takes its own and diverges. JOIN asks for the diverged channels of
JOIN_MASK, AUTO_JOIN for every one not asked for within a second. EYE_MEASURE shows the margins of the lanes of ports
that are up. (R437, R442, R443, R444, R446, R449, R457, R458, R459) -/
def Obligations.RunningInStep : Prop :=
  ∀ s : State, runs s →
    ((linkUp s = false ∧ s.pair.aligned = false) ∨ passed s s.pair.lastTx (usTicks 10) = false → exec .idleSend s = .next s) ∧
    (isPaired s = false ∨ passed s s.pair.lastHealthTx (msTicks 100) = false → exec .healthSend s = .next s) ∧
    (isPaired s = false ∨ passed s s.pair.lastHealthRx (msTicks 250) = false → exec .healthMiss s = .next s) ∧
    (role s ≠ 1 ∨ linkUp s = false ∨ passed s s.pair.lastAck (usTicks 1) = false ∨ s.pair.ackDue = [] → exec .ackSend s = .next s) ∧
    (linkUp s = true ∨ s.pair.aligned = true → passed s s.pair.lastTx (usTicks 10) = true →
      ∃ t, exec .idleSend s = .next t ∧ t.pair.txSeq = s.pair.txSeq + 1 ∧ t.pair.lastTx = some s.raw ∧ keepsStores s t) ∧
    (isPaired s = true → linkUp s = true → passed s s.pair.lastHealthTx (msTicks 100) = true →
      ∃ t, exec .healthSend s = .next t ∧ rd t GOOSE_HR_TX = rd s GOOSE_HR_TX + 1 ∧ t.pair.lastHealthTx = some s.raw ∧
        t.pair.txSeq = s.pair.txSeq + 1 ∧ keepsStores s t) ∧
    (isPaired s = true → passed s s.pair.lastHealthRx (msTicks 250) = true →
      ∃ t, exec .healthMiss s = .next t ∧ rd t GOOSE_HR_MISS = satInc (rd s GOOSE_HR_MISS) ∧ rdBit t GOOSE_ST_EVT 2 = true ∧
        sameElse s t [GOOSE_HR_MISS.addr, GOOSE_ST_EVT.addr] ∧ keepsStores s t) ∧
    (role s = 1 → linkUp s = true → passed s s.pair.lastAck (usTicks 1) = true → s.pair.ackDue ≠ [] →
      ∃ t, exec .ackSend s = .next t ∧ t.pair.ackDue = [] ∧ t.pair.lastAck = some s.raw ∧
        t.pair.txSeq = s.pair.txSeq + 1 ∧ keepsStores s t) ∧
    (∀ (n : Nat) (f : FrameSt), n < 16 → role s = 2 →
      (oldest s n (fun f => !f.decided) = some f → (chan s n).dead = false →
        reached s (f.start + ((f.grid.num / (10 * max 1 f.grid.den) : Nat) : Int)) = true →
        ∃ t, exec (.tokenTimeout n) s = .next t ∧ t = keepStores s (diverge (count (decideOwn s n f) MULE_TOKEN_LATE) n 0x2) ∧
          rd t MULE_TOKEN_LATE = satInc (rd s MULE_TOKEN_LATE) ∧ divCause t n = 2 ∧ keepsStores s t) ∧
      (oldest s n (fun f => f.rescueHeld) = some f → reached s f.deadline = true →
        ∃ t, exec (.rescueNoticeTimeout n) s = .next t ∧
          t = keepStores s (diverge (applyNotice s n f (f.rends.map (fun _ => 0xFFFF))) n 0x3) ∧ keepsStores s t) ∧
      (oldest s n (fun f => f.started && !f.stateSeen) = some f → n < s.chans.length →
        reached s (gAt f.grid (f.j + f.plan.delay + 1) + 1100000) = true →
        ∃ t, exec (.stateTimeout n) s = .next t ∧ (∀ x ∈ (chan t n).frames, x.j = f.j → x.stateSeen = true) ∧
          (chan t n).joinWait = false ∧ divCause t n = 6 ∧ keepsStores s t)) ∧
    (∀ (p b : Nat) (own : AudioBlock), p < 8 → role s = 2 → apAssigned s p = true →
      (apOf s p).blocks.any (fun x => x.1 = b) = false → (apOf s p).shadows.find? (fun x => x.1 = b) = some own →
      reached s (blockTime (rdBit s (AP_CFG p) 2) (b + 1) + 1000000) = true →
      exec (.audioBlockTimeout p b) s = .next (keepStores s (diverge (usePortBlock s p own) (apChannel s p) 0x8)) ∧
      ∃ t, exec (.audioBlockTimeout p b) s = .next t ∧ (apOf t p).blocks = keepBlocks (apOf s p).blocks own ∧ keepsStores s t) ∧
    (∀ n < 16, n < s.chans.length → linkUp s = true → role s = 2 → divCause s n ≠ 0 →
      (rdBit s MULE_JOIN_MASK n = true →
        ∃ t, exec (.joinCmd 4) s = .next t ∧ (chan t n).joinWait = true ∧ (chan t n).lastJoin = some s.raw ∧
          t.pair.txSeq = s.pair.txSeq + 1 ∧ keepsStores s t) ∧
      (rdBit s MULE_PAIR_CTL 4 = true → rd s MULE_EPOCH = rd s MULE_PEER_EPOCH →
        ownImageId s = (List.range 4).map (fun w => rd s (GOOSE_HR_LAST (w + 2))) → rdBit s (CH_STAT n) 0 = true →
        passed s (chan s n).lastJoin (secTicks 1) = true →
        ∃ t, exec .autoJoin s = .next t ∧ (chan t n).joinWait = true ∧ (chan t n).lastJoin = some s.raw ∧ keepsStores s t)) ∧
    (∀ margins : List (Nat × Nat × Nat), rdBit s GOOSE_ST_CTL 0 = true →
      passed s s.pair.lastEye (secTicks (max 1 (rdFld s GOOSE_ST_CTL 31 16))) = true →
      ∃ t, exec (.eyeMeasure margins) s = .next t ∧ t.pair.lastEye = some s.raw ∧ keepsStores s t ∧
        (∀ l x y, margins = [(l, x, y)] → l < 48 → rdFld s (LN_STAT l) 10 5 < 24 → rdFld s (P_PORT_STATE (rdFld s (LN_STAT l) 10 5)) 2 0 = 5 →
          x < 256 → y < 256 → rdFld t (LN_EYE_MARGIN l) 7 0 = x ∧ rdFld t (LN_EYE_MARGIN l) 15 8 = y ∧ t.pair.eyeLeast = (x, y)))

/-- The interpolated value of a trim lies between the two set values and is the set's own at its temperature; the
acceptance rule accepts the mean of the first pair within the tolerance, else of the retry pair, else nothing; the
voltage asked for stays within 700 to 850 mV and moves by at most 5 mV. On a running device TRIM_INTERPOLATION, once a
second, makes the interpolated value of a trim that waits for a boundary and is not HELD its pending value; a
training's CALIBRATION_RESULT, whose pairs for groups 2 and 3 are what the sweeps of the trim left and which does
nothing where they left none, is pending and HELD, counted and stamped where the rule accepts it, and written into the
set Tj lies near so that the set's current copy is the other one and holds it, and is only counted where the rule
rejects it. A result of groups 4 to 6 is judged when its trim is in hand, and the group goes on; another changes
nothing. CAL_CMD and CAL_PERIODIC start groups 4 to 6. SENSOR_CONVERSION shows the readings, sets WARN and LIMIT and
handles DDR_RST_N by VS[5]. AVS_DECISION requests the voltage of the procedure and holds it under FAULT; AVS_READBACK
shows the voltage read, a free value where it does not fit the field, and counts failures, three of which set FAULT.
(R470, R471, R472, R473, R474, R475, R476, R477, R478, R479, R484) -/
def Obligations.CalibrationSensorsAndVoltage : Prop :=
  (∀ lo hi tj : Nat, tj ≤ 800 → min lo hi ≤ interpolate lo hi tj ∧ interpolate lo hi tj ≤ max lo hi) ∧
  (∀ lo hi k : Nat, (k < 4 → interpolate lo hi (200 * k) = lo) ∧ interpolate lo hi 800 = hi) ∧
  (∀ tol a b c d : Nat,
    let near := fun (x y : Nat) => x ≤ y + tol ∧ y ≤ x + tol
    (near a b → acceptRule tol a b c d = (some ((a + b) / 2), false)) ∧
    (¬near a b → near c d → acceptRule tol a b c d = (some ((c + d) / 2), true)) ∧
    (¬near a b → ¬near c d → acceptRule tol a b c d = (none, true))) ∧
  (∀ (tj warn : Int) (m : Option Nat) (tgt v : Nat), 700 ≤ v → v ≤ 850 →
    let w := avsNext true tj warn m tgt v
    700 ≤ w ∧ w ≤ 850 ∧ w ≤ v + 5 ∧ v ≤ w + 5 ∧ (warn ≤ tj → w ≤ v) ∧ avsNext false tj warn m tgt v = 750) ∧
  (∀ s : State, runs s →
    (passed s s.cal.lastInterp (secTicks 1) = false → exec .trimInterpolation s = .next s) ∧
    (passed s s.cal.lastInterp (secTicks 1) = true →
      ∃ t, exec .trimInterpolation s = .next t ∧ t.cal.lastInterp = some s.raw ∧ sameElse s t [CAL_STAT.addr] ∧ keepsStores s t ∧
        ∀ n, n < s.cal.trims.length → trimGroup n ≠ 4 → trimGroup n ≠ 6 →
          (trimOf t n).cur = (trimOf s n).cur ∧ (trimOf t n).heldAt = (trimOf s n).heldAt ∧
          ((trimOf s n).heldAt.isSome = true → (trimOf t n).pend = (trimOf s n).pend) ∧
          ((trimOf s n).heldAt = none → (trimOf t n).pend =
            (if BitVec.ofNat 10 (interpolated s n) = (trimOf s n).cur then none else some (BitVec.ofNat 10 (interpolated s n)))))) ∧
  (∀ (n : Nat) (a b c d : BitVec 10) (ok : Bool) (s : State), runs s → 208 ≤ n → n < 624 → offerOf s n = none →
    exec (.calibrationResult n a b c d ok) s = .next s) ∧
  (∀ (n p q u w : Nat) (a b c d : BitVec 10) (ok : Bool) (s : State), runs s → n < 624 → n < s.cal.trims.length →
    p < 1024 → q < 1024 → u < 1024 → w < 1024 →
    (if n < 208 then some (a.toNat, b.toNat, c.toNat, d.toNat) else offerOf s n) = some (p, q, u, w) →
    let g := trimGroup n
    let r := acceptRule (trimTolerance n) p q u w
    (∃ t, exec (.calibrationResult n a b c d ok) s = .next t ∧ (208 ≤ n → offerOf t n = none)) ∧
    (r.1 = none → ∃ t, exec (.calibrationResult n a b c d ok) s = .next t ∧ rd t (CAL_REJ_CNT g) = satInc (rd s (CAL_REJ_CNT g)) ∧
      rd t (CAL_RETRY_CNT g) = satInc (rd s (CAL_RETRY_CNT g)) ∧ rdBit t CAL_EVT (8 + g) = true ∧ t.cal = s.cal ∧
      sameElse s t [(CAL_REJ_CNT g).addr, (CAL_RETRY_CNT g).addr, CAL_EVT.addr] ∧ keepsStores s t) ∧
    (∀ v, r.1 = some v →
      ∃ t, exec (.calibrationResult n a b c d ok) s = .next t ∧ (trimOf t n).pend = some (BitVec.ofNat 10 v) ∧
        (trimOf t n).heldAt = some (tjNow s) ∧ (trimOf t n).cur = (trimOf s n).cur ∧ rd t (CAL_CNT g) = satInc (rd s (CAL_CNT g)) ∧
        rd t (CAL_RETRY_CNT g) = (if r.2 then satInc (rd s (CAL_RETRY_CNT g)) else rd s (CAL_RETRY_CNT g)) ∧
        rd t (CAL_LAST_TIME_LO g) = wordOf s.raw.toNat ∧ rdBit t CAL_EVT g = true ∧ t.dev = s.dev ∧ t.fuses = s.fuses ∧ t.raw = s.raw ∧
        (nearSets (tjNow s) = [] → t.nv = s.nv) ∧
        (∀ k cb, ok = true → k ∈ nearSets (tjNow s) → currentCopy s k = some cb →
          currentCopy t k = some (!cb) ∧ setTrim t (setBase k (!cb)) n = v ∧
          (∀ m < 669, m ≠ n → setTrim t (setBase k (!cb)) m = setTrim s (setBase k cb) m) ∧
          (∀ x < 0x1000, byteAt t.nv (setBase k cb + x) = byteAt s.nv (setBase k cb + x))))) ∧
  (∀ (v : Word) (s : State), runs s →
    (∀ (n : Nat) (a b c d : BitVec 10) (ok : Bool), 624 ≤ n → n < 669 →
      let g := trimGroup n
      let inHand : Prop := groupRuns s g = true ∧ groupTurn s g = n ∧ (g = 4 → refInUse s = true)
      (inHand → exec (.calibrationResult n a b c d ok) s = .next (keepTime s (nextTrim (judgeTrim s n a.toNat b.toNat c.toNat d.toNat ok) g))) ∧
      (¬inHand → exec (.calibrationResult n a b c d ok) s = .next s)) ∧
    (v &&& 0x70 = 0 → exec (.calCmd v) s = .next s) ∧
    (∃ t, exec (.calCmd v) s = .next t ∧ (∀ g, 4 ≤ g → g ≤ 6 → groupRuns t g = (groupRuns s g || tbit v g)) ∧
      (∀ g, 4 ≤ g → g ≤ 6 → groupRuns s g = true → tbit v g = true → t.cal.again.getLsbD g = true) ∧ keepsStores s t) ∧
    (rdBit s CAL_CTL 0 = true → passed s s.cal.lastRun (secTicks (calPeriod s)) = true →
      ∃ t, exec .calPeriodic s = .next t ∧ t.cal.lastRun = some s.raw ∧ (∀ g, 4 ≤ g → g ≤ 6 → groupRuns t g = true) ∧ keepsStores s t) ∧
    (rdBit s CAL_CTL 0 = false ∨ passed s s.cal.lastRun (secTicks (calPeriod s)) = false → exec .calPeriodic s = .next s)) ∧
  (∀ (ts : Vector Int 20) (vs : Vector Nat 8) (s : State), runs s →
    (passed s s.cal.lastConv (usTicks 100) = false → exec (.sensorConversion ts vs) s = .next s) ∧
    (passed s s.cal.lastConv (usTicks 100) = true → (∀ x ∈ s.streams, x.id < 1024) → (∀ k ∈ s.systemPair, 2 ≤ k ∧ k < 10) →
      ∃ t, exec (.sensorConversion ts vs) s = .next t ∧ t.cal.lastConv = some s.raw ∧ keepsStores s t ∧
        (∀ n < 20, rdBit s (CAL_TS n) 12 = false →
          (BitVec.ofNat 12 (rdFld t (CAL_TS n) 11 0)).toInt = max (-320) (min (ts.toList.getD n 0) 1200)) ∧
        (∀ n < 8, rdBit s (CAL_VS n) 12 = false → rdFld t (CAL_VS n) 10 0 = min 2047 (vs.toList.getD n 0)) ∧
        (∀ n < 20, (BitVec.ofNat 12 (rdFld t (CAL_TS n) 11 0)).toInt ≤ tjNow t) ∧
        (warnAt s ≤ tjNow t → rdBit t CAL_PWR_EVT 0 = true) ∧ (800 ≤ tjNow t → rdBit t CAL_PWR_EVT 1 = true) ∧
        (rdBit s (CAL_VS 5) 12 = false → vs.toList.getD 5 0 < 1067 → t.pins.ddrRst = false) ∧
        (rdBit s (CAL_VS 5) 12 = false → 1067 ≤ vs.toList.getD 5 0 → rdFld s GLB_STAT 2 0 = 1 →
          t.pins.ddrRst = true ∧ rdFld t GLB_STAT 2 0 = 2 ∧ groupRuns t 5 = true ∧ groupRuns t 6 = true))) ∧
  (∀ (spd : Vector (BitVec 16) 16) (s : State), runs s → passed s s.cal.lastAvs (msTicks 1) = false →
    exec (.avsDecision spd) s = .next s) ∧
  (∀ (spd : Vector (BitVec 16) 16) (s : State), runs s → passed s s.cal.lastAvs (msTicks 1) = true →
    ∃ t, exec (.avsDecision spd) s = .next t ∧ t.cal.lastAvs = some s.raw ∧ keepsStores s t ∧
      (∀ c < 16, rdBit s (CAL_SPD c) 16 = false → rdFld t (CAL_SPD c) 15 0 = (spd.toList.getD c 0).toNat) ∧
      (rdBit s CAL_AVS_STAT 26 = true → vreq t = vreq s ∧ t.out = s.out) ∧
      (rdBit s CAL_AVS_STAT 26 = false →
        vreq t = avsNext (rdBit s CAL_AVS_CTL 0) (tjNow s) (warnAt s) ((leastSpeed t).map (fun x => x.1)) (rdFld s CAL_AVS_CTL 31 16) (vreq s) ∧
        t.out = (if vreq t = vreq s then s.out else .avsTarget (vreq t) :: s.out))) ∧
  (∀ (x : Option Nat) (s : State), runs s → passed s s.cal.lastRead (msTicks 10) = false →
    exec (.avsReadback x) s = .next s) ∧
  (∀ s : State, runs s → passed s s.cal.lastRead (msTicks 10) = true →
    (∀ mv, rdBit s GLB_PIN_STAT 10 = false →
      ∃ t, exec (.avsReadback (some mv)) s = .next t ∧ rdFld t CAL_AVS_STAT 25 16 = vreadShown s mv ∧
        (mv < 1024 → rdFld t CAL_AVS_STAT 25 16 = mv) ∧ t.cal.vread = mv ∧ vreq t = vreq s ∧ t.cal.avsFails = 0 ∧
        t.cal.lastRead = some s.raw ∧ keepsStores s t) ∧
    (∀ x : Option Nat, x = none ∨ rdBit s GLB_PIN_STAT 10 = true →
      ∃ t, exec (.avsReadback x) s = .next t ∧ rdFld t CAL_AVS_STAT 25 16 = rdFld s CAL_AVS_STAT 25 16 ∧ vreq t = vreq s ∧
      t.cal.avsFails = s.cal.avsFails + 1 ∧ (2 ≤ s.cal.avsFails → rdBit t CAL_AVS_STAT 26 = true ∧
        (rdBit s CAL_AVS_STAT 26 = false → rdBit t CAL_PWR_EVT 2 = true)) ∧ keepsStores s t))

/-- POWER_ON_RESET_RELEASE of a device that is not shut down starts it at t0: the counter at 0 in holdover, the straps
latched and shown, 750 mV requested, no image, stage 1, every supported memory in the full training of all its targets
with no capacity in service yet, the fuses, the store and the cause latch as they were; a device shut down stays so.
PORST_N puts a running device in reset with its cause, and the loss of VDDIO any device with POWER; a brown-out of
another rail likewise with its rails. THERMAL_SHUTDOWN of a running device drives THERMTRIP_N, releases BW_HOLD and
stops it. A short sets its class bit and counts its onset once, one of BW_HOLD makes the device release the net, one
of a DDR_RST_N fails its channel; SHORT_CLEARED clears the bit. HOLD_STUCK_HIGH and DIODE_SENSE set their bits. (R477,
R485, R486, R487, R492, R493, R495, R496, R505) -/
def Obligations.PowerAndPins : Prop :=
  (∀ (boot side : Bool) (dimms : Vector (List Dimm) 8) (s : State),
    (s.power = .tripped → exec (.powerOnResetRelease boot side dimms) s = .next s) ∧
    (s.power ≠ .tripped →
      ∃ t, exec (.powerOnResetRelease boot side dimms) s = .next t ∧ t.power = .running ∧ t.raw = 0 ∧ rdBit t TIM_STAT 1 = true ∧
        rdBit t TIM_STAT 0 = false ∧ t.pins.bootSel = boot ∧ t.pins.pairSide = side ∧ rdBit t MULE_PAIR_STAT 6 = side ∧
        rdBit t IMG_BOOT_INFO 2 = boot ∧ rdFld t GLB_STAT 2 0 = 1 ∧ t.img.inForce = none ∧ t.dev = [] ∧ t.fuses = s.fuses ∧ t.nv = s.nv ∧
        t.latch = s.latch ∧ t.pending = s.pending ∧ t.out = .avsTarget 750 :: s.out ∧ oxState t 0 = 1 ∧ oxState t 1 = 1 ∧
        (oxOf t 0).fullFor = List.range 32 ∧ (oxOf t 1).fullFor = List.range 32 ∧ (∀ i < 10, rd t (OX_CAP_MIB i) = 0) ∧
        ∀ i, 2 ≤ i → i < 10 → oxState t i = (match dimms.toList.getD (i - 2) [] with
          | [] => 0
          | d :: more => if channelSupported (d :: more) then 1 else 5) ∧
          (∀ d more, dimms.toList.getD (i - 2) [] = d :: more → channelSupported (d :: more) = true →
            (oxOf t i).fullFor = List.range (d.ranks * (1 + more.length)) ∧ (oxTargets t i).length = d.ranks * (1 + more.length)))) ∧
  (∀ (s : State),
    let inReset := fun (c : Instr) (l : CauseLatch) =>
      ∃ t, exec c s = .next t ∧ t.power = .held ∧ t.latch = l ∧ t.regs = State.reset.regs ∧ t.fuses = s.fuses ∧ t.nv = s.nv ∧ t.out = s.out ∧
        t.pending = s.pending
    inReset (.porstAssert true) { power := true, porst := false, brownout := false, rails := 0 } ∧
    (s.power = .running → inReset (.porstAssert false) { power := false, porst := true, brownout := false, rails := 0 }) ∧
    (s.power ≠ .running → exec (.porstAssert false) s = .next s ∧ exec .thermalShutdown s = .next s) ∧
    (∀ rails : BitVec 8,
      (rails.getLsbD 2 = true → inReset (.brownout rails) { power := true, porst := false, brownout := false, rails := 0 }) ∧
      (rails.getLsbD 2 = false → rails ≠ 0 → s.power = .running →
        inReset (.brownout rails) { power := false, porst := false, brownout := true, rails := rails })) ∧
    (s.power = .running →
      ∃ t, exec .thermalShutdown s = .next t ∧ t.power = .tripped ∧ t.pins.thermTrip = true ∧ holdDrive t = false ∧
        t.waiting.length = s.waiting.length + 1 ∧ t.raw = s.raw ∧ t.fuses = s.fuses ∧ t.nv = s.nv ∧ t.dev = s.dev ∧ t.pending = s.pending)) ∧
  (∀ (cls : PinClass) (ox : Nat) (s : State), runs s →
    let kills : Prop := cls = .ddrRst ∧ 2 ≤ ox ∧ ox < 10 ∧ 1 ≤ oxState s ox ∧ oxState s ox ≤ 3
    (rdBit s GLB_PIN_STAT cls.bit = true → exec (.pinShort cls ox) s = .next s) ∧
    (rdBit s GLB_PIN_STAT cls.bit = false → exec (.shortCleared cls) s = .next s) ∧
    (rdBit s GLB_PIN_STAT cls.bit = false → kills → (∀ x ∈ s.streams, x.id < 1024) → (∀ k ∈ s.systemPair, 2 ≤ k ∧ k < 10) →
      ∃ t, exec (.pinShort cls ox) s = .next t ∧ rdBit t GLB_PIN_STAT cls.bit = true ∧ oxState t ox = 4 ∧
        rd t GLB_PIN_SHORT_CNT = satInc (rd s GLB_PIN_SHORT_CNT) ∧ keepsStores s t) ∧
    (rdBit s GLB_PIN_STAT cls.bit = false → ¬kills →
      ∃ t, exec (.pinShort cls ox) s = .next t ∧ rdBit t GLB_PIN_STAT cls.bit = true ∧ rd t GLB_PIN_SHORT_CNT = satInc (rd s GLB_PIN_SHORT_CNT) ∧
        (cls ≠ .bwHold → sameElse s t [GLB_PIN_STAT.addr, GLB_PIN_SHORT_CNT.addr]) ∧
        (cls = .bwHold → holdDrive s = true → holdDrive t = false) ∧ keepsStores s t) ∧
    (rdBit s GLB_PIN_STAT cls.bit = true →
      ∃ t, exec (.shortCleared cls) s = .next t ∧ rdBit t GLB_PIN_STAT cls.bit = false ∧ (cls = .bwHold → t.pins.holdShortEnd = some s.raw) ∧
        sameElse s t [GLB_PIN_STAT.addr] ∧ keepsStores s t)) ∧
  (∀ (reversed isOpen : Bool) (s : State), runs s →
    (isPaired s = true → holdDrive s = false → s.pair.peerDriving = false →
      ∃ t, exec .holdStuckHigh s = .next t ∧ rdBit t GLB_PIN_STAT 2 = true ∧ sameElse s t [GLB_PIN_STAT.addr, MULE_PAIR_STAT.addr] ∧
        keepsStores s t) ∧
    (isPaired s = false ∨ holdDrive s = true ∨ s.pair.peerDriving = true → exec .holdStuckHigh s = .next s) ∧
    (passed s s.pins.lastDiode (secTicks 1) = false → exec (.diodeSense reversed isOpen) s = .next s) ∧
    (passed s s.pins.lastDiode (secTicks 1) = true →
      ∃ t, exec (.diodeSense reversed isOpen) s = .next t ∧ rdBit t GLB_PIN_STAT 1 = (rdBit s GLB_PIN_STAT 1 || reversed) ∧
        rdBit t GLB_PIN_STAT 0 = (rdBit s GLB_PIN_STAT 0 || isOpen) ∧ sameElse s t [GLB_PIN_STAT.addr] ∧ keepsStores s t))

/-- Every command whose operands name units the device has, a sector request at an address it has, answers a next state in
every state; every other command of operands the device does not have is refused as such; a fault is only ever that of
a sector request, on a running device, outside the installed memory. (R5, R339, spec/00_scope.md) -/
def Obligations.EveryCommandTheDeviceTakesAnswers : Prop :=
  (∀ (i : Instr) (s : State), takes s i → ∃ t, exec i s = .next t) ∧
  (∀ (i : Instr) (s : State), i.wf = false → exec i s = .refused .noSuchUnit) ∧
  (∀ (i : Instr) (s : State) (f : Fault), exec i s = .fault f → f = .noSuchAddress ∧ runs s ∧
    ∃ x a w, i = .memoryRequest x a w ∧ inRange s x a = false)

/-- A step from a state whose byte stores are in canonical form that answers a next state leaves them so. No step clears
an enrolled or a revoked slot or lowers the minimum SVN, and only VERIFY_COMPLETE changes a fuse. A command other than
the release of reset, PORST_N, a brown-out and the thermal shutdown leaves the raw counter, the power state and the
cause latch as they are, and every command leaves the queue as it is; a command that stores nothing leaves device
memory and the ferroelectric store byte for byte as they were. (R53, R54, R70, R293, R342) -/
def Obligations.StoresFusesAndTimeUnderEveryStep : Prop :=
  (∀ s t : State, storesWf s → step s = .next t → storesWf t) ∧
  (∀ s t : State, step s = .next t → s.fuses.floor ≤ t.fuses.floor ∧
    ∀ k < 4, (s.fuses.enrolled.getLsbD k = true → t.fuses.enrolled.getLsbD k = true) ∧
      (s.fuses.revoked.getLsbD k = true → t.fuses.revoked.getLsbD k = true)) ∧
  (∀ (i : Instr) (s t : State), exec i s = .next t → t.pending = s.pending ∧
    (t.fuses ≠ s.fuses → ∃ r, i = .verifyComplete r) ∧
    ((∀ b d x, i ≠ .powerOnResetRelease b d x) → (∀ b, i ≠ .porstAssert b) → (∀ r, i ≠ .brownout r) → i ≠ .thermalShutdown →
      t.raw = s.raw ∧ t.power = s.power ∧ t.latch = s.latch ∧
      ((∀ o, i ≠ .imageStaged o) → (∀ r, i ≠ .verifyComplete r) → (∀ a b, i ≠ .quote a b) → (∀ a, i ≠ .treeBuilt a) →
        (∀ x a w, i ≠ .memoryRequest x a w) → (∀ x a b c, i ≠ .readComplete x a b c) → (∀ x a b c, i ≠ .patrolRead x a b c) →
        (∀ n a b c d o, i ≠ .calibrationResult n a b c d o) → (∀ m v hw, i ≠ .registerWrite m IMG_ATT_CMD.addr v hw) →
        (∀ a, byteAt t.dev a = byteAt s.dev a) ∧ (∀ a, byteAt t.nv a = byteAt s.nv a))))
end

