-- ==== Sys2Proof/Laws/Map.lean ====
section
/-!
SUPPORT. Sparse maps and byte stores: what a read finds after a write, and that every write keeps the canonical form.
-/
namespace Sys2Proof.Machine

variable {α : Type}

/-! ### Reads after writes -/

@[simp] theorem mget_nil (a : Nat) : mget ([] : List (Nat × α)) a = none := rfl

@[simp] theorem mget_mput_self (m : List (Nat × α)) (a : Nat) (v : α) : mget (mput m a v) a = some v := by
  induction m with
  | nil => simp [mput, mget]
  | cons c m ih =>
    obtain ⟨k, w⟩ := c
    by_cases h : a < k
    · simp [mput, mget, h]
    · by_cases e : a = k
      · simp [mput, mget, e]
      · have e' : ¬ k = a := fun x => e x.symm
        simp [mput, mget, h, e, e', ih]

theorem mget_mput_ne (m : List (Nat × α)) {a b : Nat} (v : α) (hab : b ≠ a) : mget (mput m a v) b = mget m b := by
  have hab' : ¬ a = b := fun x => hab x.symm
  induction m with
  | nil => simp [mput, mget, hab']
  | cons c m ih =>
    obtain ⟨k, w⟩ := c
    by_cases h : a < k
    · simp [mput, mget, h, hab']
    · by_cases e : a = k
      · subst e; simp [mput, mget, hab']
      · simp only [mput, h, e, if_false, mget]; split <;> simp_all

@[simp] theorem mget_mdel_self (m : List (Nat × α)) (a : Nat) : mget (mdel m a) a = none := by
  induction m with
  | nil => rfl
  | cons c m ih =>
    obtain ⟨k, w⟩ := c
    by_cases e : k = a <;> simp [mdel, mget, e, ih]

theorem mget_mdel_ne (m : List (Nat × α)) {a b : Nat} (hab : b ≠ a) : mget (mdel m a) b = mget m b := by
  induction m with
  | nil => rfl
  | cons c m ih =>
    obtain ⟨k, w⟩ := c
    by_cases e : k = a
    · subst e
      have : ¬ k = b := fun x => hab x.symm
      simp [mdel, mget, this, ih]
    · simp only [mdel, e, if_false, mget]; split <;> simp_all

@[simp] theorem mget_mset_self [DecidableEq α] (d : α) (m : List (Nat × α)) (a : Nat) (v : α) :
    (mget (mset d m a v) a).getD d = v := by
  unfold mset; split <;> simp_all

theorem mget_mset_ne [DecidableEq α] (d : α) (m : List (Nat × α)) {a b : Nat} (v : α) (hab : b ≠ a) :
    mget (mset d m a v) b = mget m b := by
  unfold mset; split
  · exact mget_mdel_ne m hab
  · exact mget_mput_ne m v hab

/-! ### The canonical form -/

/-- Every key of a map is above a bound. -/
def keysAbove (n : Nat) (m : List (Nat × α)) : Prop := ∀ c ∈ m, n < c.1

theorem keysRise_cons (a : Nat) (v : α) (m : List (Nat × α)) :
    keysRise ((a, v) :: m) = true ↔ keysAbove a m ∧ keysRise m = true := by
  induction m generalizing a v with
  | nil => simp [keysRise, keysAbove]
  | cons c m ih =>
    obtain ⟨b, w⟩ := c
    simp only [keysRise, Bool.and_eq_true, decide_eq_true_eq]
    constructor
    · rintro ⟨hab, h⟩
      refine ⟨?_, h⟩
      intro x hx
      rcases List.mem_cons.mp hx with e | e
      · subst e; exact hab
      · exact Nat.lt_trans hab (((ih b w).mp h).1 x e)
    · rintro ⟨h1, h2⟩
      exact ⟨h1 (b, w) (List.mem_cons_self ..), h2⟩

theorem keysAbove_mput {n : Nat} {m : List (Nat × α)} {a : Nat} {v : α} (h : keysAbove n m) (ha : n < a) :
    keysAbove n (mput m a v) := by
  induction m with
  | nil => intro c hc; simp [mput] at hc; subst hc; exact ha
  | cons c m ih =>
    obtain ⟨k, w⟩ := c
    have hk : n < k := h (k, w) (List.mem_cons_self ..)
    have hm : keysAbove n m := fun x hx => h x (List.mem_cons_of_mem _ hx)
    unfold mput
    split
    · intro x hx
      rcases List.mem_cons.mp hx with e | e
      · subst e; exact ha
      · exact h x e
    · split
      · intro x hx
        rcases List.mem_cons.mp hx with e | e
        · subst e; exact ha
        · exact hm x e
      · intro x hx
        rcases List.mem_cons.mp hx with e | e
        · subst e; exact hk
        · exact ih hm x e

theorem keysAbove_mdel {n : Nat} {m : List (Nat × α)} {a : Nat} (h : keysAbove n m) : keysAbove n (mdel m a) := by
  induction m with
  | nil => exact h
  | cons c m ih =>
    obtain ⟨k, w⟩ := c
    have hm : keysAbove n m := fun x hx => h x (List.mem_cons_of_mem _ hx)
    unfold mdel
    split
    · exact ih hm
    · intro x hx
      rcases List.mem_cons.mp hx with e | e
      · subst e; exact h (k, w) (List.mem_cons_self ..)
      · exact ih hm x e

theorem keysRise_mput {m : List (Nat × α)} (a : Nat) (v : α) (h : keysRise m = true) : keysRise (mput m a v) = true := by
  induction m with
  | nil => rfl
  | cons c m ih =>
    obtain ⟨k, w⟩ := c
    obtain ⟨h1, h2⟩ := (keysRise_cons k w m).mp h
    unfold mput
    split
    · rename_i hak
      refine (keysRise_cons a v _).mpr ⟨?_, h⟩
      intro x hx
      rcases List.mem_cons.mp hx with e | e
      · subst e; exact hak
      · exact Nat.lt_trans hak (h1 x e)
    · split
      · rename_i e
        subst e
        exact (keysRise_cons _ v m).mpr ⟨h1, h2⟩
      · rename_i hlt hne
        exact (keysRise_cons k w _).mpr ⟨keysAbove_mput h1 (by omega), ih h2⟩

theorem keysRise_mdel {m : List (Nat × α)} (a : Nat) (h : keysRise m = true) : keysRise (mdel m a) = true := by
  induction m with
  | nil => rfl
  | cons c m ih =>
    obtain ⟨k, w⟩ := c
    obtain ⟨h1, h2⟩ := (keysRise_cons k w m).mp h
    unfold mdel
    split
    · exact ih h2
    · exact (keysRise_cons k w _).mpr ⟨keysAbove_mdel h1, ih h2⟩

theorem keysRise_mset [DecidableEq α] (d : α) {m : List (Nat × α)} (a : Nat) (v : α) (h : keysRise m = true) :
    keysRise (mset d m a v) = true := by
  unfold mset; split
  · exact keysRise_mdel a h
  · exact keysRise_mput a v h

theorem mem_mput {m : List (Nat × α)} {a : Nat} {v : α} {c : Nat × α} (h : c ∈ mput m a v) : c = (a, v) ∨ c ∈ m := by
  induction m with
  | nil => simp [mput] at h; exact .inl h
  | cons x m ih =>
    obtain ⟨k, w⟩ := x
    unfold mput at h
    split at h
    · rcases List.mem_cons.mp h with e | e
      · exact .inl e
      · exact .inr e
    · split at h
      · rcases List.mem_cons.mp h with e | e
        · exact .inl e
        · exact .inr (List.mem_cons_of_mem _ e)
      · rcases List.mem_cons.mp h with e | e
        · exact .inr (by simp [e])
        · exact (ih e).imp id (List.mem_cons_of_mem _)

theorem mem_mdel {m : List (Nat × α)} {a : Nat} {c : Nat × α} (h : c ∈ mdel m a) : c ∈ m := by
  induction m with
  | nil => exact h
  | cons x m ih =>
    obtain ⟨k, w⟩ := x
    unfold mdel at h
    split at h
    · exact List.mem_cons_of_mem _ (ih h)
    · rcases List.mem_cons.mp h with e | e
      · simp [e]
      · exact List.mem_cons_of_mem _ (ih e)

/-! ### Byte stores -/

/-- The canonical form: what it says of keys and of entries. -/
theorem wf_iff (m : List Host.Cell) : Memory.wf m = true ↔ keysRise m = true ∧ ∀ c ∈ m, c.2 ≠ unlistedByte := by
  simp [Memory.wf]

@[simp] theorem wf_nil : Memory.wf [] = true := rfl

/-- Writing one byte keeps the canonical form. -/
theorem wf_putByte {m : List Host.Cell} (a : Nat) (v : Byte) (h : Memory.wf m = true) : Memory.wf (putByte m a v) = true := by
  rw [wf_iff] at h ⊢
  refine ⟨keysRise_mset _ a v h.1, ?_⟩
  intro c hc
  unfold putByte mset at hc
  split at hc
  · exact h.2 c (mem_mdel hc)
  · rename_i hv
    rcases mem_mput hc with e | e
    · subst e; exact hv
    · exact h.2 c e

/-- Writing bytes keeps the canonical form. -/
theorem wf_putBytes {m : List Host.Cell} (a : Nat) (bs : List Byte) (h : Memory.wf m = true) :
    Memory.wf (putBytes m a bs) = true := by
  induction bs generalizing m a with
  | nil => exact h
  | cons b bs ih => exact ih (a + 1) (wf_putByte a b h)

@[simp] theorem byteAt_putByte_self (m : List Host.Cell) (a : Nat) (v : Byte) : byteAt (putByte m a v) a = v := by
  simp [byteAt, putByte]

theorem byteAt_putByte_ne (m : List Host.Cell) {a b : Nat} (v : Byte) (h : b ≠ a) :
    byteAt (putByte m a v) b = byteAt m b := by
  simp [byteAt, putByte, mget_mset_ne _ m v h]

/-- A write of bytes leaves every other address alone. -/
theorem byteAt_putBytes_out (m : List Host.Cell) (a : Nat) (bs : List Byte) (b : Nat) (h : b < a ∨ a + bs.length ≤ b) :
    byteAt (putBytes m a bs) b = byteAt m b := by
  induction bs generalizing m a with
  | nil => rfl
  | cons x bs ih =>
    simp only [List.length_cons] at h
    simp only [putBytes]
    rw [ih (putByte m a x) (a + 1) (by omega), byteAt_putByte_ne m x (by omega)]

/-- A write of bytes puts byte `i` at the i-th address. -/
theorem byteAt_putBytes_in (m : List Host.Cell) (a : Nat) (bs : List Byte) (i : Nat) (h : i < bs.length) :
    byteAt (putBytes m a bs) (a + i) = bs[i] := by
  induction bs generalizing m a i with
  | nil => exact absurd h (Nat.not_lt_zero i)
  | cons x bs ih =>
    cases i with
    | zero =>
      simp only [putBytes, Nat.add_zero]
      rw [byteAt_putBytes_out _ _ _ _ (by omega)]
      simp
    | succ i =>
      simp only [putBytes]
      have := ih (putByte m a x) (a + 1) i (by simpa using h)
      rw [show a + (i + 1) = a + 1 + i by omega]
      simpa using this

end Sys2Proof.Machine
end

