-- ==== Sys2Proof/Laws/State.lean ====
section
/-!
SUPPORT. What each update of the state leaves alone: one lemma a field and update, each true by unfolding one record.
-/
namespace Sys2Proof.Machine

variable (s : State)

/-! ### wr -/

@[simp] theorem wr_pending (r : Reg) (v : Word) : (wr s r v).pending = s.pending := rfl
@[simp] theorem wr_power (r : Reg) (v : Word) : (wr s r v).power = s.power := rfl
@[simp] theorem wr_pins (r : Reg) (v : Word) : (wr s r v).pins = s.pins := rfl
@[simp] theorem wr_latch (r : Reg) (v : Word) : (wr s r v).latch = s.latch := rfl
@[simp] theorem wr_fuses (r : Reg) (v : Word) : (wr s r v).fuses = s.fuses := rfl
@[simp] theorem wr_nv (r : Reg) (v : Word) : (wr s r v).nv = s.nv := rfl
@[simp] theorem wr_treeNow (r : Reg) (v : Word) : (wr s r v).treeNow = s.treeNow := rfl
@[simp] theorem wr_treeReady (r : Reg) (v : Word) : (wr s r v).treeReady = s.treeReady := rfl
@[simp] theorem wr_treeNext (r : Reg) (v : Word) : (wr s r v).treeNext = s.treeNext := rfl
@[simp] theorem wr_dev (r : Reg) (v : Word) : (wr s r v).dev = s.dev := rfl
@[simp] theorem wr_rings (r : Reg) (v : Word) : (wr s r v).rings = s.rings := rfl
@[simp] theorem wr_force (r : Reg) (v : Word) : (wr s r v).force = s.force := rfl
@[simp] theorem wr_latches (r : Reg) (v : Word) : (wr s r v).latches = s.latches := rfl
@[simp] theorem wr_stages (r : Reg) (v : Word) : (wr s r v).stages = s.stages := rfl
@[simp] theorem wr_raw (r : Reg) (v : Word) : (wr s r v).raw = s.raw := rfl
@[simp] theorem wr_img (r : Reg) (v : Word) : (wr s r v).img = s.img := rfl
@[simp] theorem wr_chans (r : Reg) (v : Word) : (wr s r v).chans = s.chans := rfl
@[simp] theorem wr_engs (r : Reg) (v : Word) : (wr s r v).engs = s.engs := rfl
@[simp] theorem wr_caches (r : Reg) (v : Word) : (wr s r v).caches = s.caches := rfl
@[simp] theorem wr_streams (r : Reg) (v : Word) : (wr s r v).streams = s.streams := rfl
@[simp] theorem wr_resends (r : Reg) (v : Word) : (wr s r v).resends = s.resends := rfl
@[simp] theorem wr_queues (r : Reg) (v : Word) : (wr s r v).queues = s.queues := rfl
@[simp] theorem wr_groups (r : Reg) (v : Word) : (wr s r v).groups = s.groups := rfl
@[simp] theorem wr_slots (r : Reg) (v : Word) : (wr s r v).slots = s.slots := rfl
@[simp] theorem wr_aps (r : Reg) (v : Word) : (wr s r v).aps = s.aps := rfl
@[simp] theorem wr_nfs (r : Reg) (v : Word) : (wr s r v).nfs = s.nfs := rfl
@[simp] theorem wr_prgs (r : Reg) (v : Word) : (wr s r v).prgs = s.prgs := rfl
@[simp] theorem wr_lastBlock48 (r : Reg) (v : Word) : (wr s r v).lastBlock48 = s.lastBlock48 := rfl
@[simp] theorem wr_lastBlock96 (r : Reg) (v : Word) : (wr s r v).lastBlock96 = s.lastBlock96 := rfl
@[simp] theorem wr_ports (r : Reg) (v : Word) : (wr s r v).ports = s.ports := rfl
@[simp] theorem wr_flows (r : Reg) (v : Word) : (wr s r v).flows = s.flows := rfl
@[simp] theorem wr_ox (r : Reg) (v : Word) : (wr s r v).ox = s.ox := rfl
@[simp] theorem wr_systemPair (r : Reg) (v : Word) : (wr s r v).systemPair = s.systemPair := rfl
@[simp] theorem wr_insts (r : Reg) (v : Word) : (wr s r v).insts = s.insts := rfl
@[simp] theorem wr_classSince (r : Reg) (v : Word) : (wr s r v).classSince = s.classSince := rfl
@[simp] theorem wr_fatal (r : Reg) (v : Word) : (wr s r v).fatal = s.fatal := rfl
@[simp] theorem wr_reports (r : Reg) (v : Word) : (wr s r v).reports = s.reports := rfl
@[simp] theorem wr_waiting (r : Reg) (v : Word) : (wr s r v).waiting = s.waiting := rfl
@[simp] theorem wr_ledger (r : Reg) (v : Word) : (wr s r v).ledger = s.ledger := rfl
@[simp] theorem wr_ledgerNext (r : Reg) (v : Word) : (wr s r v).ledgerNext = s.ledgerNext := rfl
@[simp] theorem wr_active (r : Reg) (v : Word) : (wr s r v).active = s.active := rfl
@[simp] theorem wr_waitCores (r : Reg) (v : Word) : (wr s r v).waitCores = s.waitCores := rfl
@[simp] theorem wr_downCores (r : Reg) (v : Word) : (wr s r v).downCores = s.downCores := rfl
@[simp] theorem wr_mbx (r : Reg) (v : Word) : (wr s r v).mbx = s.mbx := rfl
@[simp] theorem wr_msixEn (r : Reg) (v : Word) : (wr s r v).msixEn = s.msixEn := rfl
@[simp] theorem wr_funcMask (r : Reg) (v : Word) : (wr s r v).funcMask = s.funcMask := rfl
@[simp] theorem wr_msixTable (r : Reg) (v : Word) : (wr s r v).msixTable = s.msixTable := rfl
@[simp] theorem wr_pba (r : Reg) (v : Word) : (wr s r v).pba = s.pba := rfl
@[simp] theorem wr_writable (r : Reg) (v : Word) : (wr s r v).writable = s.writable := rfl
@[simp] theorem wr_pmeEn (r : Reg) (v : Word) : (wr s r v).pmeEn = s.pmeEn := rfl
@[simp] theorem wr_pmeAt (r : Reg) (v : Word) : (wr s r v).pmeAt = s.pmeAt := rfl
@[simp] theorem wr_cks (r : Reg) (v : Word) : (wr s r v).cks = s.cks := rfl
@[simp] theorem wr_pair (r : Reg) (v : Word) : (wr s r v).pair = s.pair := rfl
@[simp] theorem wr_cal (r : Reg) (v : Word) : (wr s r v).cal = s.cal := rfl
@[simp] theorem wr_coefs (r : Reg) (v : Word) : (wr s r v).coefs = s.coefs := rfl
@[simp] theorem wr_tiles (r : Reg) (v : Word) : (wr s r v).tiles = s.tiles := rfl
@[simp] theorem wr_displayNext (r : Reg) (v : Word) : (wr s r v).displayNext = s.displayNext := rfl
@[simp] theorem wr_refMark (r : Reg) (v : Word) : (wr s r v).refMark = s.refMark := rfl
@[simp] theorem wr_free (r : Reg) (v : Word) : (wr s r v).free = s.free := rfl
@[simp] theorem wr_out (r : Reg) (v : Word) : (wr s r v).out = s.out := rfl

/-! ### wrf -/

@[simp] theorem wrf_pending (r : Reg) (v : Word) : (wrf s r v).pending = s.pending := rfl
@[simp] theorem wrf_power (r : Reg) (v : Word) : (wrf s r v).power = s.power := rfl
@[simp] theorem wrf_pins (r : Reg) (v : Word) : (wrf s r v).pins = s.pins := rfl
@[simp] theorem wrf_latch (r : Reg) (v : Word) : (wrf s r v).latch = s.latch := rfl
@[simp] theorem wrf_fuses (r : Reg) (v : Word) : (wrf s r v).fuses = s.fuses := rfl
@[simp] theorem wrf_nv (r : Reg) (v : Word) : (wrf s r v).nv = s.nv := rfl
@[simp] theorem wrf_treeNow (r : Reg) (v : Word) : (wrf s r v).treeNow = s.treeNow := rfl
@[simp] theorem wrf_treeReady (r : Reg) (v : Word) : (wrf s r v).treeReady = s.treeReady := rfl
@[simp] theorem wrf_treeNext (r : Reg) (v : Word) : (wrf s r v).treeNext = s.treeNext := rfl
@[simp] theorem wrf_dev (r : Reg) (v : Word) : (wrf s r v).dev = s.dev := rfl
@[simp] theorem wrf_rings (r : Reg) (v : Word) : (wrf s r v).rings = s.rings := rfl
@[simp] theorem wrf_regs (r : Reg) (v : Word) : (wrf s r v).regs = s.regs := rfl
@[simp] theorem wrf_latches (r : Reg) (v : Word) : (wrf s r v).latches = s.latches := rfl
@[simp] theorem wrf_stages (r : Reg) (v : Word) : (wrf s r v).stages = s.stages := rfl
@[simp] theorem wrf_raw (r : Reg) (v : Word) : (wrf s r v).raw = s.raw := rfl
@[simp] theorem wrf_img (r : Reg) (v : Word) : (wrf s r v).img = s.img := rfl
@[simp] theorem wrf_chans (r : Reg) (v : Word) : (wrf s r v).chans = s.chans := rfl
@[simp] theorem wrf_engs (r : Reg) (v : Word) : (wrf s r v).engs = s.engs := rfl
@[simp] theorem wrf_caches (r : Reg) (v : Word) : (wrf s r v).caches = s.caches := rfl
@[simp] theorem wrf_streams (r : Reg) (v : Word) : (wrf s r v).streams = s.streams := rfl
@[simp] theorem wrf_resends (r : Reg) (v : Word) : (wrf s r v).resends = s.resends := rfl
@[simp] theorem wrf_queues (r : Reg) (v : Word) : (wrf s r v).queues = s.queues := rfl
@[simp] theorem wrf_groups (r : Reg) (v : Word) : (wrf s r v).groups = s.groups := rfl
@[simp] theorem wrf_slots (r : Reg) (v : Word) : (wrf s r v).slots = s.slots := rfl
@[simp] theorem wrf_aps (r : Reg) (v : Word) : (wrf s r v).aps = s.aps := rfl
@[simp] theorem wrf_nfs (r : Reg) (v : Word) : (wrf s r v).nfs = s.nfs := rfl
@[simp] theorem wrf_prgs (r : Reg) (v : Word) : (wrf s r v).prgs = s.prgs := rfl
@[simp] theorem wrf_lastBlock48 (r : Reg) (v : Word) : (wrf s r v).lastBlock48 = s.lastBlock48 := rfl
@[simp] theorem wrf_lastBlock96 (r : Reg) (v : Word) : (wrf s r v).lastBlock96 = s.lastBlock96 := rfl
@[simp] theorem wrf_ports (r : Reg) (v : Word) : (wrf s r v).ports = s.ports := rfl
@[simp] theorem wrf_flows (r : Reg) (v : Word) : (wrf s r v).flows = s.flows := rfl
@[simp] theorem wrf_ox (r : Reg) (v : Word) : (wrf s r v).ox = s.ox := rfl
@[simp] theorem wrf_systemPair (r : Reg) (v : Word) : (wrf s r v).systemPair = s.systemPair := rfl
@[simp] theorem wrf_insts (r : Reg) (v : Word) : (wrf s r v).insts = s.insts := rfl
@[simp] theorem wrf_classSince (r : Reg) (v : Word) : (wrf s r v).classSince = s.classSince := rfl
@[simp] theorem wrf_fatal (r : Reg) (v : Word) : (wrf s r v).fatal = s.fatal := rfl
@[simp] theorem wrf_reports (r : Reg) (v : Word) : (wrf s r v).reports = s.reports := rfl
@[simp] theorem wrf_waiting (r : Reg) (v : Word) : (wrf s r v).waiting = s.waiting := rfl
@[simp] theorem wrf_ledger (r : Reg) (v : Word) : (wrf s r v).ledger = s.ledger := rfl
@[simp] theorem wrf_ledgerNext (r : Reg) (v : Word) : (wrf s r v).ledgerNext = s.ledgerNext := rfl
@[simp] theorem wrf_active (r : Reg) (v : Word) : (wrf s r v).active = s.active := rfl
@[simp] theorem wrf_waitCores (r : Reg) (v : Word) : (wrf s r v).waitCores = s.waitCores := rfl
@[simp] theorem wrf_downCores (r : Reg) (v : Word) : (wrf s r v).downCores = s.downCores := rfl
@[simp] theorem wrf_mbx (r : Reg) (v : Word) : (wrf s r v).mbx = s.mbx := rfl
@[simp] theorem wrf_msixEn (r : Reg) (v : Word) : (wrf s r v).msixEn = s.msixEn := rfl
@[simp] theorem wrf_funcMask (r : Reg) (v : Word) : (wrf s r v).funcMask = s.funcMask := rfl
@[simp] theorem wrf_msixTable (r : Reg) (v : Word) : (wrf s r v).msixTable = s.msixTable := rfl
@[simp] theorem wrf_pba (r : Reg) (v : Word) : (wrf s r v).pba = s.pba := rfl
@[simp] theorem wrf_writable (r : Reg) (v : Word) : (wrf s r v).writable = s.writable := rfl
@[simp] theorem wrf_pmeEn (r : Reg) (v : Word) : (wrf s r v).pmeEn = s.pmeEn := rfl
@[simp] theorem wrf_pmeAt (r : Reg) (v : Word) : (wrf s r v).pmeAt = s.pmeAt := rfl
@[simp] theorem wrf_cks (r : Reg) (v : Word) : (wrf s r v).cks = s.cks := rfl
@[simp] theorem wrf_pair (r : Reg) (v : Word) : (wrf s r v).pair = s.pair := rfl
@[simp] theorem wrf_cal (r : Reg) (v : Word) : (wrf s r v).cal = s.cal := rfl
@[simp] theorem wrf_coefs (r : Reg) (v : Word) : (wrf s r v).coefs = s.coefs := rfl
@[simp] theorem wrf_tiles (r : Reg) (v : Word) : (wrf s r v).tiles = s.tiles := rfl
@[simp] theorem wrf_displayNext (r : Reg) (v : Word) : (wrf s r v).displayNext = s.displayNext := rfl
@[simp] theorem wrf_refMark (r : Reg) (v : Word) : (wrf s r v).refMark = s.refMark := rfl
@[simp] theorem wrf_free (r : Reg) (v : Word) : (wrf s r v).free = s.free := rfl
@[simp] theorem wrf_out (r : Reg) (v : Word) : (wrf s r v).out = s.out := rfl

/-! ### emit -/

@[simp] theorem emit_pending (o : Output) : (emit s o).pending = s.pending := rfl
@[simp] theorem emit_power (o : Output) : (emit s o).power = s.power := rfl
@[simp] theorem emit_pins (o : Output) : (emit s o).pins = s.pins := rfl
@[simp] theorem emit_latch (o : Output) : (emit s o).latch = s.latch := rfl
@[simp] theorem emit_fuses (o : Output) : (emit s o).fuses = s.fuses := rfl
@[simp] theorem emit_nv (o : Output) : (emit s o).nv = s.nv := rfl
@[simp] theorem emit_treeNow (o : Output) : (emit s o).treeNow = s.treeNow := rfl
@[simp] theorem emit_treeReady (o : Output) : (emit s o).treeReady = s.treeReady := rfl
@[simp] theorem emit_treeNext (o : Output) : (emit s o).treeNext = s.treeNext := rfl
@[simp] theorem emit_dev (o : Output) : (emit s o).dev = s.dev := rfl
@[simp] theorem emit_rings (o : Output) : (emit s o).rings = s.rings := rfl
@[simp] theorem emit_regs (o : Output) : (emit s o).regs = s.regs := rfl
@[simp] theorem emit_force (o : Output) : (emit s o).force = s.force := rfl
@[simp] theorem emit_latches (o : Output) : (emit s o).latches = s.latches := rfl
@[simp] theorem emit_stages (o : Output) : (emit s o).stages = s.stages := rfl
@[simp] theorem emit_raw (o : Output) : (emit s o).raw = s.raw := rfl
@[simp] theorem emit_img (o : Output) : (emit s o).img = s.img := rfl
@[simp] theorem emit_chans (o : Output) : (emit s o).chans = s.chans := rfl
@[simp] theorem emit_engs (o : Output) : (emit s o).engs = s.engs := rfl
@[simp] theorem emit_caches (o : Output) : (emit s o).caches = s.caches := rfl
@[simp] theorem emit_streams (o : Output) : (emit s o).streams = s.streams := rfl
@[simp] theorem emit_resends (o : Output) : (emit s o).resends = s.resends := rfl
@[simp] theorem emit_queues (o : Output) : (emit s o).queues = s.queues := rfl
@[simp] theorem emit_groups (o : Output) : (emit s o).groups = s.groups := rfl
@[simp] theorem emit_slots (o : Output) : (emit s o).slots = s.slots := rfl
@[simp] theorem emit_aps (o : Output) : (emit s o).aps = s.aps := rfl
@[simp] theorem emit_nfs (o : Output) : (emit s o).nfs = s.nfs := rfl
@[simp] theorem emit_prgs (o : Output) : (emit s o).prgs = s.prgs := rfl
@[simp] theorem emit_lastBlock48 (o : Output) : (emit s o).lastBlock48 = s.lastBlock48 := rfl
@[simp] theorem emit_lastBlock96 (o : Output) : (emit s o).lastBlock96 = s.lastBlock96 := rfl
@[simp] theorem emit_ports (o : Output) : (emit s o).ports = s.ports := rfl
@[simp] theorem emit_flows (o : Output) : (emit s o).flows = s.flows := rfl
@[simp] theorem emit_ox (o : Output) : (emit s o).ox = s.ox := rfl
@[simp] theorem emit_systemPair (o : Output) : (emit s o).systemPair = s.systemPair := rfl
@[simp] theorem emit_insts (o : Output) : (emit s o).insts = s.insts := rfl
@[simp] theorem emit_classSince (o : Output) : (emit s o).classSince = s.classSince := rfl
@[simp] theorem emit_fatal (o : Output) : (emit s o).fatal = s.fatal := rfl
@[simp] theorem emit_reports (o : Output) : (emit s o).reports = s.reports := rfl
@[simp] theorem emit_waiting (o : Output) : (emit s o).waiting = s.waiting := rfl
@[simp] theorem emit_ledger (o : Output) : (emit s o).ledger = s.ledger := rfl
@[simp] theorem emit_ledgerNext (o : Output) : (emit s o).ledgerNext = s.ledgerNext := rfl
@[simp] theorem emit_active (o : Output) : (emit s o).active = s.active := rfl
@[simp] theorem emit_waitCores (o : Output) : (emit s o).waitCores = s.waitCores := rfl
@[simp] theorem emit_downCores (o : Output) : (emit s o).downCores = s.downCores := rfl
@[simp] theorem emit_mbx (o : Output) : (emit s o).mbx = s.mbx := rfl
@[simp] theorem emit_msixEn (o : Output) : (emit s o).msixEn = s.msixEn := rfl
@[simp] theorem emit_funcMask (o : Output) : (emit s o).funcMask = s.funcMask := rfl
@[simp] theorem emit_msixTable (o : Output) : (emit s o).msixTable = s.msixTable := rfl
@[simp] theorem emit_pba (o : Output) : (emit s o).pba = s.pba := rfl
@[simp] theorem emit_writable (o : Output) : (emit s o).writable = s.writable := rfl
@[simp] theorem emit_pmeEn (o : Output) : (emit s o).pmeEn = s.pmeEn := rfl
@[simp] theorem emit_pmeAt (o : Output) : (emit s o).pmeAt = s.pmeAt := rfl
@[simp] theorem emit_cks (o : Output) : (emit s o).cks = s.cks := rfl
@[simp] theorem emit_pair (o : Output) : (emit s o).pair = s.pair := rfl
@[simp] theorem emit_cal (o : Output) : (emit s o).cal = s.cal := rfl
@[simp] theorem emit_coefs (o : Output) : (emit s o).coefs = s.coefs := rfl
@[simp] theorem emit_tiles (o : Output) : (emit s o).tiles = s.tiles := rfl
@[simp] theorem emit_displayNext (o : Output) : (emit s o).displayNext = s.displayNext := rfl
@[simp] theorem emit_refMark (o : Output) : (emit s o).refMark = s.refMark := rfl
@[simp] theorem emit_free (o : Output) : (emit s o).free = s.free := rfl

/-! ### modChan -/

@[simp] theorem modChan_pending (n : Nat) (f : Chan → Chan) : (modChan s n f).pending = s.pending := rfl
@[simp] theorem modChan_power (n : Nat) (f : Chan → Chan) : (modChan s n f).power = s.power := rfl
@[simp] theorem modChan_pins (n : Nat) (f : Chan → Chan) : (modChan s n f).pins = s.pins := rfl
@[simp] theorem modChan_latch (n : Nat) (f : Chan → Chan) : (modChan s n f).latch = s.latch := rfl
@[simp] theorem modChan_fuses (n : Nat) (f : Chan → Chan) : (modChan s n f).fuses = s.fuses := rfl
@[simp] theorem modChan_nv (n : Nat) (f : Chan → Chan) : (modChan s n f).nv = s.nv := rfl
@[simp] theorem modChan_treeNow (n : Nat) (f : Chan → Chan) : (modChan s n f).treeNow = s.treeNow := rfl
@[simp] theorem modChan_treeReady (n : Nat) (f : Chan → Chan) : (modChan s n f).treeReady = s.treeReady := rfl
@[simp] theorem modChan_treeNext (n : Nat) (f : Chan → Chan) : (modChan s n f).treeNext = s.treeNext := rfl
@[simp] theorem modChan_dev (n : Nat) (f : Chan → Chan) : (modChan s n f).dev = s.dev := rfl
@[simp] theorem modChan_rings (n : Nat) (f : Chan → Chan) : (modChan s n f).rings = s.rings := rfl
@[simp] theorem modChan_regs (n : Nat) (f : Chan → Chan) : (modChan s n f).regs = s.regs := rfl
@[simp] theorem modChan_force (n : Nat) (f : Chan → Chan) : (modChan s n f).force = s.force := rfl
@[simp] theorem modChan_latches (n : Nat) (f : Chan → Chan) : (modChan s n f).latches = s.latches := rfl
@[simp] theorem modChan_stages (n : Nat) (f : Chan → Chan) : (modChan s n f).stages = s.stages := rfl
@[simp] theorem modChan_raw (n : Nat) (f : Chan → Chan) : (modChan s n f).raw = s.raw := rfl
@[simp] theorem modChan_img (n : Nat) (f : Chan → Chan) : (modChan s n f).img = s.img := rfl
@[simp] theorem modChan_engs (n : Nat) (f : Chan → Chan) : (modChan s n f).engs = s.engs := rfl
@[simp] theorem modChan_caches (n : Nat) (f : Chan → Chan) : (modChan s n f).caches = s.caches := rfl
@[simp] theorem modChan_streams (n : Nat) (f : Chan → Chan) : (modChan s n f).streams = s.streams := rfl
@[simp] theorem modChan_resends (n : Nat) (f : Chan → Chan) : (modChan s n f).resends = s.resends := rfl
@[simp] theorem modChan_queues (n : Nat) (f : Chan → Chan) : (modChan s n f).queues = s.queues := rfl
@[simp] theorem modChan_groups (n : Nat) (f : Chan → Chan) : (modChan s n f).groups = s.groups := rfl
@[simp] theorem modChan_slots (n : Nat) (f : Chan → Chan) : (modChan s n f).slots = s.slots := rfl
@[simp] theorem modChan_aps (n : Nat) (f : Chan → Chan) : (modChan s n f).aps = s.aps := rfl
@[simp] theorem modChan_nfs (n : Nat) (f : Chan → Chan) : (modChan s n f).nfs = s.nfs := rfl
@[simp] theorem modChan_prgs (n : Nat) (f : Chan → Chan) : (modChan s n f).prgs = s.prgs := rfl
@[simp] theorem modChan_lastBlock48 (n : Nat) (f : Chan → Chan) : (modChan s n f).lastBlock48 = s.lastBlock48 := rfl
@[simp] theorem modChan_lastBlock96 (n : Nat) (f : Chan → Chan) : (modChan s n f).lastBlock96 = s.lastBlock96 := rfl
@[simp] theorem modChan_ports (n : Nat) (f : Chan → Chan) : (modChan s n f).ports = s.ports := rfl
@[simp] theorem modChan_flows (n : Nat) (f : Chan → Chan) : (modChan s n f).flows = s.flows := rfl
@[simp] theorem modChan_ox (n : Nat) (f : Chan → Chan) : (modChan s n f).ox = s.ox := rfl
@[simp] theorem modChan_systemPair (n : Nat) (f : Chan → Chan) : (modChan s n f).systemPair = s.systemPair := rfl
@[simp] theorem modChan_insts (n : Nat) (f : Chan → Chan) : (modChan s n f).insts = s.insts := rfl
@[simp] theorem modChan_classSince (n : Nat) (f : Chan → Chan) : (modChan s n f).classSince = s.classSince := rfl
@[simp] theorem modChan_fatal (n : Nat) (f : Chan → Chan) : (modChan s n f).fatal = s.fatal := rfl
@[simp] theorem modChan_reports (n : Nat) (f : Chan → Chan) : (modChan s n f).reports = s.reports := rfl
@[simp] theorem modChan_waiting (n : Nat) (f : Chan → Chan) : (modChan s n f).waiting = s.waiting := rfl
@[simp] theorem modChan_ledger (n : Nat) (f : Chan → Chan) : (modChan s n f).ledger = s.ledger := rfl
@[simp] theorem modChan_ledgerNext (n : Nat) (f : Chan → Chan) : (modChan s n f).ledgerNext = s.ledgerNext := rfl
@[simp] theorem modChan_active (n : Nat) (f : Chan → Chan) : (modChan s n f).active = s.active := rfl
@[simp] theorem modChan_waitCores (n : Nat) (f : Chan → Chan) : (modChan s n f).waitCores = s.waitCores := rfl
@[simp] theorem modChan_downCores (n : Nat) (f : Chan → Chan) : (modChan s n f).downCores = s.downCores := rfl
@[simp] theorem modChan_mbx (n : Nat) (f : Chan → Chan) : (modChan s n f).mbx = s.mbx := rfl
@[simp] theorem modChan_msixEn (n : Nat) (f : Chan → Chan) : (modChan s n f).msixEn = s.msixEn := rfl
@[simp] theorem modChan_funcMask (n : Nat) (f : Chan → Chan) : (modChan s n f).funcMask = s.funcMask := rfl
@[simp] theorem modChan_msixTable (n : Nat) (f : Chan → Chan) : (modChan s n f).msixTable = s.msixTable := rfl
@[simp] theorem modChan_pba (n : Nat) (f : Chan → Chan) : (modChan s n f).pba = s.pba := rfl
@[simp] theorem modChan_writable (n : Nat) (f : Chan → Chan) : (modChan s n f).writable = s.writable := rfl
@[simp] theorem modChan_pmeEn (n : Nat) (f : Chan → Chan) : (modChan s n f).pmeEn = s.pmeEn := rfl
@[simp] theorem modChan_pmeAt (n : Nat) (f : Chan → Chan) : (modChan s n f).pmeAt = s.pmeAt := rfl
@[simp] theorem modChan_cks (n : Nat) (f : Chan → Chan) : (modChan s n f).cks = s.cks := rfl
@[simp] theorem modChan_pair (n : Nat) (f : Chan → Chan) : (modChan s n f).pair = s.pair := rfl
@[simp] theorem modChan_cal (n : Nat) (f : Chan → Chan) : (modChan s n f).cal = s.cal := rfl
@[simp] theorem modChan_coefs (n : Nat) (f : Chan → Chan) : (modChan s n f).coefs = s.coefs := rfl
@[simp] theorem modChan_tiles (n : Nat) (f : Chan → Chan) : (modChan s n f).tiles = s.tiles := rfl
@[simp] theorem modChan_displayNext (n : Nat) (f : Chan → Chan) : (modChan s n f).displayNext = s.displayNext := rfl
@[simp] theorem modChan_refMark (n : Nat) (f : Chan → Chan) : (modChan s n f).refMark = s.refMark := rfl
@[simp] theorem modChan_free (n : Nat) (f : Chan → Chan) : (modChan s n f).free = s.free := rfl
@[simp] theorem modChan_out (n : Nat) (f : Chan → Chan) : (modChan s n f).out = s.out := rfl

/-! ### modEng -/

@[simp] theorem modEng_pending (n : Nat) (f : EngState → EngState) : (modEng s n f).pending = s.pending := rfl
@[simp] theorem modEng_power (n : Nat) (f : EngState → EngState) : (modEng s n f).power = s.power := rfl
@[simp] theorem modEng_pins (n : Nat) (f : EngState → EngState) : (modEng s n f).pins = s.pins := rfl
@[simp] theorem modEng_latch (n : Nat) (f : EngState → EngState) : (modEng s n f).latch = s.latch := rfl
@[simp] theorem modEng_fuses (n : Nat) (f : EngState → EngState) : (modEng s n f).fuses = s.fuses := rfl
@[simp] theorem modEng_nv (n : Nat) (f : EngState → EngState) : (modEng s n f).nv = s.nv := rfl
@[simp] theorem modEng_treeNow (n : Nat) (f : EngState → EngState) : (modEng s n f).treeNow = s.treeNow := rfl
@[simp] theorem modEng_treeReady (n : Nat) (f : EngState → EngState) : (modEng s n f).treeReady = s.treeReady := rfl
@[simp] theorem modEng_treeNext (n : Nat) (f : EngState → EngState) : (modEng s n f).treeNext = s.treeNext := rfl
@[simp] theorem modEng_dev (n : Nat) (f : EngState → EngState) : (modEng s n f).dev = s.dev := rfl
@[simp] theorem modEng_rings (n : Nat) (f : EngState → EngState) : (modEng s n f).rings = s.rings := rfl
@[simp] theorem modEng_regs (n : Nat) (f : EngState → EngState) : (modEng s n f).regs = s.regs := rfl
@[simp] theorem modEng_force (n : Nat) (f : EngState → EngState) : (modEng s n f).force = s.force := rfl
@[simp] theorem modEng_latches (n : Nat) (f : EngState → EngState) : (modEng s n f).latches = s.latches := rfl
@[simp] theorem modEng_stages (n : Nat) (f : EngState → EngState) : (modEng s n f).stages = s.stages := rfl
@[simp] theorem modEng_raw (n : Nat) (f : EngState → EngState) : (modEng s n f).raw = s.raw := rfl
@[simp] theorem modEng_img (n : Nat) (f : EngState → EngState) : (modEng s n f).img = s.img := rfl
@[simp] theorem modEng_chans (n : Nat) (f : EngState → EngState) : (modEng s n f).chans = s.chans := rfl
@[simp] theorem modEng_caches (n : Nat) (f : EngState → EngState) : (modEng s n f).caches = s.caches := rfl
@[simp] theorem modEng_streams (n : Nat) (f : EngState → EngState) : (modEng s n f).streams = s.streams := rfl
@[simp] theorem modEng_resends (n : Nat) (f : EngState → EngState) : (modEng s n f).resends = s.resends := rfl
@[simp] theorem modEng_queues (n : Nat) (f : EngState → EngState) : (modEng s n f).queues = s.queues := rfl
@[simp] theorem modEng_groups (n : Nat) (f : EngState → EngState) : (modEng s n f).groups = s.groups := rfl
@[simp] theorem modEng_slots (n : Nat) (f : EngState → EngState) : (modEng s n f).slots = s.slots := rfl
@[simp] theorem modEng_aps (n : Nat) (f : EngState → EngState) : (modEng s n f).aps = s.aps := rfl
@[simp] theorem modEng_nfs (n : Nat) (f : EngState → EngState) : (modEng s n f).nfs = s.nfs := rfl
@[simp] theorem modEng_prgs (n : Nat) (f : EngState → EngState) : (modEng s n f).prgs = s.prgs := rfl
@[simp] theorem modEng_lastBlock48 (n : Nat) (f : EngState → EngState) : (modEng s n f).lastBlock48 = s.lastBlock48 := rfl
@[simp] theorem modEng_lastBlock96 (n : Nat) (f : EngState → EngState) : (modEng s n f).lastBlock96 = s.lastBlock96 := rfl
@[simp] theorem modEng_ports (n : Nat) (f : EngState → EngState) : (modEng s n f).ports = s.ports := rfl
@[simp] theorem modEng_flows (n : Nat) (f : EngState → EngState) : (modEng s n f).flows = s.flows := rfl
@[simp] theorem modEng_ox (n : Nat) (f : EngState → EngState) : (modEng s n f).ox = s.ox := rfl
@[simp] theorem modEng_systemPair (n : Nat) (f : EngState → EngState) : (modEng s n f).systemPair = s.systemPair := rfl
@[simp] theorem modEng_insts (n : Nat) (f : EngState → EngState) : (modEng s n f).insts = s.insts := rfl
@[simp] theorem modEng_classSince (n : Nat) (f : EngState → EngState) : (modEng s n f).classSince = s.classSince := rfl
@[simp] theorem modEng_fatal (n : Nat) (f : EngState → EngState) : (modEng s n f).fatal = s.fatal := rfl
@[simp] theorem modEng_reports (n : Nat) (f : EngState → EngState) : (modEng s n f).reports = s.reports := rfl
@[simp] theorem modEng_waiting (n : Nat) (f : EngState → EngState) : (modEng s n f).waiting = s.waiting := rfl
@[simp] theorem modEng_ledger (n : Nat) (f : EngState → EngState) : (modEng s n f).ledger = s.ledger := rfl
@[simp] theorem modEng_ledgerNext (n : Nat) (f : EngState → EngState) : (modEng s n f).ledgerNext = s.ledgerNext := rfl
@[simp] theorem modEng_active (n : Nat) (f : EngState → EngState) : (modEng s n f).active = s.active := rfl
@[simp] theorem modEng_waitCores (n : Nat) (f : EngState → EngState) : (modEng s n f).waitCores = s.waitCores := rfl
@[simp] theorem modEng_downCores (n : Nat) (f : EngState → EngState) : (modEng s n f).downCores = s.downCores := rfl
@[simp] theorem modEng_mbx (n : Nat) (f : EngState → EngState) : (modEng s n f).mbx = s.mbx := rfl
@[simp] theorem modEng_msixEn (n : Nat) (f : EngState → EngState) : (modEng s n f).msixEn = s.msixEn := rfl
@[simp] theorem modEng_funcMask (n : Nat) (f : EngState → EngState) : (modEng s n f).funcMask = s.funcMask := rfl
@[simp] theorem modEng_msixTable (n : Nat) (f : EngState → EngState) : (modEng s n f).msixTable = s.msixTable := rfl
@[simp] theorem modEng_pba (n : Nat) (f : EngState → EngState) : (modEng s n f).pba = s.pba := rfl
@[simp] theorem modEng_writable (n : Nat) (f : EngState → EngState) : (modEng s n f).writable = s.writable := rfl
@[simp] theorem modEng_pmeEn (n : Nat) (f : EngState → EngState) : (modEng s n f).pmeEn = s.pmeEn := rfl
@[simp] theorem modEng_pmeAt (n : Nat) (f : EngState → EngState) : (modEng s n f).pmeAt = s.pmeAt := rfl
@[simp] theorem modEng_cks (n : Nat) (f : EngState → EngState) : (modEng s n f).cks = s.cks := rfl
@[simp] theorem modEng_pair (n : Nat) (f : EngState → EngState) : (modEng s n f).pair = s.pair := rfl
@[simp] theorem modEng_cal (n : Nat) (f : EngState → EngState) : (modEng s n f).cal = s.cal := rfl
@[simp] theorem modEng_coefs (n : Nat) (f : EngState → EngState) : (modEng s n f).coefs = s.coefs := rfl
@[simp] theorem modEng_tiles (n : Nat) (f : EngState → EngState) : (modEng s n f).tiles = s.tiles := rfl
@[simp] theorem modEng_displayNext (n : Nat) (f : EngState → EngState) : (modEng s n f).displayNext = s.displayNext := rfl
@[simp] theorem modEng_refMark (n : Nat) (f : EngState → EngState) : (modEng s n f).refMark = s.refMark := rfl
@[simp] theorem modEng_free (n : Nat) (f : EngState → EngState) : (modEng s n f).free = s.free := rfl
@[simp] theorem modEng_out (n : Nat) (f : EngState → EngState) : (modEng s n f).out = s.out := rfl

/-! ### modPort -/

@[simp] theorem modPort_pending (n : Nat) (f : PortSt → PortSt) : (modPort s n f).pending = s.pending := rfl
@[simp] theorem modPort_power (n : Nat) (f : PortSt → PortSt) : (modPort s n f).power = s.power := rfl
@[simp] theorem modPort_pins (n : Nat) (f : PortSt → PortSt) : (modPort s n f).pins = s.pins := rfl
@[simp] theorem modPort_latch (n : Nat) (f : PortSt → PortSt) : (modPort s n f).latch = s.latch := rfl
@[simp] theorem modPort_fuses (n : Nat) (f : PortSt → PortSt) : (modPort s n f).fuses = s.fuses := rfl
@[simp] theorem modPort_nv (n : Nat) (f : PortSt → PortSt) : (modPort s n f).nv = s.nv := rfl
@[simp] theorem modPort_treeNow (n : Nat) (f : PortSt → PortSt) : (modPort s n f).treeNow = s.treeNow := rfl
@[simp] theorem modPort_treeReady (n : Nat) (f : PortSt → PortSt) : (modPort s n f).treeReady = s.treeReady := rfl
@[simp] theorem modPort_treeNext (n : Nat) (f : PortSt → PortSt) : (modPort s n f).treeNext = s.treeNext := rfl
@[simp] theorem modPort_dev (n : Nat) (f : PortSt → PortSt) : (modPort s n f).dev = s.dev := rfl
@[simp] theorem modPort_rings (n : Nat) (f : PortSt → PortSt) : (modPort s n f).rings = s.rings := rfl
@[simp] theorem modPort_regs (n : Nat) (f : PortSt → PortSt) : (modPort s n f).regs = s.regs := rfl
@[simp] theorem modPort_force (n : Nat) (f : PortSt → PortSt) : (modPort s n f).force = s.force := rfl
@[simp] theorem modPort_latches (n : Nat) (f : PortSt → PortSt) : (modPort s n f).latches = s.latches := rfl
@[simp] theorem modPort_stages (n : Nat) (f : PortSt → PortSt) : (modPort s n f).stages = s.stages := rfl
@[simp] theorem modPort_raw (n : Nat) (f : PortSt → PortSt) : (modPort s n f).raw = s.raw := rfl
@[simp] theorem modPort_img (n : Nat) (f : PortSt → PortSt) : (modPort s n f).img = s.img := rfl
@[simp] theorem modPort_chans (n : Nat) (f : PortSt → PortSt) : (modPort s n f).chans = s.chans := rfl
@[simp] theorem modPort_engs (n : Nat) (f : PortSt → PortSt) : (modPort s n f).engs = s.engs := rfl
@[simp] theorem modPort_caches (n : Nat) (f : PortSt → PortSt) : (modPort s n f).caches = s.caches := rfl
@[simp] theorem modPort_streams (n : Nat) (f : PortSt → PortSt) : (modPort s n f).streams = s.streams := rfl
@[simp] theorem modPort_resends (n : Nat) (f : PortSt → PortSt) : (modPort s n f).resends = s.resends := rfl
@[simp] theorem modPort_queues (n : Nat) (f : PortSt → PortSt) : (modPort s n f).queues = s.queues := rfl
@[simp] theorem modPort_groups (n : Nat) (f : PortSt → PortSt) : (modPort s n f).groups = s.groups := rfl
@[simp] theorem modPort_slots (n : Nat) (f : PortSt → PortSt) : (modPort s n f).slots = s.slots := rfl
@[simp] theorem modPort_aps (n : Nat) (f : PortSt → PortSt) : (modPort s n f).aps = s.aps := rfl
@[simp] theorem modPort_nfs (n : Nat) (f : PortSt → PortSt) : (modPort s n f).nfs = s.nfs := rfl
@[simp] theorem modPort_prgs (n : Nat) (f : PortSt → PortSt) : (modPort s n f).prgs = s.prgs := rfl
@[simp] theorem modPort_lastBlock48 (n : Nat) (f : PortSt → PortSt) : (modPort s n f).lastBlock48 = s.lastBlock48 := rfl
@[simp] theorem modPort_lastBlock96 (n : Nat) (f : PortSt → PortSt) : (modPort s n f).lastBlock96 = s.lastBlock96 := rfl
@[simp] theorem modPort_flows (n : Nat) (f : PortSt → PortSt) : (modPort s n f).flows = s.flows := rfl
@[simp] theorem modPort_ox (n : Nat) (f : PortSt → PortSt) : (modPort s n f).ox = s.ox := rfl
@[simp] theorem modPort_systemPair (n : Nat) (f : PortSt → PortSt) : (modPort s n f).systemPair = s.systemPair := rfl
@[simp] theorem modPort_insts (n : Nat) (f : PortSt → PortSt) : (modPort s n f).insts = s.insts := rfl
@[simp] theorem modPort_classSince (n : Nat) (f : PortSt → PortSt) : (modPort s n f).classSince = s.classSince := rfl
@[simp] theorem modPort_fatal (n : Nat) (f : PortSt → PortSt) : (modPort s n f).fatal = s.fatal := rfl
@[simp] theorem modPort_reports (n : Nat) (f : PortSt → PortSt) : (modPort s n f).reports = s.reports := rfl
@[simp] theorem modPort_waiting (n : Nat) (f : PortSt → PortSt) : (modPort s n f).waiting = s.waiting := rfl
@[simp] theorem modPort_ledger (n : Nat) (f : PortSt → PortSt) : (modPort s n f).ledger = s.ledger := rfl
@[simp] theorem modPort_ledgerNext (n : Nat) (f : PortSt → PortSt) : (modPort s n f).ledgerNext = s.ledgerNext := rfl
@[simp] theorem modPort_active (n : Nat) (f : PortSt → PortSt) : (modPort s n f).active = s.active := rfl
@[simp] theorem modPort_waitCores (n : Nat) (f : PortSt → PortSt) : (modPort s n f).waitCores = s.waitCores := rfl
@[simp] theorem modPort_downCores (n : Nat) (f : PortSt → PortSt) : (modPort s n f).downCores = s.downCores := rfl
@[simp] theorem modPort_mbx (n : Nat) (f : PortSt → PortSt) : (modPort s n f).mbx = s.mbx := rfl
@[simp] theorem modPort_msixEn (n : Nat) (f : PortSt → PortSt) : (modPort s n f).msixEn = s.msixEn := rfl
@[simp] theorem modPort_funcMask (n : Nat) (f : PortSt → PortSt) : (modPort s n f).funcMask = s.funcMask := rfl
@[simp] theorem modPort_msixTable (n : Nat) (f : PortSt → PortSt) : (modPort s n f).msixTable = s.msixTable := rfl
@[simp] theorem modPort_pba (n : Nat) (f : PortSt → PortSt) : (modPort s n f).pba = s.pba := rfl
@[simp] theorem modPort_writable (n : Nat) (f : PortSt → PortSt) : (modPort s n f).writable = s.writable := rfl
@[simp] theorem modPort_pmeEn (n : Nat) (f : PortSt → PortSt) : (modPort s n f).pmeEn = s.pmeEn := rfl
@[simp] theorem modPort_pmeAt (n : Nat) (f : PortSt → PortSt) : (modPort s n f).pmeAt = s.pmeAt := rfl
@[simp] theorem modPort_cks (n : Nat) (f : PortSt → PortSt) : (modPort s n f).cks = s.cks := rfl
@[simp] theorem modPort_pair (n : Nat) (f : PortSt → PortSt) : (modPort s n f).pair = s.pair := rfl
@[simp] theorem modPort_cal (n : Nat) (f : PortSt → PortSt) : (modPort s n f).cal = s.cal := rfl
@[simp] theorem modPort_coefs (n : Nat) (f : PortSt → PortSt) : (modPort s n f).coefs = s.coefs := rfl
@[simp] theorem modPort_tiles (n : Nat) (f : PortSt → PortSt) : (modPort s n f).tiles = s.tiles := rfl
@[simp] theorem modPort_displayNext (n : Nat) (f : PortSt → PortSt) : (modPort s n f).displayNext = s.displayNext := rfl
@[simp] theorem modPort_refMark (n : Nat) (f : PortSt → PortSt) : (modPort s n f).refMark = s.refMark := rfl
@[simp] theorem modPort_free (n : Nat) (f : PortSt → PortSt) : (modPort s n f).free = s.free := rfl
@[simp] theorem modPort_out (n : Nat) (f : PortSt → PortSt) : (modPort s n f).out = s.out := rfl

/-! ### modFlow -/

@[simp] theorem modFlow_pending (n : Nat) (f : FlowSt → FlowSt) : (modFlow s n f).pending = s.pending := rfl
@[simp] theorem modFlow_power (n : Nat) (f : FlowSt → FlowSt) : (modFlow s n f).power = s.power := rfl
@[simp] theorem modFlow_pins (n : Nat) (f : FlowSt → FlowSt) : (modFlow s n f).pins = s.pins := rfl
@[simp] theorem modFlow_latch (n : Nat) (f : FlowSt → FlowSt) : (modFlow s n f).latch = s.latch := rfl
@[simp] theorem modFlow_fuses (n : Nat) (f : FlowSt → FlowSt) : (modFlow s n f).fuses = s.fuses := rfl
@[simp] theorem modFlow_nv (n : Nat) (f : FlowSt → FlowSt) : (modFlow s n f).nv = s.nv := rfl
@[simp] theorem modFlow_treeNow (n : Nat) (f : FlowSt → FlowSt) : (modFlow s n f).treeNow = s.treeNow := rfl
@[simp] theorem modFlow_treeReady (n : Nat) (f : FlowSt → FlowSt) : (modFlow s n f).treeReady = s.treeReady := rfl
@[simp] theorem modFlow_treeNext (n : Nat) (f : FlowSt → FlowSt) : (modFlow s n f).treeNext = s.treeNext := rfl
@[simp] theorem modFlow_dev (n : Nat) (f : FlowSt → FlowSt) : (modFlow s n f).dev = s.dev := rfl
@[simp] theorem modFlow_rings (n : Nat) (f : FlowSt → FlowSt) : (modFlow s n f).rings = s.rings := rfl
@[simp] theorem modFlow_regs (n : Nat) (f : FlowSt → FlowSt) : (modFlow s n f).regs = s.regs := rfl
@[simp] theorem modFlow_force (n : Nat) (f : FlowSt → FlowSt) : (modFlow s n f).force = s.force := rfl
@[simp] theorem modFlow_latches (n : Nat) (f : FlowSt → FlowSt) : (modFlow s n f).latches = s.latches := rfl
@[simp] theorem modFlow_stages (n : Nat) (f : FlowSt → FlowSt) : (modFlow s n f).stages = s.stages := rfl
@[simp] theorem modFlow_raw (n : Nat) (f : FlowSt → FlowSt) : (modFlow s n f).raw = s.raw := rfl
@[simp] theorem modFlow_img (n : Nat) (f : FlowSt → FlowSt) : (modFlow s n f).img = s.img := rfl
@[simp] theorem modFlow_chans (n : Nat) (f : FlowSt → FlowSt) : (modFlow s n f).chans = s.chans := rfl
@[simp] theorem modFlow_engs (n : Nat) (f : FlowSt → FlowSt) : (modFlow s n f).engs = s.engs := rfl
@[simp] theorem modFlow_caches (n : Nat) (f : FlowSt → FlowSt) : (modFlow s n f).caches = s.caches := rfl
@[simp] theorem modFlow_streams (n : Nat) (f : FlowSt → FlowSt) : (modFlow s n f).streams = s.streams := rfl
@[simp] theorem modFlow_resends (n : Nat) (f : FlowSt → FlowSt) : (modFlow s n f).resends = s.resends := rfl
@[simp] theorem modFlow_queues (n : Nat) (f : FlowSt → FlowSt) : (modFlow s n f).queues = s.queues := rfl
@[simp] theorem modFlow_groups (n : Nat) (f : FlowSt → FlowSt) : (modFlow s n f).groups = s.groups := rfl
@[simp] theorem modFlow_slots (n : Nat) (f : FlowSt → FlowSt) : (modFlow s n f).slots = s.slots := rfl
@[simp] theorem modFlow_aps (n : Nat) (f : FlowSt → FlowSt) : (modFlow s n f).aps = s.aps := rfl
@[simp] theorem modFlow_nfs (n : Nat) (f : FlowSt → FlowSt) : (modFlow s n f).nfs = s.nfs := rfl
@[simp] theorem modFlow_prgs (n : Nat) (f : FlowSt → FlowSt) : (modFlow s n f).prgs = s.prgs := rfl
@[simp] theorem modFlow_lastBlock48 (n : Nat) (f : FlowSt → FlowSt) : (modFlow s n f).lastBlock48 = s.lastBlock48 := rfl
@[simp] theorem modFlow_lastBlock96 (n : Nat) (f : FlowSt → FlowSt) : (modFlow s n f).lastBlock96 = s.lastBlock96 := rfl
@[simp] theorem modFlow_ports (n : Nat) (f : FlowSt → FlowSt) : (modFlow s n f).ports = s.ports := rfl
@[simp] theorem modFlow_ox (n : Nat) (f : FlowSt → FlowSt) : (modFlow s n f).ox = s.ox := rfl
@[simp] theorem modFlow_systemPair (n : Nat) (f : FlowSt → FlowSt) : (modFlow s n f).systemPair = s.systemPair := rfl
@[simp] theorem modFlow_insts (n : Nat) (f : FlowSt → FlowSt) : (modFlow s n f).insts = s.insts := rfl
@[simp] theorem modFlow_classSince (n : Nat) (f : FlowSt → FlowSt) : (modFlow s n f).classSince = s.classSince := rfl
@[simp] theorem modFlow_fatal (n : Nat) (f : FlowSt → FlowSt) : (modFlow s n f).fatal = s.fatal := rfl
@[simp] theorem modFlow_reports (n : Nat) (f : FlowSt → FlowSt) : (modFlow s n f).reports = s.reports := rfl
@[simp] theorem modFlow_waiting (n : Nat) (f : FlowSt → FlowSt) : (modFlow s n f).waiting = s.waiting := rfl
@[simp] theorem modFlow_ledger (n : Nat) (f : FlowSt → FlowSt) : (modFlow s n f).ledger = s.ledger := rfl
@[simp] theorem modFlow_ledgerNext (n : Nat) (f : FlowSt → FlowSt) : (modFlow s n f).ledgerNext = s.ledgerNext := rfl
@[simp] theorem modFlow_active (n : Nat) (f : FlowSt → FlowSt) : (modFlow s n f).active = s.active := rfl
@[simp] theorem modFlow_waitCores (n : Nat) (f : FlowSt → FlowSt) : (modFlow s n f).waitCores = s.waitCores := rfl
@[simp] theorem modFlow_downCores (n : Nat) (f : FlowSt → FlowSt) : (modFlow s n f).downCores = s.downCores := rfl
@[simp] theorem modFlow_mbx (n : Nat) (f : FlowSt → FlowSt) : (modFlow s n f).mbx = s.mbx := rfl
@[simp] theorem modFlow_msixEn (n : Nat) (f : FlowSt → FlowSt) : (modFlow s n f).msixEn = s.msixEn := rfl
@[simp] theorem modFlow_funcMask (n : Nat) (f : FlowSt → FlowSt) : (modFlow s n f).funcMask = s.funcMask := rfl
@[simp] theorem modFlow_msixTable (n : Nat) (f : FlowSt → FlowSt) : (modFlow s n f).msixTable = s.msixTable := rfl
@[simp] theorem modFlow_pba (n : Nat) (f : FlowSt → FlowSt) : (modFlow s n f).pba = s.pba := rfl
@[simp] theorem modFlow_writable (n : Nat) (f : FlowSt → FlowSt) : (modFlow s n f).writable = s.writable := rfl
@[simp] theorem modFlow_pmeEn (n : Nat) (f : FlowSt → FlowSt) : (modFlow s n f).pmeEn = s.pmeEn := rfl
@[simp] theorem modFlow_pmeAt (n : Nat) (f : FlowSt → FlowSt) : (modFlow s n f).pmeAt = s.pmeAt := rfl
@[simp] theorem modFlow_cks (n : Nat) (f : FlowSt → FlowSt) : (modFlow s n f).cks = s.cks := rfl
@[simp] theorem modFlow_pair (n : Nat) (f : FlowSt → FlowSt) : (modFlow s n f).pair = s.pair := rfl
@[simp] theorem modFlow_cal (n : Nat) (f : FlowSt → FlowSt) : (modFlow s n f).cal = s.cal := rfl
@[simp] theorem modFlow_coefs (n : Nat) (f : FlowSt → FlowSt) : (modFlow s n f).coefs = s.coefs := rfl
@[simp] theorem modFlow_tiles (n : Nat) (f : FlowSt → FlowSt) : (modFlow s n f).tiles = s.tiles := rfl
@[simp] theorem modFlow_displayNext (n : Nat) (f : FlowSt → FlowSt) : (modFlow s n f).displayNext = s.displayNext := rfl
@[simp] theorem modFlow_refMark (n : Nat) (f : FlowSt → FlowSt) : (modFlow s n f).refMark = s.refMark := rfl
@[simp] theorem modFlow_free (n : Nat) (f : FlowSt → FlowSt) : (modFlow s n f).free = s.free := rfl
@[simp] theorem modFlow_out (n : Nat) (f : FlowSt → FlowSt) : (modFlow s n f).out = s.out := rfl

/-! ### modOx -/

@[simp] theorem modOx_pending (n : Nat) (f : OxSt → OxSt) : (modOx s n f).pending = s.pending := rfl
@[simp] theorem modOx_power (n : Nat) (f : OxSt → OxSt) : (modOx s n f).power = s.power := rfl
@[simp] theorem modOx_pins (n : Nat) (f : OxSt → OxSt) : (modOx s n f).pins = s.pins := rfl
@[simp] theorem modOx_latch (n : Nat) (f : OxSt → OxSt) : (modOx s n f).latch = s.latch := rfl
@[simp] theorem modOx_fuses (n : Nat) (f : OxSt → OxSt) : (modOx s n f).fuses = s.fuses := rfl
@[simp] theorem modOx_nv (n : Nat) (f : OxSt → OxSt) : (modOx s n f).nv = s.nv := rfl
@[simp] theorem modOx_treeNow (n : Nat) (f : OxSt → OxSt) : (modOx s n f).treeNow = s.treeNow := rfl
@[simp] theorem modOx_treeReady (n : Nat) (f : OxSt → OxSt) : (modOx s n f).treeReady = s.treeReady := rfl
@[simp] theorem modOx_treeNext (n : Nat) (f : OxSt → OxSt) : (modOx s n f).treeNext = s.treeNext := rfl
@[simp] theorem modOx_dev (n : Nat) (f : OxSt → OxSt) : (modOx s n f).dev = s.dev := rfl
@[simp] theorem modOx_rings (n : Nat) (f : OxSt → OxSt) : (modOx s n f).rings = s.rings := rfl
@[simp] theorem modOx_regs (n : Nat) (f : OxSt → OxSt) : (modOx s n f).regs = s.regs := rfl
@[simp] theorem modOx_force (n : Nat) (f : OxSt → OxSt) : (modOx s n f).force = s.force := rfl
@[simp] theorem modOx_latches (n : Nat) (f : OxSt → OxSt) : (modOx s n f).latches = s.latches := rfl
@[simp] theorem modOx_stages (n : Nat) (f : OxSt → OxSt) : (modOx s n f).stages = s.stages := rfl
@[simp] theorem modOx_raw (n : Nat) (f : OxSt → OxSt) : (modOx s n f).raw = s.raw := rfl
@[simp] theorem modOx_img (n : Nat) (f : OxSt → OxSt) : (modOx s n f).img = s.img := rfl
@[simp] theorem modOx_chans (n : Nat) (f : OxSt → OxSt) : (modOx s n f).chans = s.chans := rfl
@[simp] theorem modOx_engs (n : Nat) (f : OxSt → OxSt) : (modOx s n f).engs = s.engs := rfl
@[simp] theorem modOx_caches (n : Nat) (f : OxSt → OxSt) : (modOx s n f).caches = s.caches := rfl
@[simp] theorem modOx_streams (n : Nat) (f : OxSt → OxSt) : (modOx s n f).streams = s.streams := rfl
@[simp] theorem modOx_resends (n : Nat) (f : OxSt → OxSt) : (modOx s n f).resends = s.resends := rfl
@[simp] theorem modOx_queues (n : Nat) (f : OxSt → OxSt) : (modOx s n f).queues = s.queues := rfl
@[simp] theorem modOx_groups (n : Nat) (f : OxSt → OxSt) : (modOx s n f).groups = s.groups := rfl
@[simp] theorem modOx_slots (n : Nat) (f : OxSt → OxSt) : (modOx s n f).slots = s.slots := rfl
@[simp] theorem modOx_aps (n : Nat) (f : OxSt → OxSt) : (modOx s n f).aps = s.aps := rfl
@[simp] theorem modOx_nfs (n : Nat) (f : OxSt → OxSt) : (modOx s n f).nfs = s.nfs := rfl
@[simp] theorem modOx_prgs (n : Nat) (f : OxSt → OxSt) : (modOx s n f).prgs = s.prgs := rfl
@[simp] theorem modOx_lastBlock48 (n : Nat) (f : OxSt → OxSt) : (modOx s n f).lastBlock48 = s.lastBlock48 := rfl
@[simp] theorem modOx_lastBlock96 (n : Nat) (f : OxSt → OxSt) : (modOx s n f).lastBlock96 = s.lastBlock96 := rfl
@[simp] theorem modOx_ports (n : Nat) (f : OxSt → OxSt) : (modOx s n f).ports = s.ports := rfl
@[simp] theorem modOx_flows (n : Nat) (f : OxSt → OxSt) : (modOx s n f).flows = s.flows := rfl
@[simp] theorem modOx_systemPair (n : Nat) (f : OxSt → OxSt) : (modOx s n f).systemPair = s.systemPair := rfl
@[simp] theorem modOx_insts (n : Nat) (f : OxSt → OxSt) : (modOx s n f).insts = s.insts := rfl
@[simp] theorem modOx_classSince (n : Nat) (f : OxSt → OxSt) : (modOx s n f).classSince = s.classSince := rfl
@[simp] theorem modOx_fatal (n : Nat) (f : OxSt → OxSt) : (modOx s n f).fatal = s.fatal := rfl
@[simp] theorem modOx_reports (n : Nat) (f : OxSt → OxSt) : (modOx s n f).reports = s.reports := rfl
@[simp] theorem modOx_waiting (n : Nat) (f : OxSt → OxSt) : (modOx s n f).waiting = s.waiting := rfl
@[simp] theorem modOx_ledger (n : Nat) (f : OxSt → OxSt) : (modOx s n f).ledger = s.ledger := rfl
@[simp] theorem modOx_ledgerNext (n : Nat) (f : OxSt → OxSt) : (modOx s n f).ledgerNext = s.ledgerNext := rfl
@[simp] theorem modOx_active (n : Nat) (f : OxSt → OxSt) : (modOx s n f).active = s.active := rfl
@[simp] theorem modOx_waitCores (n : Nat) (f : OxSt → OxSt) : (modOx s n f).waitCores = s.waitCores := rfl
@[simp] theorem modOx_downCores (n : Nat) (f : OxSt → OxSt) : (modOx s n f).downCores = s.downCores := rfl
@[simp] theorem modOx_mbx (n : Nat) (f : OxSt → OxSt) : (modOx s n f).mbx = s.mbx := rfl
@[simp] theorem modOx_msixEn (n : Nat) (f : OxSt → OxSt) : (modOx s n f).msixEn = s.msixEn := rfl
@[simp] theorem modOx_funcMask (n : Nat) (f : OxSt → OxSt) : (modOx s n f).funcMask = s.funcMask := rfl
@[simp] theorem modOx_msixTable (n : Nat) (f : OxSt → OxSt) : (modOx s n f).msixTable = s.msixTable := rfl
@[simp] theorem modOx_pba (n : Nat) (f : OxSt → OxSt) : (modOx s n f).pba = s.pba := rfl
@[simp] theorem modOx_writable (n : Nat) (f : OxSt → OxSt) : (modOx s n f).writable = s.writable := rfl
@[simp] theorem modOx_pmeEn (n : Nat) (f : OxSt → OxSt) : (modOx s n f).pmeEn = s.pmeEn := rfl
@[simp] theorem modOx_pmeAt (n : Nat) (f : OxSt → OxSt) : (modOx s n f).pmeAt = s.pmeAt := rfl
@[simp] theorem modOx_cks (n : Nat) (f : OxSt → OxSt) : (modOx s n f).cks = s.cks := rfl
@[simp] theorem modOx_pair (n : Nat) (f : OxSt → OxSt) : (modOx s n f).pair = s.pair := rfl
@[simp] theorem modOx_cal (n : Nat) (f : OxSt → OxSt) : (modOx s n f).cal = s.cal := rfl
@[simp] theorem modOx_coefs (n : Nat) (f : OxSt → OxSt) : (modOx s n f).coefs = s.coefs := rfl
@[simp] theorem modOx_tiles (n : Nat) (f : OxSt → OxSt) : (modOx s n f).tiles = s.tiles := rfl
@[simp] theorem modOx_displayNext (n : Nat) (f : OxSt → OxSt) : (modOx s n f).displayNext = s.displayNext := rfl
@[simp] theorem modOx_refMark (n : Nat) (f : OxSt → OxSt) : (modOx s n f).refMark = s.refMark := rfl
@[simp] theorem modOx_free (n : Nat) (f : OxSt → OxSt) : (modOx s n f).free = s.free := rfl
@[simp] theorem modOx_out (n : Nat) (f : OxSt → OxSt) : (modOx s n f).out = s.out := rfl

/-! ### modQueue -/

@[simp] theorem modQueue_pending (n : Nat) (f : QueueSt → QueueSt) : (modQueue s n f).pending = s.pending := rfl
@[simp] theorem modQueue_power (n : Nat) (f : QueueSt → QueueSt) : (modQueue s n f).power = s.power := rfl
@[simp] theorem modQueue_pins (n : Nat) (f : QueueSt → QueueSt) : (modQueue s n f).pins = s.pins := rfl
@[simp] theorem modQueue_latch (n : Nat) (f : QueueSt → QueueSt) : (modQueue s n f).latch = s.latch := rfl
@[simp] theorem modQueue_fuses (n : Nat) (f : QueueSt → QueueSt) : (modQueue s n f).fuses = s.fuses := rfl
@[simp] theorem modQueue_nv (n : Nat) (f : QueueSt → QueueSt) : (modQueue s n f).nv = s.nv := rfl
@[simp] theorem modQueue_treeNow (n : Nat) (f : QueueSt → QueueSt) : (modQueue s n f).treeNow = s.treeNow := rfl
@[simp] theorem modQueue_treeReady (n : Nat) (f : QueueSt → QueueSt) : (modQueue s n f).treeReady = s.treeReady := rfl
@[simp] theorem modQueue_treeNext (n : Nat) (f : QueueSt → QueueSt) : (modQueue s n f).treeNext = s.treeNext := rfl
@[simp] theorem modQueue_dev (n : Nat) (f : QueueSt → QueueSt) : (modQueue s n f).dev = s.dev := rfl
@[simp] theorem modQueue_rings (n : Nat) (f : QueueSt → QueueSt) : (modQueue s n f).rings = s.rings := rfl
@[simp] theorem modQueue_regs (n : Nat) (f : QueueSt → QueueSt) : (modQueue s n f).regs = s.regs := rfl
@[simp] theorem modQueue_force (n : Nat) (f : QueueSt → QueueSt) : (modQueue s n f).force = s.force := rfl
@[simp] theorem modQueue_latches (n : Nat) (f : QueueSt → QueueSt) : (modQueue s n f).latches = s.latches := rfl
@[simp] theorem modQueue_stages (n : Nat) (f : QueueSt → QueueSt) : (modQueue s n f).stages = s.stages := rfl
@[simp] theorem modQueue_raw (n : Nat) (f : QueueSt → QueueSt) : (modQueue s n f).raw = s.raw := rfl
@[simp] theorem modQueue_img (n : Nat) (f : QueueSt → QueueSt) : (modQueue s n f).img = s.img := rfl
@[simp] theorem modQueue_chans (n : Nat) (f : QueueSt → QueueSt) : (modQueue s n f).chans = s.chans := rfl
@[simp] theorem modQueue_engs (n : Nat) (f : QueueSt → QueueSt) : (modQueue s n f).engs = s.engs := rfl
@[simp] theorem modQueue_caches (n : Nat) (f : QueueSt → QueueSt) : (modQueue s n f).caches = s.caches := rfl
@[simp] theorem modQueue_streams (n : Nat) (f : QueueSt → QueueSt) : (modQueue s n f).streams = s.streams := rfl
@[simp] theorem modQueue_resends (n : Nat) (f : QueueSt → QueueSt) : (modQueue s n f).resends = s.resends := rfl
@[simp] theorem modQueue_groups (n : Nat) (f : QueueSt → QueueSt) : (modQueue s n f).groups = s.groups := rfl
@[simp] theorem modQueue_slots (n : Nat) (f : QueueSt → QueueSt) : (modQueue s n f).slots = s.slots := rfl
@[simp] theorem modQueue_aps (n : Nat) (f : QueueSt → QueueSt) : (modQueue s n f).aps = s.aps := rfl
@[simp] theorem modQueue_nfs (n : Nat) (f : QueueSt → QueueSt) : (modQueue s n f).nfs = s.nfs := rfl
@[simp] theorem modQueue_prgs (n : Nat) (f : QueueSt → QueueSt) : (modQueue s n f).prgs = s.prgs := rfl
@[simp] theorem modQueue_lastBlock48 (n : Nat) (f : QueueSt → QueueSt) : (modQueue s n f).lastBlock48 = s.lastBlock48 := rfl
@[simp] theorem modQueue_lastBlock96 (n : Nat) (f : QueueSt → QueueSt) : (modQueue s n f).lastBlock96 = s.lastBlock96 := rfl
@[simp] theorem modQueue_ports (n : Nat) (f : QueueSt → QueueSt) : (modQueue s n f).ports = s.ports := rfl
@[simp] theorem modQueue_flows (n : Nat) (f : QueueSt → QueueSt) : (modQueue s n f).flows = s.flows := rfl
@[simp] theorem modQueue_ox (n : Nat) (f : QueueSt → QueueSt) : (modQueue s n f).ox = s.ox := rfl
@[simp] theorem modQueue_systemPair (n : Nat) (f : QueueSt → QueueSt) : (modQueue s n f).systemPair = s.systemPair := rfl
@[simp] theorem modQueue_insts (n : Nat) (f : QueueSt → QueueSt) : (modQueue s n f).insts = s.insts := rfl
@[simp] theorem modQueue_classSince (n : Nat) (f : QueueSt → QueueSt) : (modQueue s n f).classSince = s.classSince := rfl
@[simp] theorem modQueue_fatal (n : Nat) (f : QueueSt → QueueSt) : (modQueue s n f).fatal = s.fatal := rfl
@[simp] theorem modQueue_reports (n : Nat) (f : QueueSt → QueueSt) : (modQueue s n f).reports = s.reports := rfl
@[simp] theorem modQueue_waiting (n : Nat) (f : QueueSt → QueueSt) : (modQueue s n f).waiting = s.waiting := rfl
@[simp] theorem modQueue_ledger (n : Nat) (f : QueueSt → QueueSt) : (modQueue s n f).ledger = s.ledger := rfl
@[simp] theorem modQueue_ledgerNext (n : Nat) (f : QueueSt → QueueSt) : (modQueue s n f).ledgerNext = s.ledgerNext := rfl
@[simp] theorem modQueue_active (n : Nat) (f : QueueSt → QueueSt) : (modQueue s n f).active = s.active := rfl
@[simp] theorem modQueue_waitCores (n : Nat) (f : QueueSt → QueueSt) : (modQueue s n f).waitCores = s.waitCores := rfl
@[simp] theorem modQueue_downCores (n : Nat) (f : QueueSt → QueueSt) : (modQueue s n f).downCores = s.downCores := rfl
@[simp] theorem modQueue_mbx (n : Nat) (f : QueueSt → QueueSt) : (modQueue s n f).mbx = s.mbx := rfl
@[simp] theorem modQueue_msixEn (n : Nat) (f : QueueSt → QueueSt) : (modQueue s n f).msixEn = s.msixEn := rfl
@[simp] theorem modQueue_funcMask (n : Nat) (f : QueueSt → QueueSt) : (modQueue s n f).funcMask = s.funcMask := rfl
@[simp] theorem modQueue_msixTable (n : Nat) (f : QueueSt → QueueSt) : (modQueue s n f).msixTable = s.msixTable := rfl
@[simp] theorem modQueue_pba (n : Nat) (f : QueueSt → QueueSt) : (modQueue s n f).pba = s.pba := rfl
@[simp] theorem modQueue_writable (n : Nat) (f : QueueSt → QueueSt) : (modQueue s n f).writable = s.writable := rfl
@[simp] theorem modQueue_pmeEn (n : Nat) (f : QueueSt → QueueSt) : (modQueue s n f).pmeEn = s.pmeEn := rfl
@[simp] theorem modQueue_pmeAt (n : Nat) (f : QueueSt → QueueSt) : (modQueue s n f).pmeAt = s.pmeAt := rfl
@[simp] theorem modQueue_cks (n : Nat) (f : QueueSt → QueueSt) : (modQueue s n f).cks = s.cks := rfl
@[simp] theorem modQueue_pair (n : Nat) (f : QueueSt → QueueSt) : (modQueue s n f).pair = s.pair := rfl
@[simp] theorem modQueue_cal (n : Nat) (f : QueueSt → QueueSt) : (modQueue s n f).cal = s.cal := rfl
@[simp] theorem modQueue_coefs (n : Nat) (f : QueueSt → QueueSt) : (modQueue s n f).coefs = s.coefs := rfl
@[simp] theorem modQueue_tiles (n : Nat) (f : QueueSt → QueueSt) : (modQueue s n f).tiles = s.tiles := rfl
@[simp] theorem modQueue_displayNext (n : Nat) (f : QueueSt → QueueSt) : (modQueue s n f).displayNext = s.displayNext := rfl
@[simp] theorem modQueue_refMark (n : Nat) (f : QueueSt → QueueSt) : (modQueue s n f).refMark = s.refMark := rfl
@[simp] theorem modQueue_free (n : Nat) (f : QueueSt → QueueSt) : (modQueue s n f).free = s.free := rfl
@[simp] theorem modQueue_out (n : Nat) (f : QueueSt → QueueSt) : (modQueue s n f).out = s.out := rfl

/-! ### modStream -/

@[simp] theorem modStream_pending (n : Nat) (f : StreamSt → StreamSt) : (modStream s n f).pending = s.pending := rfl
@[simp] theorem modStream_power (n : Nat) (f : StreamSt → StreamSt) : (modStream s n f).power = s.power := rfl
@[simp] theorem modStream_pins (n : Nat) (f : StreamSt → StreamSt) : (modStream s n f).pins = s.pins := rfl
@[simp] theorem modStream_latch (n : Nat) (f : StreamSt → StreamSt) : (modStream s n f).latch = s.latch := rfl
@[simp] theorem modStream_fuses (n : Nat) (f : StreamSt → StreamSt) : (modStream s n f).fuses = s.fuses := rfl
@[simp] theorem modStream_nv (n : Nat) (f : StreamSt → StreamSt) : (modStream s n f).nv = s.nv := rfl
@[simp] theorem modStream_treeNow (n : Nat) (f : StreamSt → StreamSt) : (modStream s n f).treeNow = s.treeNow := rfl
@[simp] theorem modStream_treeReady (n : Nat) (f : StreamSt → StreamSt) : (modStream s n f).treeReady = s.treeReady := rfl
@[simp] theorem modStream_treeNext (n : Nat) (f : StreamSt → StreamSt) : (modStream s n f).treeNext = s.treeNext := rfl
@[simp] theorem modStream_dev (n : Nat) (f : StreamSt → StreamSt) : (modStream s n f).dev = s.dev := rfl
@[simp] theorem modStream_rings (n : Nat) (f : StreamSt → StreamSt) : (modStream s n f).rings = s.rings := rfl
@[simp] theorem modStream_regs (n : Nat) (f : StreamSt → StreamSt) : (modStream s n f).regs = s.regs := rfl
@[simp] theorem modStream_force (n : Nat) (f : StreamSt → StreamSt) : (modStream s n f).force = s.force := rfl
@[simp] theorem modStream_latches (n : Nat) (f : StreamSt → StreamSt) : (modStream s n f).latches = s.latches := rfl
@[simp] theorem modStream_stages (n : Nat) (f : StreamSt → StreamSt) : (modStream s n f).stages = s.stages := rfl
@[simp] theorem modStream_raw (n : Nat) (f : StreamSt → StreamSt) : (modStream s n f).raw = s.raw := rfl
@[simp] theorem modStream_img (n : Nat) (f : StreamSt → StreamSt) : (modStream s n f).img = s.img := rfl
@[simp] theorem modStream_chans (n : Nat) (f : StreamSt → StreamSt) : (modStream s n f).chans = s.chans := rfl
@[simp] theorem modStream_engs (n : Nat) (f : StreamSt → StreamSt) : (modStream s n f).engs = s.engs := rfl
@[simp] theorem modStream_caches (n : Nat) (f : StreamSt → StreamSt) : (modStream s n f).caches = s.caches := rfl
@[simp] theorem modStream_resends (n : Nat) (f : StreamSt → StreamSt) : (modStream s n f).resends = s.resends := rfl
@[simp] theorem modStream_queues (n : Nat) (f : StreamSt → StreamSt) : (modStream s n f).queues = s.queues := rfl
@[simp] theorem modStream_groups (n : Nat) (f : StreamSt → StreamSt) : (modStream s n f).groups = s.groups := rfl
@[simp] theorem modStream_slots (n : Nat) (f : StreamSt → StreamSt) : (modStream s n f).slots = s.slots := rfl
@[simp] theorem modStream_aps (n : Nat) (f : StreamSt → StreamSt) : (modStream s n f).aps = s.aps := rfl
@[simp] theorem modStream_nfs (n : Nat) (f : StreamSt → StreamSt) : (modStream s n f).nfs = s.nfs := rfl
@[simp] theorem modStream_prgs (n : Nat) (f : StreamSt → StreamSt) : (modStream s n f).prgs = s.prgs := rfl
@[simp] theorem modStream_lastBlock48 (n : Nat) (f : StreamSt → StreamSt) : (modStream s n f).lastBlock48 = s.lastBlock48 := rfl
@[simp] theorem modStream_lastBlock96 (n : Nat) (f : StreamSt → StreamSt) : (modStream s n f).lastBlock96 = s.lastBlock96 := rfl
@[simp] theorem modStream_ports (n : Nat) (f : StreamSt → StreamSt) : (modStream s n f).ports = s.ports := rfl
@[simp] theorem modStream_flows (n : Nat) (f : StreamSt → StreamSt) : (modStream s n f).flows = s.flows := rfl
@[simp] theorem modStream_ox (n : Nat) (f : StreamSt → StreamSt) : (modStream s n f).ox = s.ox := rfl
@[simp] theorem modStream_systemPair (n : Nat) (f : StreamSt → StreamSt) : (modStream s n f).systemPair = s.systemPair := rfl
@[simp] theorem modStream_insts (n : Nat) (f : StreamSt → StreamSt) : (modStream s n f).insts = s.insts := rfl
@[simp] theorem modStream_classSince (n : Nat) (f : StreamSt → StreamSt) : (modStream s n f).classSince = s.classSince := rfl
@[simp] theorem modStream_fatal (n : Nat) (f : StreamSt → StreamSt) : (modStream s n f).fatal = s.fatal := rfl
@[simp] theorem modStream_reports (n : Nat) (f : StreamSt → StreamSt) : (modStream s n f).reports = s.reports := rfl
@[simp] theorem modStream_waiting (n : Nat) (f : StreamSt → StreamSt) : (modStream s n f).waiting = s.waiting := rfl
@[simp] theorem modStream_ledger (n : Nat) (f : StreamSt → StreamSt) : (modStream s n f).ledger = s.ledger := rfl
@[simp] theorem modStream_ledgerNext (n : Nat) (f : StreamSt → StreamSt) : (modStream s n f).ledgerNext = s.ledgerNext := rfl
@[simp] theorem modStream_active (n : Nat) (f : StreamSt → StreamSt) : (modStream s n f).active = s.active := rfl
@[simp] theorem modStream_waitCores (n : Nat) (f : StreamSt → StreamSt) : (modStream s n f).waitCores = s.waitCores := rfl
@[simp] theorem modStream_downCores (n : Nat) (f : StreamSt → StreamSt) : (modStream s n f).downCores = s.downCores := rfl
@[simp] theorem modStream_mbx (n : Nat) (f : StreamSt → StreamSt) : (modStream s n f).mbx = s.mbx := rfl
@[simp] theorem modStream_msixEn (n : Nat) (f : StreamSt → StreamSt) : (modStream s n f).msixEn = s.msixEn := rfl
@[simp] theorem modStream_funcMask (n : Nat) (f : StreamSt → StreamSt) : (modStream s n f).funcMask = s.funcMask := rfl
@[simp] theorem modStream_msixTable (n : Nat) (f : StreamSt → StreamSt) : (modStream s n f).msixTable = s.msixTable := rfl
@[simp] theorem modStream_pba (n : Nat) (f : StreamSt → StreamSt) : (modStream s n f).pba = s.pba := rfl
@[simp] theorem modStream_writable (n : Nat) (f : StreamSt → StreamSt) : (modStream s n f).writable = s.writable := rfl
@[simp] theorem modStream_pmeEn (n : Nat) (f : StreamSt → StreamSt) : (modStream s n f).pmeEn = s.pmeEn := rfl
@[simp] theorem modStream_pmeAt (n : Nat) (f : StreamSt → StreamSt) : (modStream s n f).pmeAt = s.pmeAt := rfl
@[simp] theorem modStream_cks (n : Nat) (f : StreamSt → StreamSt) : (modStream s n f).cks = s.cks := rfl
@[simp] theorem modStream_pair (n : Nat) (f : StreamSt → StreamSt) : (modStream s n f).pair = s.pair := rfl
@[simp] theorem modStream_cal (n : Nat) (f : StreamSt → StreamSt) : (modStream s n f).cal = s.cal := rfl
@[simp] theorem modStream_coefs (n : Nat) (f : StreamSt → StreamSt) : (modStream s n f).coefs = s.coefs := rfl
@[simp] theorem modStream_tiles (n : Nat) (f : StreamSt → StreamSt) : (modStream s n f).tiles = s.tiles := rfl
@[simp] theorem modStream_displayNext (n : Nat) (f : StreamSt → StreamSt) : (modStream s n f).displayNext = s.displayNext := rfl
@[simp] theorem modStream_refMark (n : Nat) (f : StreamSt → StreamSt) : (modStream s n f).refMark = s.refMark := rfl
@[simp] theorem modStream_free (n : Nat) (f : StreamSt → StreamSt) : (modStream s n f).free = s.free := rfl
@[simp] theorem modStream_out (n : Nat) (f : StreamSt → StreamSt) : (modStream s n f).out = s.out := rfl

/-! ### latch -/

@[simp] theorem latch_pending (m : Master) (r : Reg) (v : Word) : (Machine.latch s m r v).pending = s.pending := rfl
@[simp] theorem latch_power (m : Master) (r : Reg) (v : Word) : (Machine.latch s m r v).power = s.power := rfl
@[simp] theorem latch_pins (m : Master) (r : Reg) (v : Word) : (Machine.latch s m r v).pins = s.pins := rfl
@[simp] theorem latch_latch (m : Master) (r : Reg) (v : Word) : (Machine.latch s m r v).latch = s.latch := rfl
@[simp] theorem latch_fuses (m : Master) (r : Reg) (v : Word) : (Machine.latch s m r v).fuses = s.fuses := rfl
@[simp] theorem latch_nv (m : Master) (r : Reg) (v : Word) : (Machine.latch s m r v).nv = s.nv := rfl
@[simp] theorem latch_treeNow (m : Master) (r : Reg) (v : Word) : (Machine.latch s m r v).treeNow = s.treeNow := rfl
@[simp] theorem latch_treeReady (m : Master) (r : Reg) (v : Word) : (Machine.latch s m r v).treeReady = s.treeReady := rfl
@[simp] theorem latch_treeNext (m : Master) (r : Reg) (v : Word) : (Machine.latch s m r v).treeNext = s.treeNext := rfl
@[simp] theorem latch_dev (m : Master) (r : Reg) (v : Word) : (Machine.latch s m r v).dev = s.dev := rfl
@[simp] theorem latch_rings (m : Master) (r : Reg) (v : Word) : (Machine.latch s m r v).rings = s.rings := rfl
@[simp] theorem latch_regs (m : Master) (r : Reg) (v : Word) : (Machine.latch s m r v).regs = s.regs := rfl
@[simp] theorem latch_force (m : Master) (r : Reg) (v : Word) : (Machine.latch s m r v).force = s.force := rfl
@[simp] theorem latch_stages (m : Master) (r : Reg) (v : Word) : (Machine.latch s m r v).stages = s.stages := rfl
@[simp] theorem latch_raw (m : Master) (r : Reg) (v : Word) : (Machine.latch s m r v).raw = s.raw := rfl
@[simp] theorem latch_img (m : Master) (r : Reg) (v : Word) : (Machine.latch s m r v).img = s.img := rfl
@[simp] theorem latch_chans (m : Master) (r : Reg) (v : Word) : (Machine.latch s m r v).chans = s.chans := rfl
@[simp] theorem latch_engs (m : Master) (r : Reg) (v : Word) : (Machine.latch s m r v).engs = s.engs := rfl
@[simp] theorem latch_caches (m : Master) (r : Reg) (v : Word) : (Machine.latch s m r v).caches = s.caches := rfl
@[simp] theorem latch_streams (m : Master) (r : Reg) (v : Word) : (Machine.latch s m r v).streams = s.streams := rfl
@[simp] theorem latch_resends (m : Master) (r : Reg) (v : Word) : (Machine.latch s m r v).resends = s.resends := rfl
@[simp] theorem latch_queues (m : Master) (r : Reg) (v : Word) : (Machine.latch s m r v).queues = s.queues := rfl
@[simp] theorem latch_groups (m : Master) (r : Reg) (v : Word) : (Machine.latch s m r v).groups = s.groups := rfl
@[simp] theorem latch_slots (m : Master) (r : Reg) (v : Word) : (Machine.latch s m r v).slots = s.slots := rfl
@[simp] theorem latch_aps (m : Master) (r : Reg) (v : Word) : (Machine.latch s m r v).aps = s.aps := rfl
@[simp] theorem latch_nfs (m : Master) (r : Reg) (v : Word) : (Machine.latch s m r v).nfs = s.nfs := rfl
@[simp] theorem latch_prgs (m : Master) (r : Reg) (v : Word) : (Machine.latch s m r v).prgs = s.prgs := rfl
@[simp] theorem latch_lastBlock48 (m : Master) (r : Reg) (v : Word) : (Machine.latch s m r v).lastBlock48 = s.lastBlock48 := rfl
@[simp] theorem latch_lastBlock96 (m : Master) (r : Reg) (v : Word) : (Machine.latch s m r v).lastBlock96 = s.lastBlock96 := rfl
@[simp] theorem latch_ports (m : Master) (r : Reg) (v : Word) : (Machine.latch s m r v).ports = s.ports := rfl
@[simp] theorem latch_flows (m : Master) (r : Reg) (v : Word) : (Machine.latch s m r v).flows = s.flows := rfl
@[simp] theorem latch_ox (m : Master) (r : Reg) (v : Word) : (Machine.latch s m r v).ox = s.ox := rfl
@[simp] theorem latch_systemPair (m : Master) (r : Reg) (v : Word) : (Machine.latch s m r v).systemPair = s.systemPair := rfl
@[simp] theorem latch_insts (m : Master) (r : Reg) (v : Word) : (Machine.latch s m r v).insts = s.insts := rfl
@[simp] theorem latch_classSince (m : Master) (r : Reg) (v : Word) : (Machine.latch s m r v).classSince = s.classSince := rfl
@[simp] theorem latch_fatal (m : Master) (r : Reg) (v : Word) : (Machine.latch s m r v).fatal = s.fatal := rfl
@[simp] theorem latch_reports (m : Master) (r : Reg) (v : Word) : (Machine.latch s m r v).reports = s.reports := rfl
@[simp] theorem latch_waiting (m : Master) (r : Reg) (v : Word) : (Machine.latch s m r v).waiting = s.waiting := rfl
@[simp] theorem latch_ledger (m : Master) (r : Reg) (v : Word) : (Machine.latch s m r v).ledger = s.ledger := rfl
@[simp] theorem latch_ledgerNext (m : Master) (r : Reg) (v : Word) : (Machine.latch s m r v).ledgerNext = s.ledgerNext := rfl
@[simp] theorem latch_active (m : Master) (r : Reg) (v : Word) : (Machine.latch s m r v).active = s.active := rfl
@[simp] theorem latch_waitCores (m : Master) (r : Reg) (v : Word) : (Machine.latch s m r v).waitCores = s.waitCores := rfl
@[simp] theorem latch_downCores (m : Master) (r : Reg) (v : Word) : (Machine.latch s m r v).downCores = s.downCores := rfl
@[simp] theorem latch_mbx (m : Master) (r : Reg) (v : Word) : (Machine.latch s m r v).mbx = s.mbx := rfl
@[simp] theorem latch_msixEn (m : Master) (r : Reg) (v : Word) : (Machine.latch s m r v).msixEn = s.msixEn := rfl
@[simp] theorem latch_funcMask (m : Master) (r : Reg) (v : Word) : (Machine.latch s m r v).funcMask = s.funcMask := rfl
@[simp] theorem latch_msixTable (m : Master) (r : Reg) (v : Word) : (Machine.latch s m r v).msixTable = s.msixTable := rfl
@[simp] theorem latch_pba (m : Master) (r : Reg) (v : Word) : (Machine.latch s m r v).pba = s.pba := rfl
@[simp] theorem latch_writable (m : Master) (r : Reg) (v : Word) : (Machine.latch s m r v).writable = s.writable := rfl
@[simp] theorem latch_pmeEn (m : Master) (r : Reg) (v : Word) : (Machine.latch s m r v).pmeEn = s.pmeEn := rfl
@[simp] theorem latch_pmeAt (m : Master) (r : Reg) (v : Word) : (Machine.latch s m r v).pmeAt = s.pmeAt := rfl
@[simp] theorem latch_cks (m : Master) (r : Reg) (v : Word) : (Machine.latch s m r v).cks = s.cks := rfl
@[simp] theorem latch_pair (m : Master) (r : Reg) (v : Word) : (Machine.latch s m r v).pair = s.pair := rfl
@[simp] theorem latch_cal (m : Master) (r : Reg) (v : Word) : (Machine.latch s m r v).cal = s.cal := rfl
@[simp] theorem latch_coefs (m : Master) (r : Reg) (v : Word) : (Machine.latch s m r v).coefs = s.coefs := rfl
@[simp] theorem latch_tiles (m : Master) (r : Reg) (v : Word) : (Machine.latch s m r v).tiles = s.tiles := rfl
@[simp] theorem latch_displayNext (m : Master) (r : Reg) (v : Word) : (Machine.latch s m r v).displayNext = s.displayNext := rfl
@[simp] theorem latch_refMark (m : Master) (r : Reg) (v : Word) : (Machine.latch s m r v).refMark = s.refMark := rfl
@[simp] theorem latch_free (m : Master) (r : Reg) (v : Word) : (Machine.latch s m r v).free = s.free := rfl
@[simp] theorem latch_out (m : Master) (r : Reg) (v : Word) : (Machine.latch s m r v).out = s.out := rfl

/-! ### What the forms of a meaning keep -/

variable (t : State)

@[simp] theorem keepStores_pending : (keepStores s t).pending = s.pending := rfl
@[simp] theorem keepStores_power : (keepStores s t).power = s.power := rfl
@[simp] theorem keepStores_pins : (keepStores s t).pins = t.pins := rfl
@[simp] theorem keepStores_latch : (keepStores s t).latch = s.latch := rfl
@[simp] theorem keepStores_fuses : (keepStores s t).fuses = s.fuses := rfl
@[simp] theorem keepStores_nv : (keepStores s t).nv = s.nv := rfl
@[simp] theorem keepStores_treeNow : (keepStores s t).treeNow = s.treeNow := rfl
@[simp] theorem keepStores_treeReady : (keepStores s t).treeReady = s.treeReady := rfl
@[simp] theorem keepStores_treeNext : (keepStores s t).treeNext = s.treeNext := rfl
@[simp] theorem keepStores_dev : (keepStores s t).dev = s.dev := rfl
@[simp] theorem keepStores_rings : (keepStores s t).rings = t.rings := rfl
@[simp] theorem keepStores_regs : (keepStores s t).regs = t.regs := rfl
@[simp] theorem keepStores_force : (keepStores s t).force = t.force := rfl
@[simp] theorem keepStores_latches : (keepStores s t).latches = t.latches := rfl
@[simp] theorem keepStores_stages : (keepStores s t).stages = t.stages := rfl
@[simp] theorem keepStores_raw : (keepStores s t).raw = s.raw := rfl
@[simp] theorem keepStores_img : (keepStores s t).img = t.img := rfl
@[simp] theorem keepStores_chans : (keepStores s t).chans = t.chans := rfl
@[simp] theorem keepStores_engs : (keepStores s t).engs = t.engs := rfl
@[simp] theorem keepStores_caches : (keepStores s t).caches = t.caches := rfl
@[simp] theorem keepStores_streams : (keepStores s t).streams = t.streams := rfl
@[simp] theorem keepStores_resends : (keepStores s t).resends = t.resends := rfl
@[simp] theorem keepStores_queues : (keepStores s t).queues = t.queues := rfl
@[simp] theorem keepStores_groups : (keepStores s t).groups = t.groups := rfl
@[simp] theorem keepStores_slots : (keepStores s t).slots = t.slots := rfl
@[simp] theorem keepStores_aps : (keepStores s t).aps = t.aps := rfl
@[simp] theorem keepStores_nfs : (keepStores s t).nfs = t.nfs := rfl
@[simp] theorem keepStores_prgs : (keepStores s t).prgs = t.prgs := rfl
@[simp] theorem keepStores_lastBlock48 : (keepStores s t).lastBlock48 = t.lastBlock48 := rfl
@[simp] theorem keepStores_lastBlock96 : (keepStores s t).lastBlock96 = t.lastBlock96 := rfl
@[simp] theorem keepStores_ports : (keepStores s t).ports = t.ports := rfl
@[simp] theorem keepStores_flows : (keepStores s t).flows = t.flows := rfl
@[simp] theorem keepStores_ox : (keepStores s t).ox = t.ox := rfl
@[simp] theorem keepStores_systemPair : (keepStores s t).systemPair = t.systemPair := rfl
@[simp] theorem keepStores_insts : (keepStores s t).insts = t.insts := rfl
@[simp] theorem keepStores_classSince : (keepStores s t).classSince = t.classSince := rfl
@[simp] theorem keepStores_fatal : (keepStores s t).fatal = t.fatal := rfl
@[simp] theorem keepStores_reports : (keepStores s t).reports = t.reports := rfl
@[simp] theorem keepStores_waiting : (keepStores s t).waiting = t.waiting := rfl
@[simp] theorem keepStores_ledger : (keepStores s t).ledger = t.ledger := rfl
@[simp] theorem keepStores_ledgerNext : (keepStores s t).ledgerNext = t.ledgerNext := rfl
@[simp] theorem keepStores_active : (keepStores s t).active = t.active := rfl
@[simp] theorem keepStores_waitCores : (keepStores s t).waitCores = t.waitCores := rfl
@[simp] theorem keepStores_downCores : (keepStores s t).downCores = t.downCores := rfl
@[simp] theorem keepStores_mbx : (keepStores s t).mbx = t.mbx := rfl
@[simp] theorem keepStores_msixEn : (keepStores s t).msixEn = t.msixEn := rfl
@[simp] theorem keepStores_funcMask : (keepStores s t).funcMask = t.funcMask := rfl
@[simp] theorem keepStores_msixTable : (keepStores s t).msixTable = t.msixTable := rfl
@[simp] theorem keepStores_pba : (keepStores s t).pba = t.pba := rfl
@[simp] theorem keepStores_writable : (keepStores s t).writable = t.writable := rfl
@[simp] theorem keepStores_pmeEn : (keepStores s t).pmeEn = t.pmeEn := rfl
@[simp] theorem keepStores_pmeAt : (keepStores s t).pmeAt = t.pmeAt := rfl
@[simp] theorem keepStores_cks : (keepStores s t).cks = t.cks := rfl
@[simp] theorem keepStores_pair : (keepStores s t).pair = t.pair := rfl
@[simp] theorem keepStores_cal : (keepStores s t).cal = t.cal := rfl
@[simp] theorem keepStores_coefs : (keepStores s t).coefs = t.coefs := rfl
@[simp] theorem keepStores_tiles : (keepStores s t).tiles = t.tiles := rfl
@[simp] theorem keepStores_displayNext : (keepStores s t).displayNext = t.displayNext := rfl
@[simp] theorem keepStores_refMark : (keepStores s t).refMark = t.refMark := rfl
@[simp] theorem keepStores_free : (keepStores s t).free = t.free := rfl
@[simp] theorem keepStores_out : (keepStores s t).out = t.out := rfl
@[simp] theorem keepTime_pending : (keepTime s t).pending = s.pending := rfl
@[simp] theorem keepTime_power : (keepTime s t).power = s.power := rfl
@[simp] theorem keepTime_pins : (keepTime s t).pins = t.pins := rfl
@[simp] theorem keepTime_latch : (keepTime s t).latch = s.latch := rfl
@[simp] theorem keepTime_fuses : (keepTime s t).fuses = t.fuses := rfl
@[simp] theorem keepTime_nv : (keepTime s t).nv = t.nv := rfl
@[simp] theorem keepTime_treeNow : (keepTime s t).treeNow = t.treeNow := rfl
@[simp] theorem keepTime_treeReady : (keepTime s t).treeReady = t.treeReady := rfl
@[simp] theorem keepTime_treeNext : (keepTime s t).treeNext = t.treeNext := rfl
@[simp] theorem keepTime_dev : (keepTime s t).dev = t.dev := rfl
@[simp] theorem keepTime_rings : (keepTime s t).rings = t.rings := rfl
@[simp] theorem keepTime_regs : (keepTime s t).regs = t.regs := rfl
@[simp] theorem keepTime_force : (keepTime s t).force = t.force := rfl
@[simp] theorem keepTime_latches : (keepTime s t).latches = t.latches := rfl
@[simp] theorem keepTime_stages : (keepTime s t).stages = t.stages := rfl
@[simp] theorem keepTime_raw : (keepTime s t).raw = s.raw := rfl
@[simp] theorem keepTime_img : (keepTime s t).img = t.img := rfl
@[simp] theorem keepTime_chans : (keepTime s t).chans = t.chans := rfl
@[simp] theorem keepTime_engs : (keepTime s t).engs = t.engs := rfl
@[simp] theorem keepTime_caches : (keepTime s t).caches = t.caches := rfl
@[simp] theorem keepTime_streams : (keepTime s t).streams = t.streams := rfl
@[simp] theorem keepTime_resends : (keepTime s t).resends = t.resends := rfl
@[simp] theorem keepTime_queues : (keepTime s t).queues = t.queues := rfl
@[simp] theorem keepTime_groups : (keepTime s t).groups = t.groups := rfl
@[simp] theorem keepTime_slots : (keepTime s t).slots = t.slots := rfl
@[simp] theorem keepTime_aps : (keepTime s t).aps = t.aps := rfl
@[simp] theorem keepTime_nfs : (keepTime s t).nfs = t.nfs := rfl
@[simp] theorem keepTime_prgs : (keepTime s t).prgs = t.prgs := rfl
@[simp] theorem keepTime_lastBlock48 : (keepTime s t).lastBlock48 = t.lastBlock48 := rfl
@[simp] theorem keepTime_lastBlock96 : (keepTime s t).lastBlock96 = t.lastBlock96 := rfl
@[simp] theorem keepTime_ports : (keepTime s t).ports = t.ports := rfl
@[simp] theorem keepTime_flows : (keepTime s t).flows = t.flows := rfl
@[simp] theorem keepTime_ox : (keepTime s t).ox = t.ox := rfl
@[simp] theorem keepTime_systemPair : (keepTime s t).systemPair = t.systemPair := rfl
@[simp] theorem keepTime_insts : (keepTime s t).insts = t.insts := rfl
@[simp] theorem keepTime_classSince : (keepTime s t).classSince = t.classSince := rfl
@[simp] theorem keepTime_fatal : (keepTime s t).fatal = t.fatal := rfl
@[simp] theorem keepTime_reports : (keepTime s t).reports = t.reports := rfl
@[simp] theorem keepTime_waiting : (keepTime s t).waiting = t.waiting := rfl
@[simp] theorem keepTime_ledger : (keepTime s t).ledger = t.ledger := rfl
@[simp] theorem keepTime_ledgerNext : (keepTime s t).ledgerNext = t.ledgerNext := rfl
@[simp] theorem keepTime_active : (keepTime s t).active = t.active := rfl
@[simp] theorem keepTime_waitCores : (keepTime s t).waitCores = t.waitCores := rfl
@[simp] theorem keepTime_downCores : (keepTime s t).downCores = t.downCores := rfl
@[simp] theorem keepTime_mbx : (keepTime s t).mbx = t.mbx := rfl
@[simp] theorem keepTime_msixEn : (keepTime s t).msixEn = t.msixEn := rfl
@[simp] theorem keepTime_funcMask : (keepTime s t).funcMask = t.funcMask := rfl
@[simp] theorem keepTime_msixTable : (keepTime s t).msixTable = t.msixTable := rfl
@[simp] theorem keepTime_pba : (keepTime s t).pba = t.pba := rfl
@[simp] theorem keepTime_writable : (keepTime s t).writable = t.writable := rfl
@[simp] theorem keepTime_pmeEn : (keepTime s t).pmeEn = t.pmeEn := rfl
@[simp] theorem keepTime_pmeAt : (keepTime s t).pmeAt = t.pmeAt := rfl
@[simp] theorem keepTime_cks : (keepTime s t).cks = t.cks := rfl
@[simp] theorem keepTime_pair : (keepTime s t).pair = t.pair := rfl
@[simp] theorem keepTime_cal : (keepTime s t).cal = t.cal := rfl
@[simp] theorem keepTime_coefs : (keepTime s t).coefs = t.coefs := rfl
@[simp] theorem keepTime_tiles : (keepTime s t).tiles = t.tiles := rfl
@[simp] theorem keepTime_displayNext : (keepTime s t).displayNext = t.displayNext := rfl
@[simp] theorem keepTime_refMark : (keepTime s t).refMark = t.refMark := rfl
@[simp] theorem keepTime_free : (keepTime s t).free = t.free := rfl
@[simp] theorem keepTime_out : (keepTime s t).out = t.out := rfl
@[simp] theorem keepBytes_pending : (keepBytes s t).pending = s.pending := rfl
@[simp] theorem keepBytes_power : (keepBytes s t).power = s.power := rfl
@[simp] theorem keepBytes_pins : (keepBytes s t).pins = t.pins := rfl
@[simp] theorem keepBytes_latch : (keepBytes s t).latch = s.latch := rfl
@[simp] theorem keepBytes_fuses : (keepBytes s t).fuses = t.fuses := rfl
@[simp] theorem keepBytes_nv : (keepBytes s t).nv = s.nv := rfl
@[simp] theorem keepBytes_treeNow : (keepBytes s t).treeNow = s.treeNow := rfl
@[simp] theorem keepBytes_treeReady : (keepBytes s t).treeReady = s.treeReady := rfl
@[simp] theorem keepBytes_treeNext : (keepBytes s t).treeNext = s.treeNext := rfl
@[simp] theorem keepBytes_dev : (keepBytes s t).dev = s.dev := rfl
@[simp] theorem keepBytes_rings : (keepBytes s t).rings = t.rings := rfl
@[simp] theorem keepBytes_regs : (keepBytes s t).regs = t.regs := rfl
@[simp] theorem keepBytes_force : (keepBytes s t).force = t.force := rfl
@[simp] theorem keepBytes_latches : (keepBytes s t).latches = t.latches := rfl
@[simp] theorem keepBytes_stages : (keepBytes s t).stages = t.stages := rfl
@[simp] theorem keepBytes_raw : (keepBytes s t).raw = s.raw := rfl
@[simp] theorem keepBytes_img : (keepBytes s t).img = t.img := rfl
@[simp] theorem keepBytes_chans : (keepBytes s t).chans = t.chans := rfl
@[simp] theorem keepBytes_engs : (keepBytes s t).engs = t.engs := rfl
@[simp] theorem keepBytes_caches : (keepBytes s t).caches = t.caches := rfl
@[simp] theorem keepBytes_streams : (keepBytes s t).streams = t.streams := rfl
@[simp] theorem keepBytes_resends : (keepBytes s t).resends = t.resends := rfl
@[simp] theorem keepBytes_queues : (keepBytes s t).queues = t.queues := rfl
@[simp] theorem keepBytes_groups : (keepBytes s t).groups = t.groups := rfl
@[simp] theorem keepBytes_slots : (keepBytes s t).slots = t.slots := rfl
@[simp] theorem keepBytes_aps : (keepBytes s t).aps = t.aps := rfl
@[simp] theorem keepBytes_nfs : (keepBytes s t).nfs = t.nfs := rfl
@[simp] theorem keepBytes_prgs : (keepBytes s t).prgs = t.prgs := rfl
@[simp] theorem keepBytes_lastBlock48 : (keepBytes s t).lastBlock48 = t.lastBlock48 := rfl
@[simp] theorem keepBytes_lastBlock96 : (keepBytes s t).lastBlock96 = t.lastBlock96 := rfl
@[simp] theorem keepBytes_ports : (keepBytes s t).ports = t.ports := rfl
@[simp] theorem keepBytes_flows : (keepBytes s t).flows = t.flows := rfl
@[simp] theorem keepBytes_ox : (keepBytes s t).ox = t.ox := rfl
@[simp] theorem keepBytes_systemPair : (keepBytes s t).systemPair = t.systemPair := rfl
@[simp] theorem keepBytes_insts : (keepBytes s t).insts = t.insts := rfl
@[simp] theorem keepBytes_classSince : (keepBytes s t).classSince = t.classSince := rfl
@[simp] theorem keepBytes_fatal : (keepBytes s t).fatal = t.fatal := rfl
@[simp] theorem keepBytes_reports : (keepBytes s t).reports = t.reports := rfl
@[simp] theorem keepBytes_waiting : (keepBytes s t).waiting = t.waiting := rfl
@[simp] theorem keepBytes_ledger : (keepBytes s t).ledger = t.ledger := rfl
@[simp] theorem keepBytes_ledgerNext : (keepBytes s t).ledgerNext = t.ledgerNext := rfl
@[simp] theorem keepBytes_active : (keepBytes s t).active = t.active := rfl
@[simp] theorem keepBytes_waitCores : (keepBytes s t).waitCores = t.waitCores := rfl
@[simp] theorem keepBytes_downCores : (keepBytes s t).downCores = t.downCores := rfl
@[simp] theorem keepBytes_mbx : (keepBytes s t).mbx = t.mbx := rfl
@[simp] theorem keepBytes_msixEn : (keepBytes s t).msixEn = t.msixEn := rfl
@[simp] theorem keepBytes_funcMask : (keepBytes s t).funcMask = t.funcMask := rfl
@[simp] theorem keepBytes_msixTable : (keepBytes s t).msixTable = t.msixTable := rfl
@[simp] theorem keepBytes_pba : (keepBytes s t).pba = t.pba := rfl
@[simp] theorem keepBytes_writable : (keepBytes s t).writable = t.writable := rfl
@[simp] theorem keepBytes_pmeEn : (keepBytes s t).pmeEn = t.pmeEn := rfl
@[simp] theorem keepBytes_pmeAt : (keepBytes s t).pmeAt = t.pmeAt := rfl
@[simp] theorem keepBytes_cks : (keepBytes s t).cks = t.cks := rfl
@[simp] theorem keepBytes_pair : (keepBytes s t).pair = t.pair := rfl
@[simp] theorem keepBytes_cal : (keepBytes s t).cal = t.cal := rfl
@[simp] theorem keepBytes_coefs : (keepBytes s t).coefs = t.coefs := rfl
@[simp] theorem keepBytes_tiles : (keepBytes s t).tiles = t.tiles := rfl
@[simp] theorem keepBytes_displayNext : (keepBytes s t).displayNext = t.displayNext := rfl
@[simp] theorem keepBytes_refMark : (keepBytes s t).refMark = t.refMark := rfl
@[simp] theorem keepBytes_free : (keepBytes s t).free = t.free := rfl
@[simp] theorem keepBytes_out : (keepBytes s t).out = t.out := rfl

/-! ### Registers -/

/-- A register reads what was written to it. -/
@[simp] theorem rd_wr_self (r : Reg) (v : Word) : rd (wr s r v) r = v := by simp [rd, wr]

/-- A write leaves every other register alone. -/
theorem rd_wr_ne {r r' : Reg} (v : Word) (h : r'.addr ≠ r.addr) : rd (wr s r v) r' = rd s r' := by
  simp [rd, wr, mget_mset_ne _ _ v h]

/-- The value in force of an RWF register is what was put in force. -/
@[simp] theorem rdf_wrf_self (r : Reg) (v : Word) : rdf (wrf s r v) r = v := by simp [rdf, wrf]

theorem rdf_wrf_ne {r r' : Reg} (v : Word) (h : r'.addr ≠ r.addr) : rdf (wrf s r v) r' = rdf s r' := by
  simp [rdf, wrf, mget_mset_ne _ _ v h]

/-- Registers are read from `regs` alone. -/
theorem rd_congr {s t : State} (h : s.regs = t.regs) (r : Reg) : rd s r = rd t r := by simp [rd, h]

@[simp] theorem rd_keepStores (r : Reg) : rd (keepStores s t) r = rd t r := rfl
@[simp] theorem rd_keepTime (r : Reg) : rd (keepTime s t) r = rd t r := rfl
@[simp] theorem rd_keepBytes (r : Reg) : rd (keepBytes s t) r = rd t r := rfl
@[simp] theorem rd_emit (o : Output) (r : Reg) : rd (emit s o) r = rd s r := rfl
@[simp] theorem rd_modChan (n : Nat) (f : Chan → Chan) (r : Reg) : rd (modChan s n f) r = rd s r := rfl

/-- Bit `i` of the word that has bit `k` alone. -/
theorem bitw_getLsbD (k i : Nat) (hk : k < 32) : (bitw k).getLsbD i = decide (i = k) := by
  unfold bitw
  rw [BitVec.getLsbD_ofNat, Nat.testBit_two_pow]
  by_cases h : k = i
  · subst h; simp [hk]
  · have : ¬ i = k := fun x => h x.symm
    simp [h, this]

/-- A bit reads what was put into it; the others stay. -/
theorem tbit_putBit (v : Word) (k i : Nat) (b : Bool) (hk : k < 32) (hi : i < 32) :
    tbit (putBit v k b) i = if i = k then b else tbit v i := by
  have h := bitw_getLsbD k i hk
  unfold tbit putBit
  cases b
  · rw [if_neg (by decide), BitVec.getLsbD_and, BitVec.getLsbD_not, h]
    by_cases e : i = k <;> simp [e, hi]
  · rw [if_pos rfl, BitVec.getLsbD_or, h]
    by_cases e : i = k <;> simp [e]

/-- A bit of a register reads what was put into it. -/
theorem rdBit_wrBit_self (r : Reg) (i : Nat) (b : Bool) (h : i < 32) : rdBit (wrBit s r i b) r i = b := by
  simp [rdBit, wrBit, tbit_putBit, h]

/-- A bit of a register keeps its value when another is set. -/
theorem rdBit_wrBit_ne (r : Reg) {i k : Nat} (b : Bool) (h : i < 32) (hk : k < 32) (hik : i ≠ k) :
    rdBit (wrBit s r k b) r i = rdBit s r i := by
  simp [rdBit, wrBit, tbit_putBit, h, hk, hik]

/-- An event bit is set by hardware. -/
theorem rdBit_setEvt (r : Reg) (i : Nat) (h : i < 32) : rdBit (setEvt s r i) r i = true := rdBit_wrBit_self s r i true h

/-- A counter counts one event and stops at all ones (R10). -/
@[simp] theorem rd_count_self (r : Reg) : rd (count s r) r = satInc (rd s r) := by simp [count]

theorem rd_count_ne {r r' : Reg} (h : r'.addr ≠ r.addr) : rd (count s r) r' = rd s r' := rd_wr_ne s _ h

theorem rd_wrBit_ne {r r' : Reg} (i : Nat) (b : Bool) (h : r'.addr ≠ r.addr) : rd (wrBit s r i b) r' = rd s r' := rd_wr_ne s _ h

theorem rd_wrFld_ne {r r' : Reg} (hi lo x : Nat) (h : r'.addr ≠ r.addr) : rd (wrFld s r hi lo x) r' = rd s r' := rd_wr_ne s _ h

end Sys2Proof.Machine
end

