-- ==== Sys2Proof/Laws/Exec.lean ====
section
/-!
SUPPORT. The forms of a meaning: what `act` and its kin answer, and what the next state keeps.
-/
namespace Sys2Proof.Machine

variable {ok : Bool} {s t : State} {f : State → State}

/-- A running device takes a command on units it has. -/
theorem act_run (h : s.power = .running) : act true s f = .next (keepStores s (f s)) := by simp [act, h]

/-- A device that does not run stays as it is. -/
theorem act_held (h : s.power ≠ .running) : act true s f = .next s := by simp [act, h]

/-- A command on a unit the device does not have is refused. -/
theorem act_none : act false s f = .refused .noSuchUnit := rfl

/-- All that `act` can answer as a next state. -/
theorem act_next (h : act ok s f = .next t) :
    ok = true ∧ (t = s ∧ s.power ≠ .running ∨ t = keepStores s (f s) ∧ s.power = .running) := by
  unfold act at h
  split at h
  · split at h <;> simp_all
  · cases h

theorem actStore_run (h : s.power = .running) : actStore true s f = .next (keepTime s (f s)) := by simp [actStore, h]

theorem actStore_held (h : s.power ≠ .running) : actStore true s f = .next s := by simp [actStore, h]

/-- All that `actStore` can answer as a next state. -/
theorem actStore_next (h : actStore ok s f = .next t) :
    ok = true ∧ (t = s ∧ s.power ≠ .running ∨ t = keepTime s (f s) ∧ s.power = .running) := by
  unfold actStore at h
  split at h
  · split at h <;> simp_all
  · cases h

theorem actFuses_run (h : s.power = .running) : actFuses true s f = .next (keepBytes s (f s)) := by simp [actFuses, h]

theorem actFuses_held (h : s.power ≠ .running) : actFuses true s f = .next s := by simp [actFuses, h]

/-- All that `actFuses` can answer as a next state. -/
theorem actFuses_next (h : actFuses ok s f = .next t) :
    ok = true ∧ (t = s ∧ s.power ≠ .running ∨ t = keepBytes s (f s) ∧ s.power = .running) := by
  unfold actFuses at h
  split at h
  · split at h <;> simp_all
  · cases h

/-- What every command of the form `act` leaves as it is. -/
theorem act_keeps (h : act ok s f = .next t) :
    t.pending = s.pending ∧ t.power = s.power ∧ t.raw = s.raw ∧ t.latch = s.latch ∧ t.fuses = s.fuses ∧ t.nv = s.nv ∧
      t.dev = s.dev ∧ t.treeReady = s.treeReady := by
  obtain ⟨-, ⟨rfl, -⟩ | ⟨rfl, -⟩⟩ := act_next h <;> simp

end Sys2Proof.Machine
end

