-- ==== Sys2Proof/Laws/Wire.lean ====
section
/-!
SUPPORT. The lengths of what goes on the wire: fields, headers, boxes, and TS packets of 188 bytes.
-/
namespace Sys2Proof.Machine

@[simp] theorem leBytes_length (n v : Nat) : (leBytes n v).length = n := by
  induction n generalizing v <;> simp_all [leBytes]

@[simp] theorem beBytes_length (n v : Nat) : (beBytes n v).length = n := by simp [beBytes]

@[simp] theorem padTo_length (n : Nat) (bs : List Byte) : (padTo n bs).length = n := by
  simp [padTo, zeros]; omega

@[simp] theorem udpDatagram_length (src dst : List Byte) (sp dp : Nat) (x : List Byte) :
    (udpDatagram src dst sp dp x).length = 8 + x.length := by simp [udpDatagram]; omega

@[simp] theorem ipv4Packet_length (tos ttl : Nat) (src dst x : List Byte) :
    (ipv4Packet tos ttl src dst x).length = 12 + src.length + dst.length + x.length := by simp [ipv4Packet]; omega

@[simp] theorem ipv6Packet_length (tos flow ttl : Nat) (src dst x : List Byte) :
    (ipv6Packet tos flow ttl src dst x).length = 8 + src.length + dst.length + x.length := by simp [ipv6Packet]; omega

@[simp] theorem rtpPacket_length (m : Bool) (pt : Nat) (seq : BitVec 16) (ts ssrc : Word) (x : List Byte) :
    (rtpPacket m pt seq ts ssrc x).length = 12 + x.length := by simp [rtpPacket]; omega

@[simp] theorem box_length (typ body : List Byte) : (box typ body).length = 4 + typ.length + body.length := by
  simp [box]; omega

/-- An adaptation field has the length asked for, where that leaves room for its PCR. -/
theorem adaptField_length (n : Nat) (pcr : Option (Nat × Nat)) (random : Bool) (h : pcr.isSome → 8 ≤ n) :
    (adaptField n pcr random).length = n := by
  match n, pcr with
  | 0, _ => rfl
  | 1, _ => rfl
  | n + 2, none => simp [adaptField]; omega
  | n + 2, some p => have := h rfl; simp [adaptField]; omega

/-- A packet whose adaptation field and payload fill it. -/
def TsOut.Full (x : TsOut) : Prop := x.adapt.length + x.payload.length = 184

/-- Every packet of a PES packet is full (R274). -/
theorem pesPackets_full (slot pid : Nat) (pcr : Option (Nat × Nat)) (random : Bool) (pes : List Byte) :
    ∀ x ∈ pesPackets slot pid pcr random pes, x.Full := by
  intro x hx
  obtain ⟨i, -, rfl⟩ := List.mem_map.1 hx
  simp only [TsOut.Full]
  rw [adaptField_length]
  · simp only [List.length_take]; split <;> split <;> omega
  · by_cases hi : i = 0 <;> simp only [hi, if_true, if_false, List.length_take]
    · intro hp; simp only [hp, if_true]; omega
    · simp

/-- Every packet of a section is full. -/
theorem sectionPackets_full (slot pid : Nat) (sec : List Byte) : ∀ x ∈ sectionPackets slot pid sec, x.Full := by
  intro x hx
  obtain ⟨i, -, rfl⟩ := List.mem_map.1 hx
  simp only [TsOut.Full, List.length_append, List.length_take, List.length_replicate, List.length_nil]; omega

/-- Full packets leave as 188 bytes each (R270). -/
theorem numberTs_length (cc : List Nat) (xs : List TsOut) (h : ∀ x ∈ xs, x.Full) :
    (numberTs cc xs).1.length = 188 * xs.length := by
  induction xs generalizing cc with
  | nil => rfl
  | cons x xs ih =>
    have hx : x.adapt.length + x.payload.length = 184 := h x (by simp)
    have := ih (cc.set x.slot ((cc.getD x.slot 0 + 1) % 16)) (fun y hy => h y (by simp [hy]))
    simp only [numberTs, List.length_append, this, TsOut.bytes, beBytes_length, List.length_cons, List.length_nil]
    omega

end Sys2Proof.Machine
end

