-- ==== Sys2Proof/Tests/Slice0.lean ====
section
/-!
SUPPORT. Checks of the model's own work on fixed values: the well-formedness checks, the manual's worked examples, and for every
statement a state and operands that meet the hypotheses of each of its clauses. A test of one value of the manual names its rule.
-/
namespace Sys2Proof.Tests
open Sys2Proof Sys2Proof.Machine

set_option Elab.async false

/-! ### Small states -/

/-- The state after reset with some registers given values. -/
def st (l : List (Reg × Word)) : State := l.foldl (fun s x => wr s x.1 x.2) State.reset

/-- A state with one channel pipe changed. -/
def onChan (s : State) (n : Nat) (g : Chan → Chan) : State := modChan s n g

/-- A state in which some descriptors of a queue are outstanding. -/
def outst (s : State) (q : Nat) (os : List Outst) : State :=
  { s with queues := [{ qid := q, outst := os, phase := true, nextSlot := 0, eseq := 0 }] }

/-- The next state a command answers, where it answers one. -/
def after (i : Instr) (s : State) : Option State :=
  match exec i s with
  | .next t => some t
  | _ => none

/-- A plane and a picture with nothing in them. -/
def pic0 : Picture := ⟨⟨0, 0, []⟩, ⟨0, 0, []⟩, ⟨0, 0, []⟩⟩

/-- Addresses of a stream, a transport stream. -/
def addr0 : NetPlan :=
  { dstMac := zeros 6, srcMac := zeros 6, vlan := none, tos := 0, flow := 0, ttl := 64, srcIp := zeros 4, dstIp := zeros 4, srcPort := 1000,
    dstPort := 2000, ssrc := 0, payloadType := 96 }
def ts0 : TsPlan :=
  { tsId := 1, program := 1, version := 0, pmtPid := 256, videoPid := 257, sctePid := 258, audioPids := [], av1Desc := [] }

/-- A rendition of 512 by 256 in HEVC at 6 Mbit/s. -/
def rend0 : RendPlan :=
  { id := 0, codec := 1, res := 0, w := 512, h := 256, bits10 := false, c422 := false, mode := 1, rate := 6000000, cpb := 6000000,
    initDelay := 45000, hdrMax := 1000, lrMax := 200000, form := 5, port := 0, ipv6 := false, share := 100000, seq0 := 0, cc0 := 0,
    filmGrain := false, dest := 0, sets := [], net := addr0, ts := ts0, config := [] }

/-- A channel of 512 by 256 at 50 frames a second with one rendition. -/
def plan0 : ChannelPlan :=
  { channel := 15, clusters := [15], slot := none, width := 512, height := 256, tfNum := 20000000, tfDen := 1, delay := 2, hold := 0,
    tl := 1, c420 := true, colour := 0, mdcv := none, cll := none, capsFlow := false, flows := [], layers := [], resolutions := [], rwf := [], rends := [rend0],
    outs := [], coefs := [], aps := [], nfs := [], prgs := [], hbmSets := [], longestAu := 0, metaShare := 0 }

/-- A grid of 50 frames a second. -/
def grid0 : Grid := { g0 := 1000000000, j0 := 0, num := 20000000, den := 1 }

/-- A frame as its boundary leaves it. -/
def frame0 : FrameSt :=
  { j := 0, k := 0, grid := grid0, plan := plan0, sliceSeq := 0, set := [], rwfGen := 0, closed := false, substituted := false,
    partialIn := false, input := none, inputCrc := 0, composed := none, gsig := 0, scaled := [], tilesDone := [], field := none,
    preparedLate := false, ready := [], cmdFirst := 0, cmdCount := 0, cmdCrc := 0, roiSeq := 0, rects := [], sections := [],
    triplets := [], grain := none, decided := false, splice := false, started := false, idr := false, joinIdr := false, layer := 0,
    nonRef := false, refs := [], avSlots := [], refresh := 0, sUse := 0, govS := 0, gopPos := 0, efforts := [], rends := [], busy := 0, rescued := false, rescueDone := false,
    rescueHeld := false, measuredIn := false, ledgerSeq := none, flowAud := [], portAud := [], coefs := [], prgSeen := [], stateSeen := false }

/-- A tile that waits for an engine, and a picture with it. -/
def tile0 : TileSt :=
  { col := 0, phase := .waiting, avoid := none, cap := 0, soft := 0, row := 0, running := false, started := 0, ckpts := [], used := 0,
    lrUsed := 0, qi := 0, quants := [], stop := none, reissued := false, entropy := [], codes := [], bytes := [] }
def rpic0 : RendPic :=
  { id := 0, effort := 4, decided := false, b := 0, a := 0, target := 0, qi := 0, tiles := [tile0], edges := [], rescueFixed := false,
    rescue := none, stopFixed := false, stop := none, sized := false, bits := 0, filler := 0, parts := [], packaged := false, launched := false,
    late := false, unitCrc := 0, unitSeq := 0, cpbNext := 0, alphaI := 0, alphaP := 0, vbrE := 0 }

/-- An analysis field of one block. -/
def field0 : Field :=
  { bw := 1, bh := 1, bands := 1, frame := 0, sceneCut := false, fade := false, fadeDown := false, slots := [], mean := 0, gain := 0,
    nIntra := 0, sumCx := 0, nStatic := 0, roiSeq := 0, blocks := [] }

/-- Channel 15 with the plan and grid above and some frames. -/
def chans0 (fs : List FrameSt) : State :=
  onChan State.reset 15 (fun c => { c with plan := some plan0, grid := some grid0, j := 5, k := 5, frames := fs })

/-- The same late enough for every instant of the frames above. -/
def late0 (fs : List FrameSt) : State := { chans0 fs with raw := 5000000000000 }

/-- A fetched descriptor of channel byte `ch`, opcode and payload. -/
def desc0 (op : Nat) (payload : List Byte) : Outst :=
  { slot := 0, opcode := op, cid := 1, desc := zeros 64, payload := some payload, handed := false, done := none, headAfter := 1,
    held := false, dead := false }

/-! ### Which commands name units the device has (R5): each check refuses one past the end and takes the last -/

theorem test_wf_refuses_one_past_the_end :
    ([.registerWrite .host 0x2000000 0 0, .rcCounterRead .host 0x2000000 false, .lowWordRead .sc0 0x2000000,
      .lowWordWrite .sc1 0x2000000 0, .rwfWrite .sc2 0x2000000 0,
      .videoPacketRx 16 ⟨0, []⟩, .rateDecision 16 0, .rateDecision 0 40, .tileTake 128,
      .cacheParityError 16 0, .pictureSized 0 40, .unitPackaged 1024, .datagramLaunch 24, .contribPacketRx 4 0 ⟨0, 0, false, []⟩,
      .roiUpdate 32768, .planeLoadDone 0 0 0 none, .planeLoadDone 0 8 0 none, .planeLoadDone 0 1 4 none, .coefDataRead .host 48,
      .tileBufferDone 16, .apLock 8, .audioPacketRx 32 ⟨0, [], []⟩, .audioAuEncoded 32, .cmpFire 8,
      .anTimeout 24, .losAssert 52, .blockLockLoss 28 [], .mergeWaitExpiry 128, .memoryRequest 10 0 none, .refreshDue 0 32,
      .parityAlert 0 16 0, .parityAlert 2 1 0, .queueEnable 32768 0, .moderationHoldoff 256, .mbxPost 4, .claim .host 8, .swiSet 2 0,
      .coreWait 4, .faultEvent 0 96 0 0, .faultEvent 6 0 0 0, .ckStart 8 0, .tokenTimeout 16, .audioBlockTimeout 8 0]
      : List Instr).all (fun i => !i.wf) = true := by decide +kernel

theorem test_wf_takes_the_last_unit :
    ([.registerWrite .host 0x1FFFFFC 0 0, .powerOnResetRelease false false (Vector.replicate 8 []), .loadCmdInvalidOp 3,
      .videoPacketRx 15 ⟨0, []⟩, .rateDecision 15 39, .tileTake 127, .cacheParityError 15 0, .unitPackaged 1023,
      .datagramLaunch 23, .contribPacketRx 3 3 ⟨0, 0, false, []⟩, .roiUpdate 32767, .planeLoadDone 15 7 3 none,
      .coefDataRead .sc3 47, .apLock 7, .audioPacketRx 31 ⟨0, [], []⟩, .cmpFire 7, .losAssert 51, .blockLockLoss 27 [],
      .mergeWaitExpiry 127, .memoryRequest 9 0 none, .refreshDue 9 31, .parityAlert 1 15 0, .parityAlert 9 0 0, .moderationHoldoff 255,
      .mbxPost 3, .claim .host 7, .faultEvent 0 95 0 0, .ckStart 7 0, .audioBlockTimeout 7 0] : List Instr).all Instr.wf = true := by
  decide +kernel

/-- What is no command of the device is refused as such, and what lies outside its memory faults (R5, R339). -/
theorem test_unknown_units_are_refused :
    exec (.apLock 8) State.reset = .refused .noSuchUnit ∧ exec (.memoryRequest 0 0x900000000 none) State.reset = .fault .noSuchAddress :=
  ⟨rfl, rfl⟩

/-! ### Registers (p01) -/

/-- Plain registers: EVT_EN of the last channel, GOV_CTL of the first with its RWF fields, the last word of BAR0, reserved. -/
theorem witness_plainRegister : plainRegister 0x4F0058 ∧ plainRegister 0x400100 ∧ plainRegister 0x1FFFFFC := by
  refine ⟨⟨by decide, by decide, by decide, by decide, by decide, by decide, fun s m v => ⟨rfl, rfl, rfl, rfl⟩⟩,
    ⟨by decide, by decide, by decide, by decide, by decide, by decide, fun s m v => ⟨rfl, rfl, rfl, rfl⟩⟩,
    ⟨by decide, by decide, by decide +kernel, by decide +kernel, by decide, by decide, fun s m v => ⟨rfl, rfl, rfl, rfl⟩⟩⟩
theorem witness_RegisterWriteByType :
    runs State.reset ∧ (rowAt 0x4F0058).isSome = true ∧ rowAt 0x1FFFFFC = none ∧
    (∃ row, rowAt 0x400100 = some row ∧ row.rwf ≠ 0) ∧ rwfOwner State.reset 0x400100 = some 0 ∧ 0 < State.reset.chans.length := by
  refine ⟨rfl, by decide +kernel, by decide +kernel, ⟨_, rfl, by decide +kernel⟩, by decide +kernel, by decide +kernel⟩

/-- The last mirrored offset of the last channel; a counter no read command owns; a reserved location. -/
theorem witness_MirrorsAndReadClearCounters :
    (∃ n x : Nat, runs State.reset ∧ n < 16 ∧ x < 0x8000 ∧ x % 4 = 0 ∧ n = 15 ∧ x = 0x7FFC) ∧
    (∃ a, inBar0 a = true ∧ a % 4 = 0 ∧ readCommand State.reset .sc3 a = none ∧ wideAt a = none ∧ (rowAt a).isSome = true) ∧
    (∃ a, inBar0 a = true ∧ a % 4 = 0 ∧ readCommand State.reset .host a = none ∧ wideAt a = none ∧ rowAt a = none) :=
  ⟨⟨15, 0x7FFC, rfl, by decide⟩, ⟨HOST_BAD_ACC.addr, by decide +kernel⟩, ⟨0x1FFFFFC, by decide +kernel⟩⟩

/-- LAST_DOWN of the last port for the read, the load command's source address for the two writes. -/
theorem witness_WideValuesLatchAndCommit :
    (∃ a, runs State.reset ∧ inBar0 a = true ∧ a % 4 = 0 ∧ wideAt a = some (a, 0, 2) ∧
      (∀ k < 2, ownReg (a + 4 * k) = false ∧ wideAt (a + 4 * k) = some (a, k, 2)) ∧ readCommand State.reset .host a = none) ∧
    (∃ a s, runs s ∧ inBar0 a = true ∧ a % 4 = 0 ∧ wideAt a = some (a, 0, 2) ∧ mirrorOf a = none ∧ ownReg a = false ∧ irqRange a = false ∧
      instAt Q_BASE_LO 0x40 32768 a = none ∧ writeCommandLow s .sc3 a 5 = none ∧ writeCommandHigh s a 5 = none ∧ writeCk s a 5 = none ∧
      writeSpecial s .sc3 a 5 = none ∧ ((rowAt a).map (fun r => decide (r.rw ≠ 0 ∧ r.rwf = 0))) = some true ∧
      ((rowAt (a + 4)).map (fun r => r.rwf)) = some 0 ∧ ownReg (a + 4) = false ∧
      mget s.stages (latchKey .sc3 (regAt (a + 4))) = some 7) ∧
    (∃ a, runs State.reset ∧ inBar0 (a + 4) = true ∧ wideAt (a + 4) = some (a, 1, 2) ∧ mirrorOf (a + 4) = none ∧
      irqRange (a + 4) = false ∧ writeCommandLow State.reset .sc3 (a + 4) 5 = none ∧ writeCommandHigh State.reset (a + 4) 5 = none ∧
      writeCk State.reset (a + 4) 5 = none ∧ writeSpecial State.reset .sc3 (a + 4) 5 = none ∧
      ((rowAt a).map (fun r => decide (r.rw ≠ 0))) = some true) :=
  ⟨⟨(P_LAST_DOWN_LO 23).addr, rfl, by decide +kernel⟩,
   ⟨IMG_SRC_ADDR_LO.addr, { State.reset with stages := [(latchKey .sc3 IMG_SRC_ADDR_HI, 7)] }, rfl, by decide +kernel⟩,
   ⟨IMG_SRC_ADDR_LO.addr, rfl, by decide +kernel⟩⟩

/-- An empty queue of a device that runs, is held in reset, and whose counter is at its last value. -/
theorem witness_IdleStepTicks :
    (∃ s : State, s.pending = [] ∧ s.power = .held) ∧ (∃ s : State, s.pending = [] ∧ s.power ≠ .held ∧ s.raw ≠ BitVec.allOnes 48) ∧
    (∃ s : State, s.pending = [] ∧ s.power ≠ .held ∧ s.raw = BitVec.allOnes 48) :=
  ⟨⟨{ State.reset with power := .held }, by decide⟩, ⟨State.reset, by decide⟩, ⟨{ State.reset with raw := BitVec.allOnes 48 }, by decide⟩⟩

/-- A device that runs, for the statements that ask for no more: BadSizeAccessChangesNothing and SoftwareRequestsSetAndClear. -/
theorem witness_a_running_device : ∃ s : State, runs s ∧ (0 : Nat) < 2 ∧ (1 : Nat) < 2 := ⟨State.reset, rfl, by decide⟩

/-! ### Images, log and attestation (p02) -/

/-- A load command in hand from the host, one staged. -/
def cmd0 (staged : Option StageResult) : LoadCmd :=
  { replan := false, force := false, tag := 7, src := .host, addr := 0, len := 64, staged := staged }
def loading0 (c : LoadCmd) : State := { State.reset with img := { ImgState.reset with cmd := some c } }

/-- The directory of R373 with slot 0 filled. -/
def dir0 : List Byte := [0x5A, 0x44, 0x49, 0x52, 1, 0, 0, 0, 0, 0, 1, 0] ++ zeros 52

/-- The verified image of nothing. -/
def info0 : ImageInfo :=
  { imageId := [], build := 0, svn := 0, meas := [], source := .host, degrade := false, restart := false,
    reading := { device := none, channels := [], otp := none, readable := true }, occupancy := [] }

theorem witness_LoadCommandsAreTakenUp :
    (∃ s, runs s ∧ s.img.cmd = none ∧ rd64 s IMG_SRC_ADDR_LO IMG_SRC_ADDR_HI % 64 = 0 ∧ s.img.forced = none ∧ s.img.inForce = none) ∧
    (∃ (q : Nat) (o : Outst) (p : List Byte) (s : State), runs s ∧ s.img.cmd = none ∧ q < 32768 ∧ nextUnhanded s q = some o ∧ o.opcode = 1 ∧
      o.payload = some p ∧ leAt p 0 8 % 64 = 0 ∧ s.img.forced = none ∧ leAt p 12 1 = 2) ∧
    (∃ s, runs s ∧ s.img.cmd = none ∧ rdFld s GLB_STAT 2 0 = 3 ∧ s.pins.bootSel = true ∧ rdFld s IMG_BOOT_INFO 23 8 = 0 ∧
      s.img.inForce = none ∧ cut dir0 0 4 = [0x5A, 0x44, 0x49, 0x52] ∧ leAt dir0 4 4 = 1 ∧ rdBit s GLB_PIN_STAT 11 = false ∧
      leAt dir0 8 4 ≠ 0xFFFFFFFF) :=
  ⟨⟨State.reset, rfl, by decide +kernel⟩,
   ⟨32767, desc0 1 (zeros 12 ++ [2] ++ zeros 19), zeros 12 ++ [2] ++ zeros 19,
     outst State.reset 32767 [desc0 1 (zeros 12 ++ [2] ++ zeros 19)], rfl, by decide +kernel⟩,
   ⟨{ st [(GLB_STAT, 3)] with pins := { Pins.reset with bootSel := true } }, rfl, by decide +kernel⟩⟩

theorem witness_BusyLoadsAndBadOpsAreOnlyCounted :
    (∃ s, runs s ∧ s.img.cmd.isSome = true) ∧ (∃ op : BitVec 4, runs State.reset ∧ op ≠ 1 ∧ op ≠ 2) :=
  ⟨⟨loading0 (cmd0 none), rfl, rfl⟩, ⟨15, rfl, by decide⟩⟩

/-- A command in hand on the first controller that can hold the system region; a header whose TOTAL_LEN is given. -/
def staging0 (c : LoadCmd) : State :=
  { st [(OX_STAT 2, 0x10)] with systemPair := [2], img := { ImgState.reset with cmd := some c } }
def head0 (n : Nat) : List Byte := zeros 24 ++ leBytes 8 n

/-- The longest image of a host's command; a flash image of all the bytes read; headers at and over 512 MiB. -/
theorem witness_StagingCopiesTheWholeImage :
    (∃ s c i, runs s ∧ s.img.cmd = some c ∧ c.staged = none ∧ fromFlash c = false ∧ c.len ≤ 2 ^ 29 ∧ systemCopies s = [i] ∧
      c.len = 2 ^ 29) ∧
    (∃ s c b, runs s ∧ s.img.cmd = some c ∧ c.staged = none ∧ fromFlash c = true ∧ systemCopies s ≠ [] ∧
      rdBit s GLB_PIN_STAT 11 = false ∧ imgTotal b ≤ 2 ^ 29 ∧ imgTotal b ≤ b.length) ∧
    imgTotal (head0 (2 ^ 29)) = 2 ^ 29 ∧ 2 ^ 29 < imgTotal (head0 (2 ^ 29 + 1)) :=
  ⟨⟨staging0 { cmd0 none with len := 2 ^ 29 }, { cmd0 none with len := 2 ^ 29 }, 2, rfl, by decide +kernel⟩,
   ⟨staging0 { cmd0 none with src := .flash1 }, { cmd0 none with src := .flash1 }, head0 32, rfl, by decide +kernel⟩,
   by decide +kernel, by decide +kernel⟩

/-- A staged copy of zeros is refused at the first step (R55); a forced image with every channel stopped is due. The code of an image
with true signatures was evaluated outside the package: some 10,000 blocks of SHA-256 are too many for the kernel. -/
theorem witness_VerificationReportsItsCode :
    (∃ s c b, runs s ∧ s.img.cmd = some c ∧ c.staged = some (.ok b) ∧ c.src = .host ∧
      verifyCode s c.replan (some c.len) b (sectionsRead b info0.reading) ≠ 0) ∧
    (∃ (s : State) (c : LoadCmd) (p : ChannelPlan), runs s ∧ s.img.cmd = some c ∧ c.src = .host ∧ c.staged = some (.ok []) ∧ c.replan = true ∧
      noBoundary s p.channel = false ∧ p.channel < s.chans.length ∧ p.channel < 16) ∧
    (∃ (s : State) (i : ImageInfo), runs s ∧ s.img.forced = some i ∧ allLaunched s = true) :=
  ⟨⟨loading0 (cmd0 (some (.ok (zeros 64)))), cmd0 (some (.ok (zeros 64))), zeros 64, rfl, by decide +kernel⟩,
   ⟨{ st [(CH_STAT 15, 2)] with img := { ImgState.reset with cmd := some { cmd0 (some (.ok [])) with replan := true } } },
    { cmd0 (some (.ok [])) with replan := true }, { plan0 with channel := 15 }, rfl, by decide +kernel⟩,
   ⟨{ State.reset with img := { ImgState.reset with forced := some info0 } }, info0, rfl, by decide +kernel⟩⟩

theorem witness_FusesBurnAsAsked : ∃ u : OtpUpdate, u.readBackOk = true := ⟨⟨3, zeros 32, 0, 64, true⟩, rfl⟩

/-- A store whose record A gives an index; the last index; no record. -/
def nv0 (next : Nat) : State := { State.reset with nv := putBytes [] (recordAt false) (recBytes 5 next) }
def job0 : QuoteJob := { tag := 1, buf := 0, msg := [], index := 0, waitTree := false }

theorem witness_QuoteCommitsItsIndexFirst :
    (∃ s cur, runs s ∧ s.img.quote = none ∧ currentRec s = some cur ∧ (leafRec s cur).next < 2 ^ 40 ∧ rdBit s IMG_NV_STAT 3 = false) ∧
    (∃ s, runs s ∧ s.img.quote = none ∧ currentRec s = none) ∧
    (∃ s cur, runs s ∧ s.img.quote = none ∧ currentRec s = some cur ∧ 2 ^ 40 ≤ (leafRec s cur).next) :=
  ⟨⟨nv0 (2 ^ 40 - 1), false, rfl, by decide +kernel⟩, ⟨State.reset, rfl, by decide +kernel⟩, ⟨nv0 (2 ^ 40), false, rfl, by decide +kernel⟩⟩

theorem witness_QuotesAndTreesComplete :
    (∃ s j, runs s ∧ s.img.quote = some j ∧ j.waitTree = false) ∧ (∃ s j, runs s ∧ s.img.quote = some j ∧ j.waitTree = true) ∧
    (∀ q ∈ [1, 2 ^ 20 - 1], ∃ s, runs s ∧ treeBuilding s = some q ∧ s.img.quote = none) ∧ (∃ s, runs s ∧ s.img.quote.isSome = true) := by
  refine
  ⟨⟨{ State.reset with img := { ImgState.reset with quote := some job0 } }, job0, rfl, rfl, rfl⟩,
   ⟨{ State.reset with img := { ImgState.reset with quote := some { job0 with waitTree := true } } }, { job0 with waitTree := true }, rfl, rfl, rfl⟩,
   fun q hq => ⟨nv0 (q * 2 ^ 20 + 1), rfl, ?_⟩, ⟨{ State.reset with img := { ImgState.reset with quote := some job0 } }, rfl, rfl⟩⟩
  simp only [List.mem_cons, List.not_mem_nil, or_false] at hq
  rcases hq with rfl | rfl <;> decide +kernel

/-- A staged copy that fails the first step. -/
theorem witness_NothingUnverifiedTakesEffect :
    ∃ s : State, s.img.cmd.isSome = true ∧ ∀ c b, s.img.cmd = some c → c.staged = some (.ok b) →
      formatOk b c.replan (if fromFlash c then none else some c.len) = false :=
  ⟨loading0 (cmd0 (some (.ok (zeros 64)))), rfl, fun _ _ hc hb => by cases hc; cases hb; decide +kernel⟩
/-! ### Channel pipes, governor, coding (p03, p04) -/

/-- What the latch instant took: nothing. -/
def bound0 : Bound := { set := [], counts := false, cmdFirst := 0, cmdCount := 0, cmdBytes := [], sections := [], triplets := [] }

theorem witness_BoundarySchedule :
    (∃ (s : State) (g : Grid), runs s ∧ 15 < s.chans.length ∧ (chan s 15).grid = some g ∧ reached s (latchAt g (chan s 15).j) = false) ∧
    (∀ hold : Bool, ∃ (s : State) (g : Grid), runs s ∧ (chan s 15).grid = some g ∧ (chan s 15).bound = none ∧ (chan s 15).stopped = false ∧
      (chan s 15).gap = none ∧ (chan s 15).cmds = [] ∧ (chan s 15).plan.isSome = true ∧ role s ≠ 2 ∧ (chan s 15).pend = none ∧
      rdBit s (CH_DUMP_CTL 15) 0 = false ∧ reached s (latchAt g (chan s 15).j) = true ∧ tbit (wordAtLatch s 15 (CH_COMMIT 15)) 0 = hold ∧
      channelOutputs s 15 = []) ∧
    (∃ (s : State) (g : Grid) (b : Bound) (p : ChannelPlan), runs s ∧ (chan s 15).grid = some g ∧ (chan s 15).bound = some b ∧
      (chan s 15).stopped = false ∧ reached s (boundaryAt g (chan s 15).j) = true ∧ s.img.forced = none ∧ (chan s 15).gap = none ∧
      (chan s 15).pend = none ∧ (chan s 15).plan = some p ∧ (∀ c ∈ p.clusters, c < 16) ∧ role s ≠ 2) ∧
    (∀ come stopped : Bool, ∃ (s : State) (g : Grid) (b : Bound), runs s ∧ (chan s 15).grid = some g ∧ (chan s 15).bound = some b ∧
      (chan s 15).stopped = stopped ∧ reached s (boundaryAt g (chan s 15).j) = come) ∧
    (∀ come : Bool, ∃ (s : State) (f : FrameSt), runs s ∧ oldest s 15 (fun f => !f.closed) = some f ∧
      reached s (cutoffAt f.grid f.j) = come ∧ (chan s 15).sources.filter (fun x => inWindow f.grid f.j x.capture) = [] ∧
      f.plan.slot = none ∧ f.input = none) ∧
    (∃ (s : State) (f : FrameSt) (p : Picture), runs s ∧ oldest s 15 (fun f => f.field.isNone) = some f ∧ f.composed = some p ∧
      scoutsOk s f.plan = true) ∧
    (∀ come : Bool, ∃ (s : State) (f : FrameSt), runs s ∧ oldest s 15 (fun f => !f.started) = some f ∧ f.decided = true ∧
      (chan s 15).dead = false ∧ reached s f.start = come ∧ f.prepared = false) := by
  refine ⟨⟨chans0 [], grid0, rfl, by decide +kernel⟩, fun hold => ?_, ⟨onChan (late0 []) 15 (fun c => { c with bound := some bound0 }), grid0,
    bound0, plan0, rfl, by decide +kernel⟩, fun come stopped => ⟨onChan (if come then late0 [] else chans0 []) 15 (fun c =>
      { c with bound := some bound0, stopped := stopped }), grid0, bound0, ?_⟩, fun come => ?_, ⟨chans0 [{ frame0 with composed := some pic0 }],
    { frame0 with composed := some pic0 }, pic0, rfl, by decide +kernel⟩, fun come => ?_⟩
  · cases hold
    · exact ⟨late0 [], grid0, rfl, by decide +kernel⟩
    · exact ⟨wr (late0 []) (CH_COMMIT 15) 1, grid0, rfl, by decide +kernel⟩
  · cases come <;> cases stopped <;> exact ⟨rfl, by decide +kernel⟩
  · cases come
    · exact ⟨chans0 [frame0], frame0, rfl, by decide +kernel⟩
    · exact ⟨late0 [frame0], frame0, rfl, by decide +kernel⟩
  · cases come
    · exact ⟨chans0 [{ frame0 with decided := true }], { frame0 with decided := true }, rfl, by decide +kernel⟩
    · exact ⟨late0 [{ frame0 with decided := true }], { frame0 with decided := true }, rfl, by decide +kernel⟩

/-- The least delay and the least frame period. -/
theorem witness_ScheduleOfAFrame :
    ∃ f : FrameSt, 0 < f.grid.num ∧ 0 < f.grid.den ∧ 2 ≤ f.plan.delay ∧ f.grid.j0 ≤ f.j ∧ 2 * f.grid.den ≤ f.grid.num ∧ f.plan.delay = 2 ∧
      f.grid.num = 2 ∧ f.j = f.grid.j0 :=
  ⟨{ frame0 with grid := { grid0 with num := 2 } }, by decide⟩

/-- Renditions of different numbers, FIXED_EN set and clear, a prediction above and below the capacity, a measurement. -/
theorem witness_GovernorKeepsItsLimits :
    ∃ f : FrameSt, (f.plan.rends.map (fun r => r.id)).Nodup ∧ tbit (f.reg (CH_GOV_CTL 15)) 7 = false ∧
      tbit ({ f with set := [((CH_GOV_CTL 15).addr, 0x80)] }.reg (CH_GOV_CTL 15)) 7 = true ∧
      govCap 0 f.grid < govPredict f.plan.rends 81920 (f.plan.rends.foldl (fun es x => mput es x.id 4) []) ∧
      govPredict f.plan.rends 81920 (f.plan.rends.foldl (fun es x => mput es x.id 4) []) ≤ govCap 128 f.grid :=
  ⟨frame0, by decide +kernel⟩

theorem witness_GovernorDecisionDecidesAFrame :
    (∀ come : Bool, ∃ (s : State) (f : FrameSt), runs s ∧ 15 < s.chans.length ∧ oldest s 15 (fun f => !f.decided) = some f ∧ role s = 0 ∧
      f.field.isSome = true ∧ (chan s 15).dead = false ∧ reached s f.gov = come) ∧
    (∀ come : Bool, ∃ (s : State) (f : FrameSt), runs s ∧ oldest s 15 (fun f => !f.decided) = some f ∧ role s = 1 ∧ f.field = none ∧
      (chan s 15).dead = false ∧ reached s f.gov = come) ∧
    (∃ (s : State) (f : FrameSt) (x : Nat × List Nat), runs s ∧ oldest s 15 (fun f => f.started && !f.rescueDone) = some f ∧
      reached s f.rescueAt = true ∧ (chan s 15).dead = false ∧ role s = 2 ∧ (chan s 15).notices.find? (fun x => x.1 = f.k) = some x) ∧
    (∀ come : Bool, ∃ (s : State) (f : FrameSt), runs s ∧ oldest s 15 (fun f => f.started && !f.rescueDone) = some f ∧
      reached s f.rescueAt = come ∧ (chan s 15).dead = false ∧ role s ≠ 2) ∧
    (∃ (s : State) (f : FrameSt), runs s ∧ oldest s 15 (fun f => f.started && !f.rescueDone) = some f ∧ reached s f.rescueAt = true ∧
      (chan s 15).dead = false ∧ role s = 2 ∧ (chan s 15).notices.find? (fun x => x.1 = f.k) = none) := by
  refine ⟨fun come => ?_, fun come => ⟨wr (if come then late0 [frame0] else chans0 [frame0]) MULE_PAIR_STAT 1, frame0, ?_⟩,
    ⟨onChan (wr (late0 [{ frame0 with started := true }]) MULE_PAIR_STAT 2) 15 (fun c => { c with notices := [(0, [0])] }),
      { frame0 with started := true }, (0, [0]), rfl, by decide +kernel⟩, fun come => ?_, ⟨wr (late0 [{ frame0 with started := true }]) MULE_PAIR_STAT 2, { frame0 with started := true }, rfl,
    by decide +kernel⟩⟩
  · cases come
    · exact ⟨chans0 [{ frame0 with field := some field0 }], { frame0 with field := some field0 }, rfl, by decide +kernel⟩
    · exact ⟨late0 [{ frame0 with field := some field0 }], { frame0 with field := some field0 }, rfl, by decide +kernel⟩
  · cases come <;> exact ⟨rfl, by decide +kernel⟩
  · cases come
    · exact ⟨chans0 [{ frame0 with started := true }], { frame0 with started := true }, rfl, by decide +kernel⟩
    · exact ⟨late0 [{ frame0 with started := true }], { frame0 with started := true }, rfl, by decide +kernel⟩

/-- The first frame, a later one, each layer count at its ends, a window of four. -/
theorem witness_IdrDecisionAndLayers :
    frame0.k = 0 ∧ { frame0 with k := 1 }.k ≠ 0 ∧ frame0.fld (CH_GOP_CTL 15) 10 0 = 0 ∧ tbit (frame0.reg (CH_GOP_CTL 15)) 12 = false ∧
    (1 ≤ 1 ∧ 1 ≤ 4) ∧ (1 ≤ 4 ∧ 4 ≤ 4) ∧ [(0, 0), (1, 0), (2, 0), (3, 0)].length ≤ 4 := by decide +kernel
/-- Channel 15 defined, with a plan, late enough for its first grid points. -/
def fed0 (p : ChannelPlan) (raw : Raw) : State :=
  { onChan (st [(CH_STAT 15, 1)]) 15 (fun c => { c with plan := some p, grid := some grid0, j := 5, k := 5 }) with raw := raw }

/-- A time_signal section of 21 bytes with its CRC_32 (R283). -/
def section0 : List Byte := [0xFC, 0x30, 18, 0, 0, 0, 0, 0, 0, 0, 0, 0, 1, 6, 0, 0, 0, 0xCD, 0xAD, 0x0F, 0x87]

theorem witness_InputAndBindingCommands :
    (∀ come : Bool, ∃ (s : State) (i : Nat) (v : VideoPacket), runs s ∧ 15 < s.chans.length ∧ (chan s 15).plan = some plan0 ∧
      plan0.slot = none ∧ (chan s 15).grid = some grid0 ∧ (chan s 15).stopped = false ∧ (chan s 15).gap = none ∧
      pointOf grid0 (rtpTime s v.ts) = some i ∧ (∀ r ∈ v.srds, runInside plan0 r = true) ∧ reached s (cutoffAt grid0 i) = come) ∧
    (∃ (s : State) (p : ChannelPlan), runs s ∧ 15 < s.chans.length ∧ (chan s 15).plan = some p ∧ p.capsFlow = true) ∧
    (∀ defined : Bool, ∃ (s : State) (o : Outst), runs s ∧ nextUnhanded s 32767 = some o ∧ o.opcode = 0x02 ∧
      leAt (o.payload.getD []) 0 1 = (if defined then 1 else 64) ∧ leAt o.desc 2 1 < 16 ∧ leAt o.desc 2 1 < s.chans.length ∧
      chanDefined s (leAt o.desc 2 1) = defined ∧
      (defined = true → ∀ r ∈ roiRects (o.payload.getD []), rectBad (((chan s (leAt o.desc 2 1)).plan.map (fun p => p.width)).getD 0)
        (((chan s (leAt o.desc 2 1)).plan.map (fun p => p.height)).getD 0) r = false)) ∧
    (∀ defined : Bool, ∃ (s : State) (o : Outst), runs s ∧ nextUnhanded s 32767 = some o ∧ o.opcode = 0x03 ∧
      leAt (o.payload.getD []) 10 1 = 1 ∧ leAt o.desc 2 1 < s.chans.length ∧ chanDefined s (leAt o.desc 2 1) = defined ∧
      ((chan s (leAt o.desc 2 1)).plan.map (fun x => x.rends.any (fun r => r.codec = 2 && r.filmGrain))).getD false = defined) ∧
    (∀ defined : Bool, ∃ (s : State) (o : Outst), runs s ∧ nextUnhanded s 32767 = some o ∧ o.opcode = 0x06 ∧
      leAt (o.payload.getD []) 0 1 = 15 ∧ chanDefined s 15 = defined ∧ leAt (o.payload.getD []) 0 1 < s.chans.length ∧
      ((chan s 15).plan.map (fun x => x.capsFlow)).getD false = false ∧ leAt (o.payload.getD []) 1 1 = 31) ∧
    (∀ defined : Bool, ∃ (s : State) (o : Outst), runs s ∧ nextUnhanded s 32767 = some o ∧ o.opcode = 0x05 ∧
      leAt (o.payload.getD []) 0 1 = 15 ∧ 15 < s.chans.length ∧ chanDefined s 15 = defined ∧ leAt (o.payload.getD []) 2 2 = 21 ∧
      (((o.payload.getD []).drop 16).take 21).length = 21 ∧ spliceMalformed (((o.payload.getD []).drop 16).take 21) = false ∧
      spliceEncrypted (((o.payload.getD []).drop 16).take 21) = false ∧ spliceKindOk (((o.payload.getD []).drop 16).take 21) = true ∧
      pendingSplices s 15 < 8) ∧
    (∃ (s : State) (f : FrameSt), runs s ∧ (chan s 15).frames = [f] ∧ f.started = true ∧ f.rends.all (metaReady s 15 f) = true ∧
      f.rends ≠ [] ∧ reached s f.launch = true) ∧
    (∃ s : State, runs s ∧ (chan s 15).dumpFrame = some (0, 0) ∧
      ((chan s 15).fields.find? (fun x => x.1 = 0)).map (fun x => x.2.2) = some field0) := by
  refine ⟨fun come => ?_, ⟨fed0 { plan0 with capsFlow := true } 0, { plan0 with capsFlow := true }, rfl, by decide +kernel⟩, fun d => ?_,
    fun d => ?_, fun d => ?_, fun d => ?_,
    ⟨late0 [{ frame0 with started := true, rends := [{ rpic0 with packaged := true }] }],
     { frame0 with started := true, rends := [{ rpic0 with packaged := true }] }, rfl, by decide +kernel⟩,
    ⟨onChan (chans0 []) 15 (fun c => { c with dumpFrame := some (0, 0), fields := [(0, 0, field0)] }), rfl, by decide +kernel⟩⟩
  · cases come
    · exact ⟨fed0 plan0 0, 0, ⟨90000, [⟨255, 0, List.replicate 512 1, [], []⟩]⟩, rfl, by decide +kernel⟩
    · exact ⟨fed0 plan0 5000000000000, 0, ⟨90000, []⟩, rfl, by decide +kernel⟩
  · let rect : List Byte := [0, 0, 0, 0, 0, 2, 0, 1, 15, 0, 0, 0]
    let o := { desc0 2 ([1] ++ zeros 15 ++ rect) with desc := [2, 0, 15] ++ zeros 61 }
    cases d
    · let o := { o with payload := some ([64] ++ zeros 31) }
      exact ⟨outst (chans0 []) 32767 [o], o, rfl, by decide +kernel⟩
    · exact ⟨outst (fed0 plan0 0) 32767 [o], o, rfl, by decide +kernel⟩
  · let o := { desc0 3 (zeros 10 ++ [1] ++ zeros 53) with desc := [3, 0, 15] ++ zeros 61 }
    let p := { plan0 with rends := [{ rend0 with codec := 2, filmGrain := true }] }
    cases d
    · exact ⟨outst (chans0 []) 32767 [o], o, rfl, by decide +kernel⟩
    · exact ⟨outst (fed0 p 0) 32767 [o], o, rfl, by decide +kernel⟩
  · let o := desc0 6 ([15, 31] ++ zeros 62)
    cases d
    · exact ⟨outst (chans0 []) 32767 [o], o, rfl, by decide +kernel⟩
    · exact ⟨outst (fed0 plan0 0) 32767 [o], o, rfl, by decide +kernel⟩
  · let o := desc0 5 ([15, 0, 21, 0] ++ zeros 12 ++ section0)
    cases d
    · exact ⟨outst (chans0 []) 32767 [o], o, rfl, by decide +kernel⟩
    · exact ⟨outst (fed0 plan0 0) 32767 [o], o, rfl, by decide +kernel⟩

/-- A field without slot 1, the smallest rendition, one column tile. -/
theorem witness_FieldOfAPicture : ∃ r : RendPlan, 0 < r.w ∧ 0 < r.h ∧ (1 : Nat) ≤ 1 ∧ (none : Option Plane) = none :=
  ⟨{ rend0 with w := 1, h := 1 }, by decide⟩

/-- The refusals of the commands that bind: too many rectangles; one out of order; a film-grain set that does not parse, is empty, is too
long; a caption with no triplet and with 32; a SPLICE of 15 bytes, with a command type it may not have, and with eight of them waiting. -/
theorem witness_BindingCommandsRefused :
    leAt (BitVec.ofNat 8 65 :: zeros 15) 0 1 = 65 ∧ rectBad 512 256 (2, 0, 1, 1, 0) = true ∧
    (∀ n ∈ [0, 257], leAt (zeros 12 ++ leBytes 2 n) 12 2 = n) ∧ (∀ n ∈ [0, 32], leAt [15, BitVec.ofNat 8 n] 1 1 = n) ∧
    leAt ([15, 0, 15, 0] ++ zeros 12) 2 2 = 15 ∧ leAt ([15, 0, 0, 4] ++ zeros 12) 2 2 = 1024 ∧
    spliceMalformed section0 = false ∧ spliceEncrypted section0 = false ∧
    (∃ b : Byte, spliceKindOk ((section0.take 13) ++ [b] ++ section0.drop 14) = false) ∧
    (∃ s : State, runs s ∧ chanDefined s 15 = true ∧ pendingSplices s 15 = 8) :=
  ⟨by decide, by decide +kernel, by decide, by decide, by decide, by decide, by decide +kernel, by decide +kernel, ⟨4, by decide +kernel⟩,
   ⟨onChan (fed0 plan0 0) 15 (fun c => { c with cmds := List.replicate 8 ⟨false, 32767, 0, -1, .splice [] false, []⟩ }), rfl,
    by decide +kernel⟩⟩

/-- No frame; a frame that is not due; a channel without engines whose frame holds nothing left to package. -/
theorem witness_MetadataWithoutARecord :
    (∃ s : State, runs s ∧ (chan s 15).frames = []) ∧
    (∀ dead : Bool, ∃ s : State, runs s ∧ (chan s 15).frames = [{ frame0 with rends := [rpic0] }] ∧ (chan s 15).dead = dead ∧
      (frame0.started && [rpic0].all (metaReady s 15 { frame0 with rends := [rpic0] }) && reached s frame0.launch) = false ∧
      ((chan s 15).dead && reached s frame0.launch && [rpic0].all (fun p => p.packaged || !p.verified)) = dead) := by
  refine ⟨⟨State.reset, rfl, by decide +kernel⟩, fun dead =>
    ⟨onChan (late0 [{ frame0 with rends := [rpic0] }]) 15 (fun c => { c with dead := dead }), ?_⟩⟩
  cases dead <;> exact ⟨rfl, by decide +kernel⟩

/-- A film-grain set of 2 bytes that parses, of update_grain alone, and one of 3 that does not; an ancillary packet with a good CDP among
others (R286, R374). -/
theorem witness_GrainAndCdps :
    (∃ bs : List Byte, bs.length ≤ 256 ∧ 1 ≤ bs.length ∧ grainParses bs = true) ∧ (∃ bs : List Byte, grainParses bs = false) ∧
    cdpGood [] = false ∧ (∃ bs : List Byte, cdpGood bs = true) ∧
    (∃ a b : List (Int × BitVec 16 × List (BitVec 24)), (∀ y ∈ a, 0 ≤ ((0 : BitVec 16) - y.2.1).toInt) ∧ a ≠ [] ∧
      ∀ y, b.head? = some y → ((0 : BitVec 16) - y.2.1).toInt < 0) :=
  ⟨⟨zeros 2, by decide +kernel⟩, ⟨zeros 3, by decide +kernel⟩, by decide +kernel, ⟨[0x96, 0x69, 4, 0xFD], by decide +kernel⟩,
   ⟨[(0, 0xFFFF, [])], [(0, 1, [])], by decide +kernel⟩⟩
/-! ### Coding engines and rate control (p05) -/

/-- A work item of the first frame's only tile, the frame under coding, a state in which engine 127 is in a state with it. -/
def item0 : WorkItem := { j := 0, rid := 0, col := 0, cls := 2, ord := 0 }
def coded0 (t : TileSt) : FrameSt :=
  { frame0 with composed := some pic0, field := some field0, started := true, rends := [{ rpic0 with decided := true, tiles := [t] }] }
def engine0 (es : Nat) (x : EngState) (f : FrameSt) (work : List WorkItem) : State :=
  let s := wr (wr (late0 [f]) (ENG_STAT 127) (mkWord [(2, 0, es), (11, 8, 15)])) (CL_STAT 15) (mkWord [(3, 0, 15), (4, 4, 1)])
  { onChan s 15 (fun c => { c with work := work }) with engs := s.engs.set 127 x }
def holds0 (es : List WorkItem) : EngState := { EngState.reset with item := some item0, edges := es }

theorem witness_EnginesTakeCodeAndVerify :
    (∃ s, runs s ∧ (chan s (engChannel s 127)).work.find? (fun i => takeable s (engChannel s 127) 127 i) = none ∧ engState s 127 = 1) ∧
    (∃ s i f r p x, runs s ∧ engState s 127 = 1 ∧ (chan s (engChannel s 127)).dead = false ∧ 127 < s.engs.length ∧
      (chan s (engChannel s 127)).work.find? (fun i => takeable s (engChannel s 127) 127 i) = some i ∧
      itemParts s (engChannel s 127) i = some (f, r, p, x) ∧ i.cls ≠ 1 ∧ x.row < p.limit (ctRows r)) ∧
    (∀ ph ∈ [TilePhase.coding, .tail, .coded], ∃ s f r p x, runs s ∧ (eng s 127).item = some item0 ∧ engState s 127 = 2 ∧
      itemParts s (rdFld s (ENG_STAT 127) 11 8) item0 = some (f, r, p, x) ∧ x.running = decide (ph ≠ TilePhase.coded) ∧ x.phase = ph ∧
      edgesOf p item0 = [] ∧ (eng s 127).edges = [] ∧ ∀ b : Bool, ∃ flips, (crc32c (flipBytes x.bytes flips) = crc32c x.bytes) ↔ b = true) ∧
    (∃ s f r p x, runs s ∧ (eng s 127).item = some item0 ∧ engState s 127 = 2 ∧
      itemParts s (rdFld s (ENG_STAT 127) 11 8) item0 = some (f, r, p, x) ∧ x.phase = .coded ∧ edgesOf p item0 ≠ []) ∧
    (∀ last : Bool, ∃ s, runs s ∧ 127 < s.engs.length ∧ (eng s 127).item = some item0 ∧
      (eng s 127).edges = item0 :: (if last then [] else [item0]) ∧ engState s 127 = 2) := by
  refine ⟨⟨engine0 1 EngState.reset frame0 [], rfl, by decide +kernel⟩,
    ⟨engine0 1 EngState.reset (coded0 tile0) [item0], item0, coded0 tile0, rend0, { rpic0 with decided := true, tiles := [tile0] }, tile0, rfl,
      by decide +kernel⟩, fun ph _ => ?_, ?_, fun last => ⟨engine0 2 (holds0 (item0 :: if last then [] else [item0])) (coded0 tile0) [], rfl, ?_⟩⟩
  · let t := { tile0 with phase := ph, running := decide (ph ≠ TilePhase.coded), bytes := [0] }
    have flip : ∀ b : Bool, ∃ flips, (crc32c (flipBytes [0] flips) = crc32c [0]) ↔ b = true := by
      intro b
      cases b
      · exact ⟨[(0, 1)], by decide +kernel⟩
      · exact ⟨[], by decide +kernel⟩
    refine ⟨engine0 2 (holds0 []) (coded0 t) [], coded0 t, rend0, { rpic0 with decided := true, tiles := [t] }, t, rfl, ?_⟩
    cases ph <;> exact ⟨by decide +kernel, by decide +kernel, by decide +kernel, by decide +kernel, by decide +kernel, by decide +kernel,
      by decide +kernel, flip⟩
  · let t := { tile0 with phase := .coded }
    let p := { rpic0 with decided := true, tiles := [t, { tile0 with col := 1, phase := .verified }] }
    exact ⟨engine0 2 (holds0 []) { coded0 t with rends := [p] } [], { coded0 t with rends := [p] }, rend0, p, t, rfl, by decide +kernel⟩
  · cases last <;> decide +kernel

/-- An engine in each state, with a tile in hand, with an edge pass in hand; a test that may start. -/
theorem witness_ParityChecksAndSelfTests :
    (∀ es < 7, ∃ s, runs s ∧ 127 < s.engs.length ∧ engState s 127 = es) ∧
    (∃ s, runs s ∧ engState s 127 = 2 ∧ (eng s 127).edges = [] ∧ (eng s 127).item = some item0) ∧
    (∃ s, runs s ∧ engState s 127 = 2 ∧ (eng s 127).edges ≠ []) ∧
    (∃ s, runs s ∧ engState s 127 = 3 ∧ ticksSince s (eng s 127).since (usTicks 50) = true) ∧
    (∃ s, runs s ∧ rdBit s GOOSE_ST_CTL 0 = true ∧ engState s 127 = 1 ∧ testWindow s (engChannel s 127) = true ∧
      passed s (eng s 127).lastTest (testPeriod s) = true) ∧
    (∀ fails ∈ [0, 1], ∃ s, runs s ∧ engState s 127 = 6 ∧ (eng s 127).stFails = fails) ∧
    (∀ on : Bool, ∃ s, runs s ∧ rdBit s GOOSE_ST_CTL 0 = true ∧ rdFld s (CL_SCT_STAT 15) 1 0 = 1 ∧ (eng s 15).scoutOn = on ∧
      testWindow s (rdFld s (CL_STAT 15) 3 0) = true ∧ passed s (eng s 15).scoutLast (testPeriod s) = true) ∧
    (∀ (b isScout : Bool) (v : Nat), ∃ crcs, testMatches isScout v crcs = b) ∧ 15 < State.reset.caches.length := by
  refine ⟨fun es h => ⟨engine0 es EngState.reset frame0 [], rfl, ?_⟩, ⟨engine0 2 (holds0 []) frame0 [], rfl, by decide +kernel⟩,
    ⟨engine0 2 (holds0 [item0]) frame0 [], rfl, by decide +kernel⟩,
    ⟨{ engine0 3 EngState.reset frame0 [] with raw := 62500 }, rfl, by decide +kernel⟩,
    ⟨{ wr (engine0 1 EngState.reset frame0 []) GOOSE_ST_CTL 1 with raw := 0 }, rfl, by decide +kernel⟩,
    fun fails hf => ⟨engine0 6 { EngState.reset with stFails := fails } frame0 [], rfl, ?_⟩,
    fun on => ⟨{ st [(GOOSE_ST_CTL, 1), (CL_SCT_STAT 15, 1), (CL_STAT 15, 15)] with
                  engs := List.replicate 128 { EngState.reset with scoutOn := on } }, rfl, ?_⟩, fun b isScout v => ?_, by decide +kernel⟩
  · have all : ∀ es < 7, 127 < (engine0 es EngState.reset frame0 []).engs.length ∧ engState (engine0 es EngState.reset frame0 []) 127 = es := by
      decide +kernel
    exact all es h
  · simp only [List.mem_cons, List.not_mem_nil, or_false] at hf
    rcases hf with rfl | rfl <;> decide +kernel
  · cases on <;> decide +kernel
  · cases b
    · exact ⟨(Config.testSignature isScout v 0 + 1, 0), decide_eq_false fun h => by
        have e : Config.testSignature isScout v 0 + 1 = Config.testSignature isScout v 0 := congrArg Prod.fst h
        bv_omega⟩
    · exact ⟨(Config.testSignature isScout v 0, Config.testSignature isScout v 1), decide_eq_true rfl⟩

theorem witness_TheModelBufferNeverFails :
    (∀ b : Bool, ∃ s f rp p, runs s ∧ 15 < s.chans.length ∧ oldestPic s 15 0 (fun p => !p.decided) = some (f, rp, p) ∧ f.started = b ∧
      (chan s 15).dead = false ∧ previousSized s 15 0 f.j = true ∧ lookaheadKnown (chan s 15) f = true ∧ awaitsFull s 15 f = false ∧
      p.rescue ≠ some 0 ∧ sumTo p.tiles.length (fun i => resBits p.tiles.length rp f.idr i 0) ≤ rp.lrMax ∧
      (p.tiles.map (fun x => x.col)) = List.range p.tiles.length ∧ rp.hdrMax + rp.lrMax ≤ (modelFor (chan s 15) f rp).b ∧
      ((chan s 15).frames.map (fun z => z.j)).Nodup ∧ (f.rends.map (fun z => z.id)).Nodup) ∧
    ((0 : Int) < 8 ∧ fillerPayload 1 0 8 = some 0) := by
  refine ⟨fun b => ?_, by decide +kernel⟩
  let p := { rpic0 with tiles := [tile0] }
  let f := { coded0 tile0 with started := b, rends := [p] }
  refine ⟨engine0 1 EngState.reset f [], f, rend0, p, rfl, ?_⟩
  cases b <;> decide +kernel

/-- An AV1 picture whose parts besides its tile bytes take `n` bits of HDR_MAX, at the least and the largest buffer of the clause. -/
def sizedTile0 : TileSt := { tile0 with phase := .verified, bytes := [7] }
def sizedRend0 (n cpb : Nat) : RendPlan := { rend0 with codec := 2, hdrMax := n, cpb := cpb }
def sizedPic0 (b : Nat) : RendPic := { rpic0 with decided := true, tiles := [sizedTile0], b := b, a := b }
def sizedFrame0 (n cpb b : Nat) : FrameSt :=
  { coded0 sizedTile0 with plan := { plan0 with rends := [sizedRend0 n cpb] }, rends := [sizedPic0 b] }
def model0 : RcModel :=
  { id := 0, codec := 2, dest := 0, slice := 0, from_ := none, b := 0, b0 := 0, sinceBp := none, e := 0, alphaI := 0, alphaP := 0 }

/-- The access unit does not depend on the bounds of the buffer. -/
theorem sizedParts_eq (n cpb b : Nat) : accessUnit (sizedFrame0 n cpb b) (sizedRend0 n cpb) (sizedPic0 b) 0 none =
    accessUnit (sizedFrame0 0 0 0) (sizedRend0 0 0) (sizedPic0 0) 0 none := by
  have frame : av1Frame (sizedRend0 n cpb) (sizedFrame0 n cpb b) (sizedPic0 b) none = av1Frame (sizedRend0 0 0) (sizedFrame0 0 0 0) (sizedPic0 0) none := by
    rfl
  have units : unitParts (sizedFrame0 n cpb b) (sizedRend0 n cpb) (sizedPic0 b) 0 none =
      unitParts (sizedFrame0 0 0 0) (sizedRend0 0 0) (sizedPic0 0) 0 none := by
    show [_, _] = [_, _]
    rw [frame]
    rfl
  have room : partRoom (sizedFrame0 n cpb b).plan (sizedRend0 n cpb) = partRoom (sizedFrame0 0 0 0).plan (sizedRend0 0 0) := by
    funext x
    cases x <;> rfl
  unfold accessUnit
  rw [units, room]
  rfl

theorem witness_APictureOfLeastHeader :
    ∃ s f rp p, runs s ∧ 15 < s.chans.length ∧ oldestPic s 15 0 (fun p => !p.sized) = some (f, rp, p) ∧ p.verified = true ∧
      noticeIn s 15 f = true ∧ 8 * partsLength (accessUnit f rp p (modelFor (chan s 15) f rp).b0 (modelFor (chan s 15) f rp).sinceBp) ≤
        rp.hdrMax + tileBits p ∧
      rp.hdrMax + rp.lrMax ≤ p.b ∧ p.b + 1 ≤ rp.cpb ∧ rp.hdrMax + tileBits p ≤ p.b ∧ rp.hdrMax + rp.lrMax ≤ p.a ∧ p.a + 65 ≤ rp.cpb := by
  let n := 8 * partsLength (accessUnit (sizedFrame0 0 0 0) (sizedRend0 0 0) (sizedPic0 0) 0 none)
  refine ⟨onChan (chans0 [sizedFrame0 n (n + 200065) (n + 200000)]) 15 (fun c => { c with models := [model0] }),
    sizedFrame0 n (n + 200065) (n + 200000), sizedRend0 n (n + 200065), sizedPic0 (n + 200000), rfl, by decide +kernel, rfl, rfl, rfl, ?_, ?_⟩
  · show 8 * partsLength (accessUnit (sizedFrame0 n _ _) (sizedRend0 n _) (sizedPic0 _) 0 none) ≤ n + 8
    rw [sizedParts_eq]
    exact Nat.le_add_right n 8
  · show n + 200000 ≤ n + 200000 ∧ n + 200000 + 1 ≤ n + 200065 ∧ n + 8 ≤ n + 200000 ∧ n + 200000 ≤ n + 200000 ∧
      n + 200000 + 65 ≤ n + 200065
    omega
/-! ### Contribution decode, graphics, scaling, monitor (p07, p08) -/

/-- A packet with a sequence number; an access unit of one slice segment of a NAL type. -/
def packet0 (seq : BitVec 16) : ContribPacket := ⟨seq, 90000, true, [0x26, 1, 0x80]⟩
def au0 (ty : Nat) (ended : Bool) : AuSt :=
  { arrived := 1000000000, timed := true, ts := 90000, pieces := [([BitVec.ofNat 8 (2 * ty), 1, 0x80], false)], size := 3, cut := false,
    ended := ended }
/-- The last slot of the last decode unit serving channel 15 with codec `cfg`, in a state. -/
def slot0 (cfg state : Word) (x : SlotSt) : State :=
  { st [(DS_SLOT_CFG 3 3, 0x1F0 + cfg), (DS_SLOT_STAT 3 3, state), (DS_SLOT_FMT 3 3, 0x4380780), (DS_AU_MAX 3 3, 4)] with
    slots := List.replicate 16 x }
def rung0 (as : List AuSt) : SlotSt := { SlotSt.reset with ring := as }

/-- Packets at, next to and beyond the last; the JPEG XS slot that waits; units that are and are not a random-access point; one a byte
over AU_MAX. -/
theorem witness_ContributionPackets :
    (∃ s : State, runs s ∧ 3 * 4 + 3 < s.slots.length ∧ slotAssigned s 3 3 = false) ∧
    (∃ (s : State) (q : BitVec 16), runs s ∧ slotAssigned s 3 3 = true ∧ (slotOf s 3 3).seqLast = some q ∧ slotCarriage s 3 3 ≠ 1 ∧
      ((packet0 0xFFFF).seq - q).toInt = 0 ∧ ((packet0 0).seq - q).toInt = 1 ∧ ((packet0 1).seq - q).toInt = 2) ∧
    (∃ s : State, runs s ∧ slotAssigned s 3 3 = true ∧ (slotOf s 3 3).seqLast = none ∧ slotCarriage s 3 3 ≠ 1 ∧ slotXs s 3 3 = true ∧
      slotState s 3 3 = 1 ∧ (slotOf s 3 3).gotRap = false ∧ arriving s 3 3 = none) ∧
    (∃ s : State, slotAssigned s 3 3 = true ∧ arriving s 3 3 = some (au0 19 false) ∧ isRap s 3 3 (au0 19 false) = true) ∧
    (∃ s : State, slotAssigned s 3 3 = true ∧ arriving s 3 3 = some (au0 1 false) ∧ isRap s 3 3 (au0 1 false) = false ∧
      (slotOf s 3 3).gotRap = false ∧ (au0 1 false).cut = false ∧ (rd s (DS_AU_MAX 3 3)).toNat < (au0 1 false).size + [0, 0].length) :=
  ⟨⟨State.reset, rfl, by decide +kernel⟩, ⟨slot0 1 1 { SlotSt.reset with seqLast := some 0xFFFF }, 0xFFFF, rfl, by decide +kernel⟩,
   ⟨slot0 2 1 SlotSt.reset, rfl, by decide +kernel⟩, ⟨slot0 1 1 (rung0 [au0 19 false]), by decide +kernel⟩,
   ⟨slot0 1 1 (rung0 [au0 1 false]), by decide +kernel⟩⟩

/-- An access unit of slices adds no parameter set, whatever its parser says. -/
theorem noteParams_of_slice (b : List Byte) (h : nalType b ≠ 33) (ps : List (Nat × Nat × Nat)) (sets : List (Nat × Nat × List Byte))
    (hs : sets.any (fun y => y.1 = 33) = false) : (noteParams [(b, false)] sets ps).any (fun y => y.1 = 33) = false := by
  unfold noteParams
  induction ps generalizing sets with
  | nil => exact hs
  | cons p ps ih =>
    refine ih _ ?_
    have rest : (sets.filter (fun y => !(y.1 = p.2.1 && y.2.1 = p.2.2))).any (fun y => y.1 = 33) = false := by
      rw [List.any_eq_false] at hs ⊢
      exact fun y hy => hs y ((List.mem_filter.mp hy).1)
    dsimp only
    split
    · exact rest
    · rename_i broken
      split
      · rename_i same
        rw [List.any_append, rest, Bool.false_or]
        have first : p.1 = 0 := by
          rcases hp : p.1 with _ | n
          · rfl
          · rw [hp] at broken; exact absurd rfl broken
        rw [first] at same
        have other : p.2.1 ≠ 33 := same ▸ h
        simp [other]
      · exact hs

/-- Whether DECODE puts its slot in UNSUPPORTED, of an access unit of one slice segment. -/
def unsupported0 (s : State) (a : AuSt) : Bool :=
  let d := parsed s 3 3 a
  ((noteParams (unitsOfAu s 3 3 a) (slotOf s 3 3).sets d.params).any (fun y => y.1 = 33 && y.2.1 = d.stream.sps) &&
    !hevcSupported d.stream (rdFld s (DS_SLOT_FMT 3 3) 15 0) (rdFld s (DS_SLOT_FMT 3 3) 31 16)) ||
  (slotState s 3 3 == 3 && !isRap s 3 3 a)

theorem supported_of_slice (s : State) (a : AuSt) (b : List Byte) (h : nalType b ≠ 33) (hu : unitsOfAu s 3 3 a = [(b, false)])
    (hs : (slotOf s 3 3).sets = []) : unsupported0 s a = (slotState s 3 3 == 3 && !isRap s 3 3 a) := by
  have none := noteParams_of_slice b h (parsed s 3 3 a).params [] rfl
  have sps : (noteParams [(b, false)] [] (parsed s 3 3 a).params).any (fun y => y.1 = 33 && y.2.1 = (parsed s 3 3 a).stream.sps) = false := by
    rw [List.any_eq_false] at none ⊢
    intro y hy
    have := none y hy
    simp only [decide_eq_true_eq, Bool.and_eq_true] at this ⊢
    exact fun x => this x.1
  unfold unsupported0
  rw [hu, hs]
  dsimp only
  rw [sps, Bool.false_and, Bool.false_or]

/-- An access unit that has not ended; one repeated; one without a slice and without a gap; one of an unsupported stream; a leading
picture to skip; pictures that are decoded, of both codecs, one whose every slice is broken, with and without others that wait. -/
theorem witness_ContributionPictures :
    (∃ s : State, runs s ∧ slotAssigned s 3 3 = true ∧ (slotOf s 3 3).ring.head? = some (au0 19 false)) ∧
    (∃ s : State, runs s ∧ (slotOf s 3 3).ring.head? = some (au0 19 true) ∧ auCapture s 3 3 (au0 19 true) ∈ (slotOf s 3 3).seen) ∧
    (∀ gap : Bool, ∃ (s : State) (a : AuSt), runs s ∧ slotAssigned s 3 3 = true ∧ (slotOf s 3 3).ring.head? = some a ∧ a.ended = true ∧
      auCapture s 3 3 a ∉ (slotOf s 3 3).seen ∧ slotXs s 3 3 = false ∧ auType (unitsOfAu s 3 3 a) = none ∧
      a.pieces.any (fun p => p.2) = gap) ∧
    (∀ ty ∈ [1, 8, 9, 19], ∀ state ∈ [1, 3], ∃ s : State, runs s ∧ slotAssigned s 3 3 = true ∧
      (slotOf s 3 3).ring.head? = some (au0 ty true) ∧ auCapture s 3 3 (au0 ty true) ∉ (slotOf s 3 3).seen ∧ slotXs s 3 3 = false ∧
      auType (unitsOfAu s 3 3 (au0 ty true)) = some ty ∧ slotState s 3 3 = state ∧
      unsupported0 s (au0 ty true) = (state == 3 && ty != 19) ∧ (slotOf s 3 3).noRasl = true ∧ (slotOf s 3 3).outs = []) ∧
    (∃ s : State, runs s ∧ slotAssigned s 3 3 = true ∧ (slotOf s 3 3).ring.head? = some (au0 1 true) ∧
      auCapture s 3 3 (au0 1 true) ∉ (slotOf s 3 3).seen ∧ slotXs s 3 3 = true ∧ (slotOf s 3 3).outs = []) ∧
    (∀ fl ∈ [0, 1, 2, 3], ∃ (s : State) (o : OutPic), 3 * 4 + 3 < s.slots.length ∧ o.flags = fl ∧ o.rap = true ∧ (slotOf s 3 3).dirty = true) := by
  refine ⟨⟨slot0 1 1 (rung0 [au0 19 false]), rfl, by decide +kernel⟩,
    ⟨slot0 1 1 { rung0 [au0 19 true] with seen := [1000000000] }, rfl, by decide +kernel⟩, fun gap => ?_,
    fun ty ht state hs => ⟨slot0 1 (wordOf state) { rung0 [au0 ty true] with noRasl := true }, rfl, ?_⟩,
    ⟨slot0 2 1 (rung0 [au0 1 true]), rfl, by decide +kernel⟩,
    fun fl _ => ⟨slot0 1 2 { SlotSt.reset with dirty := true }, ⟨0, 0, fl, 0, true, true⟩, by decide +kernel, rfl, rfl, by decide +kernel⟩⟩
  · cases gap
    · exact ⟨slot0 1 1 (rung0 [{ au0 19 true with pieces := [] }]), { au0 19 true with pieces := [] }, rfl, by decide +kernel⟩
    · exact ⟨slot0 1 1 (rung0 [{ au0 19 true with pieces := [([], true)] }]), { au0 19 true with pieces := [([], true)] }, rfl,
        by decide +kernel⟩
  · have one : ∀ ty ∈ [1, 8, 9, 19], ∀ state ∈ [1, 3],
        let s := slot0 1 (wordOf state) { rung0 [au0 ty true] with noRasl := true }
        let b : List Byte := [BitVec.ofNat 8 (2 * ty), 1, 0x80]
        (nalType b ≠ 33 ∧ unitsOfAu s 3 3 (au0 ty true) = [(b, false)] ∧ (slotOf s 3 3).sets = []) ∧
        (slotState s 3 3 == 3 && !isRap s 3 3 (au0 ty true)) = (state == 3 && ty != 19) ∧ slotAssigned s 3 3 = true ∧
        (slotOf s 3 3).ring.head? = some (au0 ty true) ∧ auCapture s 3 3 (au0 ty true) ∉ (slotOf s 3 3).seen ∧ slotXs s 3 3 = false ∧
        auType (unitsOfAu s 3 3 (au0 ty true)) = some ty ∧ slotState s 3 3 = state ∧ (slotOf s 3 3).noRasl = true ∧
        (slotOf s 3 3).outs = [] := by decide +kernel
    obtain ⟨⟨h, hu, hs0⟩, hb, ha, hr, hseen, hxs, hty, hst, hrasl, houts⟩ := one ty ht state hs
    exact ⟨ha, hr, hseen, hxs, hty, hst, (supported_of_slice _ _ _ h hu hs0).trans hb, hrasl, houts⟩

/-- The example of R191: CT_OFS of 750 ms. -/
theorem test_capture_time_R191 :
    captureTime (st [(DS_CT_OFS 0 0, 750000000)]) 0 0 47722222222300 4294940000 = 47722305555556 := by decide +kernel

/-- A picture of 2 by 2 and a layer that is disabled. -/
def pic2 : Picture := ⟨⟨2, 2, [64, 65, 66, 67]⟩, ⟨1, 2, [512, 513]⟩, ⟨1, 2, [514, 515]⟩⟩
def layer0 : LayerIn :=
  { mode := 0, ready := true, buf := 0, x := 0, y := 0, key := false, klo := 0, kgain := 0, galpha := 1023, matrix := [], w := 1, h := 1,
    px := [0], crc := 0 }

theorem witness_CompositionAndScaling :
    (∀ l ∈ [layer0, { layer0 with mode := 1, ready := false }], l.enabled = false ∨ l.ready = false) ∧
    pic2.y.px.length = pic2.y.w * pic2.y.h ∧ pic2.cb.w = pic2.y.w / 2 ∧ pic2.cb.h = pic2.y.h ∧ pic2.cr.w = pic2.y.w / 2 ∧
    pic2.cr.h = pic2.y.h ∧ pic2.cb.px.length = pic2.cb.w * pic2.cb.h ∧ pic2.cr.px.length = pic2.cr.w * pic2.cr.h ∧ (0 : Nat) < 1 := by
  decide

/-- The last output of the last scaler, at the unit ratio; tile 15 of channel 15. -/
def out0 : OutPlan :=
  { scl := 47, out := 15, srcRes := 0, dst := 1, srcW := 2, srcH := 2, dstW := 2, dstH := 2, ofmt := 0, vtaps := 8, hbank := 0, vbank := 0 }
def mosaic0 : TilePlan := { tile := 15, channel := 15, x := 0, y := 0, w := 16, h := 16, border := 0, scl := 47, out := 15 }
def device0 : DevicePlan :=
  { octets := [], anEn := [], fec := [], latTx := [], latRx := [], queues := [], irq := [], classes := [], ringMiB := 0, systemMiB := 0,
    canvas := 1, tiles := [mosaic0], flows := [], paired := false }
def tiled0 (fs : List FrameSt) : State :=
  { chans0 fs with img := { ImgState.reset with inForce := some { info0 with reading := { info0.reading with device := some device0 } } } }
/-- PLANE_LOAD of 2 by 1 to the last buffer of the last layer of channel 15; the layer's allocation and buffers. -/
def load0 : Outst := desc0 4 ([15, 7, 3, 0, 2, 0, 1, 0, 64, 0, 0, 0] ++ zeros 52)
def layers0 (ctl : Word) : State :=
  outst (st [(LY_L_STAT 15 7, 0x400), (LY_L_ALLOC 15 7, 0x10002), (LY_L_CTL 15 7, ctl), (CH_STAT 15, 1)]) 32767 [load0]

theorem witness_PicturesComposedScaledAndShown :
    (∀ b : Bool, ∃ (s : State) (f : FrameSt) (p : Picture), runs s ∧ 15 < s.chans.length ∧ oldest s 15 (fun f => f.composed.isNone) = some f ∧
      f.input = some p ∧ f.closed = b) ∧
    (∃ (s : State) (f : FrameSt), runs s ∧ oldest s 15 (fun f => f.composed.isNone) = some f ∧ f.input = none ∧ receivedInput s 15 f = none) ∧
    (∃ (s : State) (f : FrameSt) (p : Picture), runs s ∧ oldest s 15 (fun f => f.composed.isNone) = some f ∧ f.input = none ∧
      receivedInput s 15 f = some p) ∧
    (∃ (s : State) (f : FrameSt) (x : OutPlan) (p : Picture), runs s ∧ 15 < s.chans.length ∧ (∀ m < 16, m ≠ 15 → (chan s m).frames = []) ∧
      (chan s 15).frames = [f] ∧ f.plan.outs.find? (fun x => x.scl = 47 && x.out = 15) = some x ∧ mget f.scaled x.dst = none ∧
      outSource f x = some p) ∧
    (∃ (s : State) (tp : TilePlan) (f : FrameSt), runs s ∧ 15 < s.tiles.length ∧ tilePlan s 15 = some tp ∧
      oldest s tp.channel (fun f => f.composed.isSome && !f.tilesDone.contains 15) = some f) ∧
    (rdBit State.reset DPO_STAT 6 = false ∧ rdBit (st [(DPO_STAT, 0x40)]) DPO_STAT 6 = true) ∧
    (∃ (s : State) (y : Outst), runs s ∧ nextUnhanded s 32767 = some y ∧ y.opcode = 0x04 ∧ leAt (y.payload.getD []) 1 1 = 0) ∧
    (∀ busy : Bool, ∃ (s : State) (y : Outst), runs s ∧ nextUnhanded s 32767 = some y ∧ y.opcode = 0x04 ∧ leAt (y.payload.getD []) 0 1 = 15 ∧
      15 < s.chans.length ∧ chanDefined s 15 = true ∧ leAt (y.payload.getD []) 1 1 = 7 ∧ leAt (y.payload.getD []) 2 1 = 3 ∧
      3 < rdFld s (LY_L_STAT 15 7) 10 8 ∧ 1 ≤ leAt (y.payload.getD []) 4 2 ∧ leAt (y.payload.getD []) 4 2 ≤ rdFld s (LY_L_ALLOC 15 7) 15 0 ∧
      1 ≤ leAt (y.payload.getD []) 6 2 ∧ leAt (y.payload.getD []) 6 2 ≤ rdFld s (LY_L_ALLOC 15 7) 31 16 ∧
      leAt (y.payload.getD []) 8 4 % 64 = 0 ∧ 8 * leAt (y.payload.getD []) 4 2 ≤ leAt (y.payload.getD []) 8 4 ∧ bufferBusy s 15 7 3 = busy) ∧
    (∃ s : State, runs s ∧ 15 < s.chans.length ∧ (chan s 15).loading = [(7, 3, 2, 1, 32767, 0)]) ∧
    (bankInUse State.reset 47 0 = false ∧ bankInUse (st [(OUT_CFG 47 15, 0xF1)]) 47 0 = true) := by
  refine ⟨fun b => ?_, ⟨chans0 [frame0], frame0, rfl, by decide +kernel⟩,
    ⟨onChan (chans0 [frame0]) 15 (fun c => { c with sources := [⟨1000000000, [], some pic0, false⟩] }), frame0, pic0, rfl, by decide +kernel⟩,
    ⟨chans0 [{ frame0 with composed := some pic2, plan := { plan0 with outs := [out0] } }],
      { frame0 with composed := some pic2, plan := { plan0 with outs := [out0] } }, out0, pic2, rfl, by decide +kernel⟩,
    ⟨tiled0 [{ frame0 with composed := some pic0 }], mosaic0, { frame0 with composed := some pic0 }, rfl, by decide +kernel⟩, by decide +kernel, ⟨outst State.reset 32767 [desc0 4 (zeros 64)], desc0 4 (zeros 64), rfl, by decide +kernel⟩,
    fun busy => ?_, ⟨onChan State.reset 15 (fun c => { c with loading := [(7, 3, 2, 1, 32767, 0)] }), rfl, by decide +kernel⟩, by decide +kernel⟩
  · cases b
    · exact ⟨chans0 [{ frame0 with input := some pic0 }], { frame0 with input := some pic0 }, pic0, rfl, by decide +kernel⟩
    · exact ⟨chans0 [{ frame0 with input := some pic0, closed := true }], { frame0 with input := some pic0, closed := true }, pic0, rfl,
        by decide +kernel⟩
  · cases busy
    · exact ⟨layers0 0, load0, rfl, by decide +kernel⟩
    · exact ⟨layers0 0x301, load0, rfl, by decide +kernel⟩

/-- The link disconnected, connected, waiting for a training at each rate, with the output off. -/
theorem witness_MonitorLink :
    (∃ s, runs s ∧ rdBit s DPO_STAT 0 = false) ∧ (∃ s, runs s ∧ rdBit s DPO_STAT 0 = true ∧ rdBit s DPO_CTL 0 = true ∧ rdFld s DPO_STAT 6 1 = 0 ∧
      dpMaxRate s = 3) ∧ (∃ s, runs s ∧ rdBit s DPO_STAT 0 = true ∧ rd s DPO_CTL ≠ (1 : Word) &&& 0xF) ∧ tbit (0 : Word) 0 = false ∧ tbit (1 : Word) 0 = true :=
  ⟨⟨State.reset, rfl, by decide +kernel⟩, ⟨st [(DPO_STAT, 1)], rfl, by decide +kernel⟩, ⟨st [(DPO_STAT, 1)], rfl, by decide +kernel⟩, by decide⟩

/-- The display instant before, at and after its comparator (R231, R301); the first frame of the output. -/
theorem witness_DisplayInstants :
    (∀ come : Bool, ∃ s : State, runs s ∧ hasCome s (s.displayNext.getD (s.raw, 0)).1 = come) ∧ State.reset.displayNext = none :=
  ⟨fun come => by
    cases come
    · exact ⟨{ State.reset with displayNext := some (5, 1) }, rfl, by decide +kernel⟩
    · exact ⟨{ State.reset with displayNext := some (5, 2), raw := 5 }, rfl, by decide +kernel⟩, by decide +kernel⟩
/-! ### Audio, egress, time (p09, p10, p11) -/

/-- The last serial port assigned in mode 1, in a state. -/
def port0 (state : Word) (x : ApSt) : State :=
  { st [(AP_CFG 7, 0x100001), (AP_STAT 7, state)] with aps := List.replicate 8 x }

/-- Runs at both ends of each clause: 49, 48 and 47 samples taken. -/
theorem witness_SerialPortBlocks :
    (1 : Nat) ≤ 1 ∧ (1 ≤ 1 ∧ (1 : Nat) ≤ 45) ∧ (List.replicate 49 (([] : AudioFrame), false)).length = 49 ∧
    (List.replicate 48 (([] : AudioFrame), false)).length = 48 ∧ (List.replicate 47 (([] : AudioFrame), false)).length = 47 := by decide

/-- R248's fill limits at their edges. -/
theorem test_take_R248 : takeCount 80 = 48 ∧ takeCount 81 = 49 ∧ takeCount 48 = 48 ∧ takeCount 47 = 47 := by decide

def prg0 : PrgPlan :=
  { prg := 31, codec := 3, chans := 2, rate96 := false, bitrate := 128000, src := [], mux := [], form := 1, port := 0, share := 1000, seq0 := 0
    ipv6 := false, lang := [], net := addr0, config := [] }
def stream0 (i : Nat) : StreamSt :=
  { id := i, share := 100, cc := [], seqNext := 0, psiG := none, heads := [], audio := [], held := [], lostAt := none, outSeq := 0, freshNext := false, slice := 0,
    old := none, oldAudio := 0, lastAck := none }

theorem witness_AudioCommands :
    (∃ s : State, runs s ∧ 7 < s.aps.length ∧ apState s 7 = 1 ∧ lockReached s 7 = true) ∧
    (∀ x ∈ [2, 3], ∃ s : State, runs s ∧ 7 < s.aps.length ∧ apState s 7 = x ∧ unlockReached s 7 = true) ∧
    (∀ n ∈ [255, 256], ∃ s : State, runs s ∧ apAssigned s 7 = true ∧ apState s 7 = 3 ∧ (apOf s 7).fifo.length = n) ∧
    (∃ s : State, runs s ∧ apAssigned s 7 = false) ∧
    (∀ r ∈ [48048, 48049], ∀ x ∈ [2, 3], ∃ s : State, runs s ∧ 7 < s.aps.length ∧ apAssigned s 7 = true ∧ (apOf s 7).lockedAll = true ∧
      reached s (blockTime (rdBit s (AP_CFG 7) 2) (1000 * ((apOf s 7).period + 1))) = true ∧ apState s 7 = x ∧ (apOf s 7).received = r) ∧
    (∃ s : State, runs s ∧ apAssigned s 7 = true ∧ reached s (blockTime (rdBit s (AP_CFG 7) 2) (1000 * ((apOf s 7).period + 1))) = false) ∧
    (∃ s : State, runs s ∧ apAssigned s 7 = true ∧ reached s (blockTime (rdBit s (AP_CFG 7) 2) (1000 * ((apOf s 7).period + 1))) = true ∧
      (apOf s 7).lockedAll = false) ∧
    (∀ slip : Bool, ∃ s : State, runs s ∧ apState s 7 = 2 ∧ apAssigned s 7 = true ∧ (apOf s 7).fifo.length < 256 ∧
      (apOf s 7).silent = slip) ∧
    (∃ s : State, runs s ∧ 31 < s.nfs.length ∧ nfAssigned s 31 = false) ∧ (∃ s : State, runs s ∧ nfAssigned s 31 = true ∧ rdFld s (NF_STAT 31) 1 0 = 1) ∧
    (∃ (s : State) (t : StreamSt), runs s ∧ 31 < s.prgs.length ∧ (prgOf s 31).plan = some (15, prg0) ∧ nextAuOf s 31 = some 2 ∧
      s.lastBlock48 = some 128 ∧ (chan s 15).plan = some plan0 ∧ 1 ≤ prg0.codec ∧ prg0.codec = 3 ∧ auLength prg0 * (2 + 1) = 48 * 128 ∧
      prg0.form ≠ 0 ∧ prg0.mux = [] ∧ (programmeStreams s 15 31 prg0).Nodup ∧ t.id ∈ programmeStreams s 15 31 prg0 ∧
      streamOf s t.id = some t) ∧
    (∃ s : State, runs s ∧ dueBlock s true s.lastBlock96 = none) ∧ (∃ (s : State) (b : Nat), runs s ∧ dueBlock s false s.lastBlock48 = some b) ∧
    (∃ s : State, role s = 0 ∧ 7 < s.aps.length) := by
  refine ⟨⟨port0 1 { ApSt.reset with good := 48 }, rfl, by decide +kernel⟩, fun x hx => ⟨port0 (wordOf x) { ApSt.reset with bad := 2 }, rfl, ?_⟩,
    fun n h => ⟨port0 3 { ApSt.reset with fifo := List.replicate n ([], false) }, rfl, ?_⟩, ⟨State.reset, rfl, by decide +kernel⟩,
    fun r h x hx => ⟨{ port0 (wordOf x) { ApSt.reset with lockedAll := true, received := r } with raw := 1250000000 }, rfl, ?_⟩,
    ⟨port0 2 ApSt.reset, rfl, by decide +kernel⟩, ⟨{ port0 2 ApSt.reset with raw := 1250000000 }, rfl, by decide +kernel⟩,
    fun slip => ⟨port0 2 { ApSt.reset with silent := slip }, rfl, ?_⟩,
    ⟨State.reset, rfl, by decide +kernel⟩, ⟨st [(NF_CFG 31, 0x40000), (NF_STAT 31, 1)], rfl, by decide +kernel⟩,
    ⟨{ onChan State.reset 15 (fun c => { c with plan := some plan0 }) with
        prgs := List.replicate 31 PrgSt.reset ++ [{ PrgSt.reset with plan := some (15, prg0), nextAu := some 2 }], lastBlock48 := some 128
        streams := [stream0 1000] }, stream0 1000, rfl, by decide +kernel⟩,
    ⟨{ State.reset with lastBlock96 := some 0 }, rfl, by decide +kernel⟩, ⟨State.reset, 0, rfl, by decide +kernel⟩,
    ⟨State.reset, by decide +kernel⟩⟩
  · simp only [List.mem_cons, List.not_mem_nil, or_false] at hx
    rcases hx with rfl | rfl <;> decide +kernel
  · have all : ∀ n ∈ [255, 256], apAssigned (port0 3 { ApSt.reset with fifo := List.replicate n ([], false) }) 7 = true ∧
        apState (port0 3 { ApSt.reset with fifo := List.replicate n ([], false) }) 7 = 3 ∧
        (apOf (port0 3 { ApSt.reset with fifo := List.replicate n ([], false) }) 7).fifo.length = n := by decide +kernel
    exact all n h
  · simp only [List.mem_cons, List.not_mem_nil, or_false] at h hx
    rcases h with rfl | rfl <;> rcases hx with rfl | rfl <;> decide +kernel
  · cases slip <;> decide +kernel

/-! ### Egress (p10) -/

/-- A datagram of form 5 at port 23, scheduled at a time, of which some have left. -/
def unit0 (at_ : Int) (sent : Nat) : RetUnit :=
  { seq := 0, frame := none, ptime := 0, launch := at_, span := 0, bytes := [7], flags := 0, seq0 := 0, rtpTs := none, init := [], net := addr0,
    nDgrams := 1, sent := sent, acked := 0, crc := 0, form := 5, port := 23, fresh := false, dead := false }
def due0 (at_ : Int) : Due := ⟨960, unit0 at_ 0, at_⟩
def host0 : HostPkt := { q := 32767, slot := 0, ts := false, now := true, id := 0, bytes := zeros 64, launch := 0, past := false }
def resend0 (q : Nat) : ResendJob :=
  { q := q, slot := 0, stream := 960, port := 23, next := 0, left := 1, dgram := 0, seq := 0, ssrc := 0, dest := [], udp := 0,
    rate := 1000, due := 0, sent := 0 }
/-- Port 23 up, with stream 960 of form 5 holding a unit. -/
def egress0 (u : RetUnit) : State :=
  { st [(P_PORT_STATE 23, 5), (STR_CFG 960, 0x175)] with streams := [{ stream0 960 with held := [u] }] }
/-- Stream 960 defined, holding unit 0, with a command for a unit of it in queue 32767. -/
def fetch0 (op seq : Nat) : State :=
  outst (egress0 (unit0 0 1)) 32767 [desc0 op ([0xC0, 3, 23, 0, 1, 0, 0, 0, BitVec.ofNat 8 seq] ++ zeros 55)]
def undef0 (op : Nat) : State := outst State.reset 32767 [desc0 op ([0xC0, 3] ++ zeros 62)]
def y0 (op seq : Nat) : Outst := desc0 op ([0xC0, 3, 23, 0, 1, 0, 0, 0, BitVec.ofNat 8 seq] ++ zeros 55)

/-- A channel whose first frame's picture is sized or not, under stream 960 in a form and of a share; a sound queued for stream 1000. -/
def sound0 : AudioUnit := { t := 5, launch := 6, bytes := [7], pos := 0, idx := 0, prg := prg0, plan := plan0, slice := 0 }
def share0 (form : Word) (share : Nat) (p : RendPic) : State :=
  { chans0 [{ frame0 with rends := [p] }] with
    streams := [{ stream0 960 with share := share }], regs := (st [(STR_CFG 960, 0x170 + form)]).regs }
def sounds0 (form : Word) (share : Nat) : State :=
  { st [(STR_CFG 1000, 0x170 + form)] with streams := [{ stream0 1000 with share := share, audio := [sound0] }] }

/-- Units of nothing at every form, and the sizes that their bytes take: a share that just holds them. -/
theorem witness_UnitsPackaged :
    (∀ form ∈ ([1, 2, 3, 4, 5, 6] : List Word), ∀ sized : Bool, ∃ (s : State) (t : StreamSt) (f : FrameSt) (r : RendPlan) (p : RendPic),
      runs s ∧ streamOf s 960 = some t ∧ videoFirst s 960 = true ∧ oldestPic s 15 0 (fun p => !p.packaged) = some (f, r, p) ∧
      p.sized = sized ∧ noticeIn s 15 f = true ∧ oldPicture s 960 f = false ∧
      (t.held.foldl (fun a v => a + v.bytes.length) 0) +
        (videoMade s t (streamDef s t (oldPicture s 960 f)) f r p (rd64 s (STR_UNIT_NEXT_LO 960) (STR_UNIT_NEXT_HI 960))).bytes.length ≤
          t.share) ∧
    (∀ form ∈ ([3, 4, 5, 6] : List Word), ∃ (s : State) (t : StreamSt), runs s ∧ streamOf s 1000 = some t ∧ videoFirst s 1000 = false ∧
      t.audio = [sound0] ∧ audioReady s 1000 5 = true ∧ oldSound s 1000 = false ∧
      (t.held.foldl (fun a v => a + v.bytes.length) 0) + (audioMade s 1000 t (streamDef s t (oldSound s 1000)) sound0).bytes.length ≤
        t.share) ∧
    (∃ (s : State) (t : StreamSt), runs s ∧ streamOf s 1000 = some t ∧ videoFirst s 1000 = false ∧ t.audio = []) := by
  refine ⟨fun form hf sized => ?_, fun form hf => ?_,
    ⟨{ State.reset with streams := [stream0 1000] }, stream0 1000, rfl, by decide +kernel⟩⟩
  · refine ⟨share0 form 100000 { rpic0 with sized := sized }, { stream0 960 with share := 100000 },
      { frame0 with rends := [{ rpic0 with sized := sized }] }, rend0, { rpic0 with sized := sized }, rfl, ?_⟩
    simp only [List.mem_cons, List.not_mem_nil, or_false] at hf
    rcases hf with rfl | rfl | rfl | rfl | rfl | rfl <;> cases sized <;> decide +kernel
  · refine ⟨sounds0 form 100000, { stream0 1000 with share := 100000, audio := [sound0] }, rfl, ?_⟩
    simp only [List.mem_cons, List.not_mem_nil, or_false] at hf
    rcases hf with rfl | rfl | rfl | rfl <;> decide +kernel

/-- Launches late by 2,000 and 2,001 ns; each class due alone; a re-send whose unit is gone; fetches and re-sends of each outcome, with 15
and with 16 running. -/
theorem witness_EgressUnitsAndLaunches :
    (∃ s : State, runs s ∧ isPaired s = true ∧ holdDrive s = false) ∧
    (∀ n ∈ [2000, 2001], ∃ (s : State) (d : Due) (t : StreamSt), runs s ∧ dueLive s 23 = some d ∧ d.stream < 1024 ∧ nowN s - d.at_ = n ∧
      streamOf s d.stream = some t ∧ formRtp d.item.form = true ∧ (d.item.fresh && d.item.sent == 0) = false) ∧
    (∀ held : Bool, ∃ (s : State) (j : ResendJob), runs s ∧ (dueLive s 23).isNone ∧ dueHost s 23 = none ∧ dueResend s 23 = some j ∧
      (resendUnit s j).isSome = held) ∧
    (∃ (s : State) (k : HostPkt), runs s ∧ (dueLive s 23).isNone ∧ dueHost s 23 = some k ∧ k.q < 32768 ∧ 23 < s.ports.length) ∧
    (∀ op ∈ [7, 8], ∃ (s : State) (y : Outst), runs s ∧ nextUnhanded s 32767 = some y ∧ y.opcode = op ∧
      strDefined (markHanded s 32767 y.slot) (leAt (y.payload.getD []) 0 2) = false) ∧
    (∀ op ∈ [7, 8], ∀ b ∈ [0, 1], ∃ (s : State) (y : Outst), runs s ∧ nextUnhanded s 32767 = some y ∧ y.opcode = op ∧
      strDefined (markHanded s 32767 y.slot) (leAt (y.payload.getD []) 0 2) = true ∧
      unitHeld (markHanded s 32767 y.slot) (leAt (y.payload.getD []) 0 2) (leAt (y.payload.getD []) 8 8) = (b == 0)) ∧
    (∃ (s : State) (y : Outst), runs s ∧ (queueSt s 32767).outst.find? (fun o => o.opcode = 7 && o.handed && o.done.isNone) = some y ∧
      leAt (y.payload.getD []) 0 2 < 1024 ∧ y.dead = false ∧
      (fetchUnits (((streamOf s 960).map (fun t => t.held)).getD []) false 0 1000 1).1 ≠ []) ∧
    (∀ n ∈ [15, 16], ∃ (s : State) (y : Outst), runs s ∧ nextUnhanded s 32767 = some y ∧ y.opcode = 8 ∧
      unitHeld (markHanded s 32767 y.slot) (leAt (y.payload.getD []) 0 2) (leAt (y.payload.getD []) 8 8) = true ∧ s.resends.length = n) := by
  refine ⟨⟨st [(MULE_PAIR_CTL, 1)], rfl, by decide +kernel⟩, fun n h => ?_, fun held =>
      ⟨{ egress0 { unit0 0 1 with seq := if held then 0 else 1 } with resends := [resend0 32767] }, resend0 32767, rfl, ?_⟩,
    ⟨{ egress0 (unit0 0 1) with ports := List.replicate 24 { PortSt.reset with hostQ := [host0] } }, host0, rfl, by decide +kernel⟩,
    fun op h => ⟨undef0 op, desc0 op ([0xC0, 3] ++ zeros 62), rfl, ?_⟩, fun op h b hb => ⟨fetch0 op b, y0 op b, rfl, ?_⟩,
    ⟨outst (egress0 (unit0 0 1)) 32767 [{ y0 7 0 with handed := true }], { y0 7 0 with handed := true }, rfl, by decide +kernel⟩,
    fun n h => ⟨{ fetch0 8 0 with resends := List.replicate n (resend0 1) }, y0 8 0, rfl, ?_⟩⟩
  · simp only [List.mem_cons, List.not_mem_nil, or_false] at h
    rcases h with rfl | rfl
    · exact ⟨egress0 (unit0 (-2000) 0), due0 (-2000), { stream0 960 with held := [unit0 (-2000) 0] }, rfl, rfl, by decide +kernel⟩
    · exact ⟨egress0 (unit0 (-2001) 0), due0 (-2001), { stream0 960 with held := [unit0 (-2001) 0] }, rfl, rfl, by decide +kernel⟩
  · cases held <;> decide +kernel
  · simp only [List.mem_cons, List.not_mem_nil, or_false] at h
    rcases h with rfl | rfl <;> decide +kernel
  · simp only [List.mem_cons, List.not_mem_nil, or_false] at h hb
    rcases h with rfl | rfl <;> rcases hb with rfl | rfl <;> decide +kernel
  · simp only [List.mem_cons, List.not_mem_nil, or_false] at h
    rcases h with rfl | rfl <;> decide +kernel

/-! ### Time, ports and flows (p11, p12) -/

/-- The parameter set of R295's example, and 10^12 ns. -/
def time0 : TimeSet := { offset := 1700000000000000000, sub := 0, anchor := 0xFFFFF0000000, res := 0, rate := 10995116 }

/-- The example of R295. -/
theorem test_corrected_time_R295 :
    ptpForm (t16Of time0 0x10000000) = (1700000000, 429501024, 0x9133) ∧
      (t16Of time0 0x10000000).fdiv 65536 % 2 ^ 40 = 1092259916384 := by decide +kernel

/-- Two ticks across the wrap of the counter, at the anchor, and with a rate at its least. -/
theorem witness_CorrectedTimeIsContinuous :
    sdiff 0x10000001 time0.anchor = sdiff 0x10000000 time0.anchor + sdiff (0x10000001 : Raw) 0x10000000 ∧
    sdiff 5 time0.anchor = sdiff 0xFFFFFFFFFFFF time0.anchor + sdiff (5 : Raw) 0xFFFFFFFFFFFF ∧
    (∀ x ∈ ([-549755813, -1099511627776] : List Int), -1099511627776 ≤ ({ time0 with rate := x } : TimeSet).rate) ∧
    sdiff 0xFFFFF0000001 time0.anchor ≤ sdiff 0x10000000 time0.anchor := ⟨by decide +kernel, by decide +kernel, by decide +kernel, by decide +kernel⟩

/-- The adjustment the host has staged. -/
def adj0 (v rate : Int) (regs : List (Reg × Word)) : State :=
  let b := BitVec.ofInt 64 v
  let x := BitVec.ofInt 40 rate
  { st ((TIM_SERVO_CTL, 1) :: regs) with stages := [(TIM_ADJ_VAL_LO, wordOf b.toNat), (TIM_ADJ_VAL_HI, wordOf (b.toNat / 2 ^ 32)),
      (TIM_ADJ_RATE_LO, wordOf x.toNat), (TIM_ADJ_RATE_HI, wordOf (x.toNat / 2 ^ 32))].map (fun p => (ownKey .host p.1, p.2)) }
def ptp0 : PtpMsg := { carriage := 2, bytes := [0, 2] ++ zeros 42 }
def ptpOn (ctl tail head : Word) : State :=
  st [(P_PORT_STATE 23, 5), (TIM_PTP_PORTS, 0x800000), (TIM_PTP_CTL, ctl), (Q_QCFG 32767, 0xC), (Q_QCTL 32767, 0x41), (Q_TAIL 32767, tail), (Q_HEAD 32767, head)]

theorem witness_TimeBlockCommands :
    (∀ b : Bool, ∃ s : State, runs s ∧ ownsServo s .host = b) ∧
    (∀ v ∈ ([-1, 0, 1000, -1000, 1001, -1001] : List Int), ∀ run : Bool, ∃ s : State, runs s ∧ ownsServo s .host = true ∧ adjVal s .host = v ∧
      anyRunning s = run) ∧
    (∀ v ∈ ([549755813, -549755813, 549755814, -549755814] : List Int), ∃ s : State, runs s ∧ ownsServo s .host = true ∧
      adjRateVal s .host = v) ∧
    (∀ d ∈ ([2 ^ 46 - 1, 2 ^ 46] : List Int), ∃ s : State, runs s ∧ sdiff s.raw (timeSet s).anchor = d) ∧
    (∃ s : State, runs s ∧ rdBit s (TIM_CMP_CTL 7) 0 = false) ∧
    (∃ s : State, runs s ∧ rdBit s (TIM_CMP_CTL 7) 0 = true ∧ reached s (cmpTarget s 7) = false) ∧
    (∀ per ∈ ([0, 1] : List Word), ∃ s : State, runs s ∧ rdBit s (TIM_CMP_CTL 7) 0 = true ∧ reached s (cmpTarget s 7) = true ∧
      rd s (TIM_CMP_PER 7) = per ∧ cmpTarget s 7 ≤ nowN s ∧ nowN s - cmpTarget s 7 < 2 ^ 63 ∧ nowN s + per.toNat < 2 ^ 63) ∧
    (∃ s : State, runs s ∧ ptpMatches s 23 ptp0 = false) ∧ (∃ s : State, runs s ∧ ptpMatches s 23 ptp0 = true ∧ rdBit s TIM_PTP_CTL 15 = false) ∧
    (∀ b : Bool, ∃ s : State, runs s ∧ ptpMatches s 23 ptp0 = true ∧ rdBit s TIM_PTP_CTL 15 = true ∧
      (putRecord (count { s with free := s.free + 1 } TIM_PTP_RX_CNT) (rdFld s TIM_PTP_CTL 14 0)
        (ptpRecord s 23 ptp0 (s.raw - BitVec.ofNat 48 (latencyTicks s (rd s (TXP_LAT_RX 23)).toNat)))).2 = b) ∧
    (∃ s : State, runs s ∧ 23 < s.ports.length ∧ (portOf s 23).txts = []) ∧
    (∀ n ∈ [0, 63], ∃ s : State, runs s ∧ 23 < s.ports.length ∧ (portOf s 23).txts = [1, 2, 3, 4] :: List.replicate n []) ∧
    (∀ b : Bool, ∃ s : State, runs s ∧ refInUse s = b) ∧
    (∀ n ∈ [14, 15], ∃ s : State, runs s ∧ refInUse s = false ∧ min 255 (rdFld s TIM_REF_STAT 15 8 + 1) = n + 1) ∧
    (∀ e ∈ ([99990, 100000, 100010] : List Nat), ((e : Int) - 100000).natAbs ≤ 10) ∧ ¬ (((99989 : Nat) : Int) - 100000).natAbs ≤ 10 := by
  refine ⟨fun b => ?_, fun v hv run => ?_, fun v hv => ⟨adj0 0 v [], rfl, ?_⟩,
    fun d hd => ⟨{ State.reset with raw := BitVec.ofInt 48 d }, rfl, ?_⟩, ⟨State.reset, rfl, by decide +kernel⟩,
    ⟨st [(TIM_CMP_CTL 7, 1), (TIM_CMP_LO 7, 1)], rfl, by decide +kernel⟩,
    fun per hp => ⟨st [(TIM_CMP_CTL 7, 1), (TIM_CMP_PER 7, per)], rfl, ?_⟩, ⟨State.reset, rfl, by decide +kernel⟩,
    ⟨ptpOn 0x70000 0 0, rfl, by decide +kernel⟩, fun b => ?_, ⟨State.reset, rfl, by decide +kernel⟩,
    fun n hn => ⟨{ State.reset with ports := List.replicate 24 { PortSt.reset with txts := [1, 2, 3, 4] :: List.replicate n [] } }, rfl, ?_⟩,
    fun b => ?_, fun n hn => ⟨st [(TIM_REF_STAT, wordOf (256 * n + 1))], rfl, ?_⟩, by decide, by decide⟩
  · cases b
    · exact ⟨st [(TIM_SERVO_CTL, 0)], rfl, by decide +kernel⟩
    · exact ⟨st [(TIM_SERVO_CTL, 1)], rfl, by decide +kernel⟩
  · have all : ∀ v ∈ ([-1, 0, 1000, -1000, 1001, -1001] : List Int), ∀ run : Bool,
        ownsServo (adj0 v 0 (if run then [(CH_STAT 15, 2)] else [])) .host = true ∧
        adjVal (adj0 v 0 (if run then [(CH_STAT 15, 2)] else [])) .host = v ∧
        anyRunning (adj0 v 0 (if run then [(CH_STAT 15, 2)] else [])) = run := by decide +kernel
    refine ⟨adj0 v 0 (if run then [(CH_STAT 15, 2)] else []), ?_, all v hv run⟩
    cases run <;> rfl
  · have all : ∀ v ∈ ([549755813, -549755813, 549755814, -549755814] : List Int),
        ownsServo (adj0 0 v []) .host = true ∧ adjRateVal (adj0 0 v []) .host = v := by decide +kernel
    exact all v hv
  · have all : ∀ d ∈ ([2 ^ 46 - 1, 2 ^ 46] : List Int), sdiff (BitVec.ofInt 48 d) (timeSet State.reset).anchor = d := by decide +kernel
    exact all d hd
  · simp only [List.mem_cons, List.not_mem_nil, or_false] at hp
    rcases hp with rfl | rfl <;> decide +kernel
  · cases b
    · exact ⟨ptpOn 0x7FFFF 14 0, rfl, by decide +kernel⟩
    · exact ⟨ptpOn 0x7FFFF 0 0, rfl, by decide +kernel⟩
  · simp only [List.mem_cons, List.not_mem_nil, or_false] at hn
    rcases hn with rfl | rfl <;> decide +kernel
  · cases b
    · exact ⟨State.reset, rfl, by decide +kernel⟩
    · exact ⟨st [(TIM_REF_STAT, 2)], rfl, by decide +kernel⟩
  · simp only [List.mem_cons, List.not_mem_nil, or_false] at hn
    rcases hn with rfl | rfl <;> decide +kernel


/-- An adjustment at a tick at which a rebase is due; two comparators that have come; a window with a stop in it (R297, R300, R309). -/
theorem witness_TimeOrder :
    (∃ s : State, runs s ∧ ownsServo s .host = true ∧ 2 ^ 46 ≤ sdiff s.raw (timeSet s).anchor ∧ anyRunning s = false) ∧
    (∃ s : State, runs s ∧ rdBit s (TIM_CMP_CTL 0) 0 = true ∧ reached s (cmpTarget s 0) = true ∧ rdBit s (TIM_CMP_CTL 7) 0 = true ∧
      cmpTarget s 0 < cmpTarget s 7 ∧ reached s (cmpTarget s 7) = true) ∧
    (∀ b : Bool, ∃ s : State, runs s ∧ s.refMark = b) ∧ (∀ b : Bool, ∃ s : State, runs s ∧ rdFld s TIM_REF_STAT 1 0 = (if b then 1 else 0)) :=
  ⟨⟨{ adj0 0 0 [] with raw := BitVec.ofNat 48 (2 ^ 46) }, rfl, by decide +kernel⟩,
   ⟨{ st [(TIM_CMP_CTL 0, 1), (TIM_CMP_CTL 7, 1), (TIM_CMP_LO 7, 1)] with raw := 100 }, rfl, by decide +kernel⟩,
   fun b => ⟨{ State.reset with refMark := b }, rfl, rfl⟩, fun b => by
     cases b
     · exact ⟨State.reset, rfl, by decide +kernel⟩
     · exact ⟨st [(TIM_REF_STAT, 1)], rfl, by decide +kernel⟩⟩
/-- Port 23 on lane 47 alone, in a state, with the lane's status bits, the port's timers and the raw count. -/
def link0 (state lane : Word) (x : PortSt) (raw : Raw) : State :=
  { st [(P_PORT_CFG 23, 0x4378), (P_PORT_STATE 23, state), (LN_STAT 47, 0x2E0 + lane)] with ports := List.replicate 24 x, raw := raw }
def wait0 (e : Raw) : PortSt := { PortSt.reset with waitEnd := some e }

def lane0 (m : Marker) : LaneRx := { headers := List.replicate 64 1, markers := [.missing, m, m], types := [] }

/-- Each stage one tick before its limit and at it; waits that end now; LOS clear and not; every state. -/
theorem witness_PortBringUpAndLoss :
    (∀ n ∈ List.range 7, ∃ s : State, runs s ∧ 23 < s.ports.length ∧ s.streams = [] ∧ portState s 23 = n) ∧
    (∀ b : Bool, ∃ s : State, runs s ∧ portState s 23 = 1 ∧ (portOf s 23).waitEnd = none ∧ losClear s 23 = b) ∧
    (∀ b : Bool, ∃ (s : State) (r : Raw), runs s ∧ portState s 23 = 1 ∧ (portOf s 23).waitEnd = some r ∧ hasCome s r = true ∧ losClear s 23 = b) ∧
    (∀ b : Bool, ∃ s : State, runs s ∧ portState s 23 = 2 ∧ stageOver s 23 (msTicks 500) = b) ∧
    (∀ b : Bool, ∃ s : State, runs s ∧ portState s 23 = 3 ∧ stageOver s 23 (trainTicks s 23) = b) ∧
    (∀ b : Bool, ∃ s : State, runs s ∧ portState s 23 = 4 ∧ stageOver s 23 (msTicks 100) = b ∧ losClear s 23 = true ∧ lolClear s 23 = true ∧
      rdFld s (P_PORT_CFG 23) 12 9 ≠ 0 ∧ portLanes s 23 = [47] ∧
      portAligned s 23 [lane0 .found] [] = false ∧ portAligned s 23 [lane0 .missing] (List.replicate 64 2) = false ∧
      ∀ m ∈ [Marker.found, .complement], portAligned s 23 [lane0 m] (List.replicate 64 2) = true ∧
        invertedLanes s 23 [lane0 m] = (if m = .complement then [0] else [])) ∧
    (headerLoss (List.replicate 15 0 ++ List.replicate 49 1) = false ∧ headerLoss (List.replicate 16 0 ++ List.replicate 48 1) = true ∧
      markerLoss [.missing, .missing, .missing] = false ∧ markerLoss [.missing, .complement, .missing, .missing] = true) ∧
    (∃ s : State, runs s ∧ lanePort s 47 = some 23 ∧ portState s 23 = 5 ∧ rdBit s (LN_STAT 47) 0 = true ∧ rdBit s (LN_STAT 47) 1 = true ∧
      rdFld s (P_PORT_STATE 23) 20 16 < 16 ∧ rdBit s (P_PORT_CFG 23) 14 = true) ∧
    (∃ s : State, runs s ∧ lanePort s 47 = some 23 ∧ portState s 23 = 3 ∧ rdBit s (LN_STAT 47) 0 = true) ∧
    (∃ s : State, runs s ∧ lanePort s 47 = some 23 ∧ portState s 23 = 1 ∧ rdBit s (LN_STAT 47) 0 = false ∧ (portOf s 23).losAtEnd = true ∧
      ∀ k ∈ portLanes s 23, k ≠ 47 → rdBit s (LN_STAT k) 0 = true) ∧
    (∃ s : State, runs s ∧ rdBit s (P_PORT_STATE 23) 3 = true ∧ passed s (portOf s 23).faultAt (msTicks 1) = true ∧ portState s 23 = 5) := by
  refine ⟨fun n hn => ⟨link0 (wordOf n) 3 PortSt.reset 0, rfl, ?_⟩, fun b => ?_, fun b => ?_, fun b => ?_, fun b => ?_, fun b => ?_,
    by decide +kernel, ⟨link0 0xF0005 3 PortSt.reset 0, rfl, by decide +kernel⟩, ⟨link0 3 1 PortSt.reset 0, rfl, by decide +kernel⟩,
    ⟨link0 1 0 { PortSt.reset with losAtEnd := true } 0, rfl, by decide +kernel⟩,
    ⟨link0 0xD 3 { PortSt.reset with faultAt := some 0 } 1250000, rfl, by decide +kernel⟩⟩
  · have all : ∀ n ∈ List.range 7, 23 < (link0 (wordOf n) 3 PortSt.reset 0).ports.length ∧ (link0 (wordOf n) 3 PortSt.reset 0).streams = [] ∧
        portState (link0 (wordOf n) 3 PortSt.reset 0) 23 = n := by decide +kernel
    exact all n hn
  · cases b
    · exact ⟨link0 1 0 PortSt.reset 0, rfl, by decide +kernel⟩
    · exact ⟨link0 1 1 PortSt.reset 0, rfl, by decide +kernel⟩
  · cases b
    · exact ⟨link0 1 0 (wait0 9) 9, 9, rfl, by decide +kernel⟩
    · exact ⟨link0 1 1 (wait0 9) 9, 9, rfl, by decide +kernel⟩
  · cases b
    · exact ⟨link0 2 0 PortSt.reset 624999999, rfl, by decide +kernel⟩
    · exact ⟨link0 2 0 PortSt.reset 625000000, rfl, by decide +kernel⟩
  · cases b
    · exact ⟨link0 3 0 PortSt.reset 3749999999, rfl, by decide +kernel⟩
    · exact ⟨link0 3 0 PortSt.reset 3750000000, rfl, by decide +kernel⟩
  · cases b
    · exact ⟨link0 4 3 PortSt.reset 124999999, rfl, by decide +kernel⟩
    · exact ⟨link0 4 3 PortSt.reset 125000000, rfl, by decide +kernel⟩

/-- A frame of path B of flow 127 with a sequence number and a payload type, as the device's own egress would frame it. -/
def rx0 (pt seq : Nat) : RxFrame :=
  let a := { addr0 with dstIp := [239, 0, 0, 1] }
  let bs := etherFrame a (ipPacket a (rtpPacket false pt (BitVec.ofNat 16 seq) 0 0 [0, 0, 3]))
  ⟨bs, crcOf 0 bs⟩
/-- Flow 127 in a kind, both paths on port 23. -/
def merge0 (kind : Word) (x : FlowSt) (raw : Raw) : State :=
  let path : PathPlan := { dst := [239, 0, 0, 1], port := 2000, src := none, vlan := none }
  { st [(P_PORT_STATE 23, 5), (RXF_CFG 127, 0x37B8 + kind), (RXF_STAT 127, 3)] with
    flows := List.replicate 127 FlowSt.reset ++ [{ x with pathB := path, payloadType := 96 }], raw := raw }
/-- A flow whose highest value is 40,000, received by path A with the payload of rx0 or another. -/
def got0 (pl : List Byte) : FlowSt := { FlowSt.reset with high := some 40000, got := [(40000, true, false, 0, pl)] }

/-- The frame and its parts are read back as they were sent. -/
theorem test_a_sent_frame_is_read :
    flowPath (merge0 1 FlowSt.reset 0) 23 (rx0 96 40000) = some (127, true) ∧ passesChecks 96 (rx0 96 40000).bytes = true ∧
      passesChecks 96 (rx0 97 40000).bytes = false ∧ rtpSequence 1 (frameRtp (rx0 96 40000).bytes) = 40000 ∧
      rtpPayload (frameRtp (rx0 96 40000).bytes) = [0, 0, 3] := by decide +kernel

/-- Packets 32,768 and 32,767 below the highest value; second copies alike and not; a gap held for its wait; silences of 10 ms. -/
theorem witness_FramesFlowsAndMerge :
    (∃ s : State, runs s ∧ portState s 23 ≠ 5) ∧
    (∃ s : State, runs s ∧ portState s 23 = 5 ∧ fcsOk { rx0 96 0 with fcs := 0 } = false) ∧
    (∀ q : Bool, ∃ (s : State) (f : RxFrame), runs s ∧ portState s 23 = 5 ∧ fcsOk f = true ∧ flowPath s 23 f = none ∧ isPtp s 23 f = false ∧
      rdBit s (P_CTRL_Q 23) 15 = q) ∧
    (∃ (s : State) (f : RxFrame), runs s ∧ portState s 23 = 5 ∧ fcsOk f = true ∧ flowPath s 23 f = none ∧ isPtp s 23 f = true) ∧
    (∃ s : State, runs s ∧ portState s 23 = 5 ∧ fcsOk (rx0 97 0) = true ∧ flowPath s 23 (rx0 97 0) = some (127, true) ∧
      passesChecks (flowOf s 127).payloadType (rx0 97 0).bytes = false) ∧
    (∀ n ∈ [32768, 32767], ∃ s : State, runs s ∧ portState s 23 = 5 ∧ fcsOk (rx0 96 (40000 - n)) = true ∧
      flowPath s 23 (rx0 96 (40000 - n)) = some (127, true) ∧ passesChecks (flowOf s 127).payloadType (rx0 96 (40000 - n)).bytes = true ∧
      127 < s.flows.length ∧
      (extendSeq (flowKind s 127) (flowOf s 127).high (rtpSequence (flowKind s 127) (frameRtp (rx0 96 (40000 - n)).bytes)) -
        (flowOf s 127).high.getD 0).toInt = -(n : Int) ∧
      (flowOf s 127).got.find? (fun g => g.1 = 40000 - BitVec.ofNat 32 n) = none ∧ isSequential (flowKind s 127) = false) ∧
    (∀ pl ∈ ([[0, 0, 3], [4]] : List (List Byte)), ∃ s : State, runs s ∧ portState s 23 = 5 ∧ flowPath s 23 (rx0 96 40000) = some (127, true) ∧
      (flowOf s 127).got.find? (fun g => g.1 =
        extendSeq (flowKind s 127) (flowOf s 127).high (rtpSequence (flowKind s 127) (frameRtp (rx0 96 40000).bytes))) =
          some (40000, true, false, 0, pl)) ∧
    (∃ s : State, runs s ∧ 127 < s.flows.length ∧ expired s 127 = none) ∧
    (∃ (s : State) (x r : BitVec 32), runs s ∧ 127 < s.flows.length ∧ expired s 127 = some x ∧ (flowOf s 127).nextRel = some r) ∧
    (∃ s : State, runs s ∧ rdBit s (RXF_STAT 127) 1 = true ∧ passed s (flowOf s 127).lastB (msTicks 10) = false) ∧
    (∃ s : State, runs s ∧ rdBit s (RXF_STAT 127) 1 = true ∧ passed s (flowOf s 127).lastB (msTicks 10) = true ∧ rdBit s (RXF_CFG 127) 13 = true ∧
      rdBit s (RXF_STAT 127) (1 - 1) = true) := by
  refine ⟨⟨State.reset, rfl, by decide +kernel⟩, ⟨merge0 1 FlowSt.reset 0, rfl, by decide +kernel⟩,
    fun q => ⟨wr (merge0 1 FlowSt.reset 0) (P_CTRL_Q 23) (if q then 0x8000 else 0), ⟨zeros 60, crcOf 0 (zeros 60)⟩, rfl, ?_⟩,
    ⟨wr (wr (merge0 1 FlowSt.reset 0) TIM_PTP_PORTS 0x800000) TIM_PTP_CTL 0x10000,
      ⟨zeros 12 ++ [0x88, 0xF7, 0, 2] ++ zeros 42, crcOf 0 (zeros 12 ++ [0x88, 0xF7, 0, 2] ++ zeros 42)⟩, rfl, by decide +kernel⟩,
    ⟨merge0 1 FlowSt.reset 0, rfl, by decide +kernel⟩,
    fun n hn => ⟨merge0 1 (got0 [3]) 0, rfl, ?_⟩, fun pl h => ⟨merge0 1 (got0 pl) 0, rfl, ?_⟩,
    ⟨merge0 2 FlowSt.reset 0, rfl, by decide +kernel⟩,
    ⟨merge0 2 { FlowSt.reset with nextRel := some 7, held := [(9, 0)] } 50000000, 9, 7, rfl, by decide +kernel⟩,
    ⟨merge0 2 { FlowSt.reset with lastB := some 0 } 12499999, rfl, by decide +kernel⟩,
    ⟨merge0 2 { FlowSt.reset with lastB := some 0 } 12500000, rfl, by decide +kernel⟩⟩
  · cases q <;> decide +kernel
  · simp only [List.mem_cons, List.not_mem_nil, or_false] at hn
    rcases hn with rfl | rfl <;> decide +kernel
  · simp only [List.mem_cons, List.not_mem_nil, or_false] at h
    rcases h with rfl | rfl <;> decide +kernel


/-- The tick at which a cause numbered above RETRAIN's has just taken port 23 down; the port in DOWN otherwise (R322, R324). -/
theorem witness_JustDown :
    ∃ s : State, runs s ∧ portState s 23 = 1 ∧ 0x14 < rdFld s (P_PORT_STATE 23) 15 8 ∧ rd s (P_LAST_DOWN_LO 23) = wordOf s.raw.toNat ∧
      rdFld s (P_LAST_DOWN_HI 23) 15 0 = s.raw.toNat / 2 ^ 32 :=
  ⟨link0 0x1501 3 PortSt.reset 0, rfl, by decide +kernel⟩
/-! ### Ox memory (p13) -/

/-- The example of R340. -/
theorem test_hbm_map_R340 : hbmPlace 0x23456780 = ⟨6, 46, 1504, 0x80⟩ := by decide +kernel

/-- The controllers' last HBM3E stack and last DDR-5 channel with 2 ranks, in a state. -/
def ox0 (state : Word) (x : OxSt) : State :=
  { st [(OX_STAT 1, state), (OX_STAT 9, state), (OX_CFG 9, 4)] with ox := List.replicate 10 x }
def read0 : MemReq := { since := 0, addr := 0x11FFFFFFC0, target := 31, bank := 47, row := 0, wr := none, data := zeros 64, origin := .unit }

/-- Places on both stacks at their ends; sweeps with no, one and two runs. -/
theorem witness_OxMapsAndSweeps :
    (0x11FFFFFFFF < 0x1200000000 ∧ (0x11FFFFFFFF : Nat) / 0x900000000 = 0x900000000 / 0x900000000 ∧ (0 : Nat) / 0x900000000 = 0x8FFFFFFFF / 0x900000000) ∧
    sweepResult ⟨0, [false, false]⟩ = none ∧ sweepResult ⟨10, [true, true, false, true, true, true]⟩ = some (14, 3) := by decide +kernel

theorem witness_OxRequestsAndChecks :
    (∀ i ∈ [1, 9], ∃ (s : State) (a : Nat), runs s ∧ inRange s i a = false) ∧
    (∀ i ∈ [1, 9], ∀ n ∈ [1, 2, 3], ∃ (s : State) (a : Nat), runs s ∧ i < s.ox.length ∧ inRange s i a = true ∧ inRange s i (a + 1) = false ∧
      serves s i (placeOf s i (a / 64 * 64)).target = true ∧ oxState s i = n ∧ inSystem s i (a / 64 * 64) = false) ∧
    (∃ s : State, runs s ∧ inRange s 9 (oxBase 9) = true ∧ inSystem s 9 (oxBase 9) = true ∧ systemCopies s = [8, 9] ∧ 8 < s.ox.length) ∧
    (∃ s : State, runs s ∧ 1 < s.ox.length ∧ (oxOf s 1).reads = [read0] ∧ inSystem s 1 read0.addr = false) ∧
    (∀ p : Bool, ∃ s : State, runs s ∧ inRange s 1 read0.addr = true ∧ serves s 1 (placeOf s 1 read0.addr).target = true ∧
      inSystem s 1 read0.addr = false ∧ writePending (oxOf s 1) 1 read0.addr = p) ∧
    (∃ s : State, runs s ∧ inRange s 1 read0.addr = true ∧ oxState s 1 = 1 ∧ serves s 1 (placeOf s 1 read0.addr).target = false) ∧
    (∃ (s : State) (q : MemReq), runs s ∧ (oxOf s 9).reads = [q] ∧ inSystem s 9 q.addr = true ∧
      (systemCopies s).find? (fun k => k ≠ 9) = some 8) ∧
    (∃ s : State, runs s ∧ patrolDue s 1 = false) ∧
    (∃ s : State, runs s ∧ patrolDue s 1 = true ∧ targetHeld s 1 (placeOf s 1 (oxBase 1)).target = true) ∧
    (∀ k ∈ [0, 0x23FFFFFF], ∃ s : State, runs s ∧ patrolDue s 1 = true ∧ oxState s 1 = 2 ∧ (oxOf s 1).patrol = k ∧
      targetHeld s 1 (placeOf s 1 (oxBase 1 + 64 * k)).target = false) ∧
    (∀ b : Bool, ∃ s : State, runs s ∧ (oxTargets s 1).contains 31 = true ∧ targetIn s 1 31 = true ∧ 1 ≤ oxState s 1 ∧ oxState s 1 ≤ 3 ∧
      (refreshBusy (rdFld s (OX_REF_CTL 1) 0 0) 1 31 (oxOf s 1) || targetHeld s 1 31) = b ∧ postponedOf (oxOf s 1) 31 = [] ∧
      passed s (mget (oxOf s 1).refLast 31) (refreshTicks s 1 31) = true ∧ windowOn (oxOf s 1) 31 = false ∧ inAlert (oxOf s 1) 1 31 = false) ∧
    (∃ s : State, runs s ∧ (oxTargets s 1).contains 31 = true ∧ targetIn s 1 31 = true ∧ oxState s 1 = 2 ∧ windowOn (oxOf s 1) 31 = true ∧
      passed s (mget (oxOf s 1).refLast 31) (refreshTicks s 1 31) = true) ∧
    (∀ b : Bool, ∃ s : State, runs s ∧ (oxTargets s 1).contains 31 = true ∧ passed s (mget (oxOf s 1).polled 31) (msTicks 16) = b) ∧
    (∃ s : State, runs s ∧ (oxTargets s 1).contains 31 = true ∧ oxState s 1 = 0) := by
  refine ⟨fun i hi => ⟨State.reset, 0x1200000000, rfl, ?_⟩, fun i hi n hn => ⟨ox0 (wordOf n) OxSt.reset, oxBase i + oxBytes (ox0 (wordOf n) OxSt.reset) i - 1, rfl, ?_⟩,
    ⟨{ st [(OX_STAT 9, 0x12), (OX_STAT 8, 0x12), (OX_CFG 9, 4)] with systemPair := [8, 9], ox := List.replicate 10 OxSt.reset }, rfl, by decide +kernel⟩,
    ⟨ox0 2 { OxSt.reset with reads := [read0] }, rfl, by decide +kernel⟩,
    fun p => ⟨ox0 2 { OxSt.reset with reqs := if p then [{ read0 with wr := some [] }] else [read0] }, rfl, ?_⟩,
    ⟨ox0 1 { OxSt.reset with fullFor := [31] }, rfl, by decide +kernel⟩,
    ⟨{ st [(OX_STAT 9, 0x12), (OX_STAT 8, 0x12), (OX_CFG 9, 4)] with
        systemPair := [8, 9], ox := List.replicate 10 { OxSt.reset with reads := [{ read0 with addr := oxBase 9 }] } },
      { read0 with addr := oxBase 9 }, rfl, by decide +kernel⟩,
    ⟨st [(OX_PATROL_CTL 1, 0)], rfl, by decide +kernel⟩, ⟨ox0 2 { OxSt.reset with fullFor := [0] }, rfl, by decide +kernel⟩,
    fun k hk => ⟨ox0 2 { OxSt.reset with patrol := k }, rfl, ?_⟩, fun b => ?_,
    ⟨ox0 2 { OxSt.reset with windowOpen := true, target := 31 }, rfl, by decide +kernel⟩,
    fun b => ?_, ⟨State.reset, rfl, by decide +kernel⟩⟩
  · simp only [List.mem_cons, List.not_mem_nil, or_false] at hi
    rcases hi with rfl | rfl <;> decide +kernel
  · simp only [List.mem_cons, List.not_mem_nil, or_false] at hi hn
    rcases hi with rfl | rfl <;> rcases hn with rfl | rfl | rfl <;> decide +kernel
  · cases p <;> decide +kernel
  · simp only [List.mem_cons, List.not_mem_nil, or_false] at hk
    rcases hk with rfl | rfl <;> decide +kernel
  · cases b
    · exact ⟨ox0 2 OxSt.reset, rfl, by decide +kernel⟩
    · exact ⟨ox0 2 { OxSt.reset with reqs := [read0], refNext := [(31, 47)] }, rfl, by decide +kernel⟩
  · cases b
    · exact ⟨ox0 2 { OxSt.reset with polled := [(31, 0)] }, rfl, by decide +kernel⟩
    · exact ⟨ox0 2 OxSt.reset, rfl, by decide +kernel⟩

/-- The limit of a refresh at the last stack is free: a state in which target 31 is busy below it, wherever it is not 0; one in which it has
been reached, without and with an alert; the oldest refresh of a target closes the rows it covers. -/
theorem witness_refresh_limit :
    let lim := Config.refreshLimit 0 0
    let o : OxSt := { OxSt.reset with reqs := [read0], refNext := [(31, 47)] }
    let full : OxSt := { o with postponed := [(31, List.replicate lim 0)] }
    let rings : OxSt := { full with alerts := [⟨15, 1, 0, [31]⟩] }
    refreshBusy 0 1 31 o = true ∧ rdFld (ox0 2 o) (OX_REF_CTL 1) 0 0 = 0 ∧ b2n (oxDdr 1) = 0 ∧
    (0 < lim → (postponedOf (oxOf (ox0 2 o) 1) 31).length < lim) ∧
    lim ≤ (postponedOf (oxOf (ox0 2 full) 1) 31).length ∧ lim ≤ (postponedOf (oxOf (ox0 2 rings) 1) 31).length ∧
    inAlert (oxOf (ox0 2 rings) 1) 1 31 = true ∧
    ∃ x : OxSt, postponedOf x 31 = [0, 0] ∧ ∃ b ∈ x.banks, b.target = 31 ∧ b.opened = some 7 ∧ refreshCovers 0 1 0 b.bank = true :=
  ⟨by decide +kernel, by decide +kernel, by decide +kernel, fun h => h, Nat.le_of_eq (List.length_replicate ..).symm, Nat.le_of_eq (List.length_replicate ..).symm, by decide +kernel,
   { OxSt.reset with postponed := [(31, [0, 0])], banks := [⟨31, 0, some 7, 0, some 7⟩] }, by decide +kernel⟩

def windowed0 (step : Nat) (rs : List (List Nat)) : OxSt :=
  { OxSt.reset with passOn := true, windowOpen := true, step_ := step, results := rs, target := 1 }
/-- A target of a controller in full training, in a step. -/
def training0 (step : Nat) : OxSt := { OxSt.reset with fullFor := [1], fullStep := [(1, step)] }

/-- Passes, windows and steps on the last controllers. -/
theorem witness_OxPasses :
    (∀ i ∈ [1, 9], ∃ s : State, runs s ∧ i < s.ox.length ∧ rdBit s (OX_RETRAIN_CTL i) 0 = true ∧ oxState s i = 2 ∧ (oxOf s i).passOn = false ∧
      passed s (oxOf s i).lastPass (secTicks (retrainSecs s i)) = true ∧ nextTarget s i 0 = some 0) ∧
    (∃ s : State, runs s ∧ (oxOf s 9).passOn = true ∧ targetIn s 9 (oxOf s 9).target = true ∧ (oxOf s 9).windowOpen = false ∧ oxState s 9 = 2 ∧
      passed s (oxOf s 9).lastWindow (msTicks 1) = true ∧ refreshAtLimit s 9 (oxOf s 9).target = false ∧
      targetHeld s 9 (oxOf s 9).target = false) ∧
    (∃ s : State, runs s ∧ (oxOf s 9).passOn = true ∧ targetIn s 9 (oxOf s 9).target = true ∧ (oxOf s 9).windowOpen = false ∧
      passed s (oxOf s 9).lastWindow (msTicks 1) = false) ∧
    (∀ last : Bool, ∃ s : State, runs s ∧ (oxOf s 1).passOn = true ∧ targetIn s 1 (oxOf s 1).target = false ∧
      nextTarget s 1 ((oxOf s 1).target + 1) = (if last then none else some 1)) ∧
    (∃ s : State, runs s ∧ windowOn (oxOf s 9) 1 = false ∧ (oxOf s 9).fullFor.contains 1 = false) ∧
    (∃ s : State, runs s ∧ windowOn (oxOf s 9) 1 = true ∧ freqWaits (oxOf s 9) = true ∧ (oxOf s 9).alerts = [] ∧ (oxOf s 9).fullFor = []) ∧
    (∃ s : State, runs s ∧ windowOn (oxOf s 9) 1 = true ∧ freqWaits (oxOf s 9) = false ∧ targetIn s 9 1 = true ∧
      runResult s 9 1 (oxOf s 9).step_ false [[false]] = none) ∧
    (∀ step ∈ [3, 6], ∀ done : Bool, ∃ (s : State) (sweeps : List (List Bool)) (xs : List (Nat × Nat)), runs s ∧ windowOn (oxOf s 9) 1 = true ∧
      freqWaits (oxOf s 9) = false ∧ (oxOf s 9).step_ = step ∧ runResult s 9 1 step false sweeps = some xs ∧
      pairDone step ((oxOf s 9).results ++ [xs.map (fun x => x.1)]) = done ∧ nextTarget s 9 2 = none) := by
  refine ⟨fun i hi => ⟨ox0 2 OxSt.reset, rfl, ?_⟩, ⟨ox0 2 { OxSt.reset with passOn := true, target := 1 }, rfl, by decide +kernel⟩,
    ⟨ox0 2 { OxSt.reset with passOn := true, target := 1, lastWindow := some 0 }, rfl, by decide +kernel⟩, fun last => ?_,
    ⟨ox0 2 OxSt.reset, rfl, by decide +kernel⟩, ⟨ox0 2 { windowed0 3 [] with freq := some (1, 0) }, rfl, by decide +kernel⟩,
    ⟨ox0 2 (windowed0 3 []), rfl, by decide +kernel⟩, fun step hs done => ?_⟩
  · simp only [List.mem_cons, List.not_mem_nil, or_false] at hi
    rcases hi with rfl | rfl <;> decide +kernel
  · cases last
    · exact ⟨ox0 2 { OxSt.reset with passOn := true, target := 0, failed := [0] }, rfl, by decide +kernel⟩
    · exact ⟨ox0 2 { OxSt.reset with passOn := true, target := 31, failed := [31] }, rfl, by decide +kernel⟩
  · simp only [List.mem_cons, List.not_mem_nil, or_false] at hs
    rcases hs with rfl | rfl <;> cases done
    · exact ⟨ox0 2 (windowed0 3 []), [[true]], [(0, 1)], rfl, by decide +kernel⟩
    · exact ⟨ox0 2 (windowed0 3 [[1], [2], [3]]), [[true]], [(0, 1)], rfl, by decide +kernel⟩
    · exact ⟨ox0 2 (windowed0 6 []), List.replicate 4 [true], [(0, 1), (0, 1), (0, 1), (0, 1)], rfl, by decide +kernel⟩
    · exact ⟨ox0 2 (windowed0 6 [[1], [2], [3]]), List.replicate 4 [true], [(0, 1), (0, 1), (0, 1), (0, 1)], rfl, by decide +kernel⟩

/-- Full trainings that go on and that end, well and badly, of several targets and of the last one; rate requests of each outcome; the first
alert of a domain and the third, released before and after its trainings. -/
theorem witness_OxTrainingAndAlerts :
    (∀ good : Bool, ∃ s : State, runs s ∧ windowOn (oxOf s 9) 1 = false ∧ (oxOf s 9).fullFor.contains 1 = true ∧ alertStops (oxOf s 9) 9 1 = false ∧
      stepsOver (oxOf s 9) 9 1 = false ∧ freqWaits (oxOf s 9) = false ∧
      (runResult s 9 1 (fullStepOf (oxOf s 9) 1) true [[good]]).isSome = good) ∧
    (∃ s : State, runs s ∧ (oxOf s 9).fullFor.contains 1 = true ∧ stepsOver (oxOf s 9) 9 1 = false) ∧
    (∀ i ∈ [1, 9], ∀ n ∈ [1, 3], ∀ others : List Nat, others = [] ∨ others = [0] → ∃ s : State, runs s ∧ (oxOf s i).fullFor = others ++ [1] ∧
      alertStops (oxOf s i) i 1 = false ∧ stepsOver (oxOf s i) i 1 = true ∧ (oxOf s i).fullBad.contains 1 = false ∧ oxState s i = n ∧
      targetIn s i 1 = true ∧ (oxOf s i).freq = none ∧ (oxOf s i).freqOn = none ∧ (oxOf s i).released = []) ∧
    (∀ i ∈ [1, 9], ∀ f ∈ [1, 2], ∀ n ∈ [1, 3], ∃ s : State, runs s ∧ (oxOf s i).fullFor.contains 1 = true ∧ alertStops (oxOf s i) i 1 = false ∧
      (oxOf s i).fullBad.contains 1 = true ∧ targetIn s i 1 = true ∧ oxState s i = n ∧ freqWaits (oxOf s i) = false ∧ (oxOf s i).freqOn = none ∧
      rdFld s (OX_FREQ_STAT i) 1 0 = f ∧ s.streams = [] ∧ s.systemPair = []) ∧
    (∀ n ∈ List.range 6, ∀ b : Bool, ∃ s : State, runs s ∧ oxState s 1 = n ∧ anyRunning s = b ∧ oxDdr 1 = false) ∧
    (∃ s : State, runs s ∧ oxState s 1 = 2 ∧ (oxOf s 1).windowOpen = false ∧ (oxOf s 1).fullFor = [] ∧ (oxOf s 1).alerts = [] ∧
      (oxOf s 1).freqOn = none) ∧
    (∃ (s : State) (a : AlertSt), runs s ∧ oxState s 1 = 3 ∧ (oxOf s 1).alerts.find? (fun a => a.domain = 15) = some a ∧ a.num = 3 ∧
      (∃ x ∈ a.affected, (oxOf s 1).fullFor.contains x = true)) ∧
    (∀ k ∈ [1, 3], ∃ (s : State) (a : AlertSt), runs s ∧ oxState s 1 = 2 ∧ (oxOf s 1).alerts.find? (fun a => a.domain = 15) = some a ∧
      a.num = k ∧ (∀ x ∈ a.affected, (oxOf s 1).fullFor.contains x = false) ∧ freqWaits (oxOf s 1) = false) := by
  refine ⟨fun good => ⟨ox0 3 (training0 2), rfl, ?_⟩, ⟨ox0 3 (training0 1), rfl, by decide +kernel⟩, fun i hi n hn others ho => ?_,
    fun i hi f hf n hn => ⟨{ st [(OX_STAT 1, wordOf n), (OX_STAT 9, wordOf n), (OX_CFG 9, 4), (OX_FREQ_STAT i, wordOf f)] with
                        ox := List.replicate 10 { training0 2 with fullBad := [1] } }, rfl, ?_⟩,
    fun n hn b => ?_, ⟨ox0 2 OxSt.reset, rfl, by decide +kernel⟩,
    ⟨ox0 3 { OxSt.reset with alerts := [⟨15, 3, 0, [30, 31]⟩], fullFor := [31] }, ⟨15, 3, 0, [30, 31]⟩, rfl, by decide +kernel⟩,
    fun k hk => ⟨ox0 2 { OxSt.reset with alerts := [⟨15, k, 0, [30, 31]⟩] }, ⟨15, k, 0, [30, 31]⟩, rfl, ?_⟩⟩
  · cases good <;> decide +kernel
  · refine ⟨ox0 (wordOf n) { training0 8 with fullFor := others ++ [1] }, ?_⟩
    simp only [List.mem_cons, List.not_mem_nil, or_false] at hi hn
    rcases hi with rfl | rfl <;> rcases hn with rfl | rfl <;> rcases ho with rfl | rfl <;> exact ⟨rfl, by decide +kernel⟩
  · simp only [List.mem_cons, List.not_mem_nil, or_false] at hi hf hn
    rcases hi with rfl | rfl <;> rcases hf with rfl | rfl <;> rcases hn with rfl | rfl <;> decide +kernel
  · have all : ∀ n ∈ List.range 6, ∀ b : Bool, (runs (st [(OX_STAT 1, wordOf n), (CH_STAT 15, if b then 4 else 0)])) ∧
        oxState (st [(OX_STAT 1, wordOf n), (CH_STAT 15, if b then 4 else 0)]) 1 = n ∧
        anyRunning (st [(OX_STAT 1, wordOf n), (CH_STAT 15, if b then 4 else 0)]) = b ∧ oxDdr 1 = false := by
      unfold runs
      decide +kernel
    exact ⟨_, all n hn b⟩
  · simp only [List.mem_cons, List.not_mem_nil, or_false] at hk
    rcases hk with rfl | rfl <;> decide +kernel
/-! ### Interrupts, the Goose, check values, queues, the host port (p14) -/

/-- Source 496 alone requested and pending at SC[3] under PMR 1 with PRIO 0 or 1. -/
def source0 (prio : Word) : State :=
  st [(IRQ_SRC_CFG 496, 256 * prio + 3), (IRQ_SRC_CFG 495, 0x303), (TGT_PMR 3, 1), (TGT_HIGHEST 3, 496)]

theorem witness_ClaimTakesTheSignalledSource :
    (∃ s : State, runs s ∧ rdFld s (TGT_HIGHEST 3) 8 0 ≠ noSource) ∧ (∃ s : State, runs s ∧ rdFld s (TGT_HIGHEST 3) 8 0 = noSource) ∧
    (∃ s : State, runs s ∧ activeAt s 497 7 = true) ∧ (∃ s : State, runs s ∧ activeAt s 497 7 = false) := by
  refine ⟨⟨source0 0, rfl, by decide +kernel⟩, ⟨State.reset, rfl, by decide +kernel⟩,
    ⟨{ State.reset with active := [(497, 7, 0)] }, rfl, by decide +kernel⟩, ⟨State.reset, rfl, by decide +kernel⟩⟩

/-- A winner at the least priority below PMR; none at PMR. -/
theorem witness_WinnerIsLeastInTheManualsOrder :
    winner (source0 0) 3 [495, 496] = some 496 ∧ winner (source0 1) 3 [495, 496] = none := by decide +kernel

/-- The highest bits of both words of software requests. -/
theorem test_software_requests_R394 :
    (after (.swiSet 0 0x80000000) State.reset).map (fun s => sourceLevel s 469) = some true ∧
    (after (.swiSet 1 0xFFFFFFFF) State.reset).map (fun s => rd s (IRQ_SWI_CLR 1)) = some 0x07FFFFFF := by decide +kernel

def check0 (ctl running : Word) (o : Bool) : State :=
  { st [(CK_CTL 7, ctl), (CK_RUNNING 7, running)] with cks := List.replicate 8 { isOpen := o, ctl := ctl } }

theorem witness_CheckValueUnitCommands :
    (∀ b : Bool, ∃ s : State, runs s ∧ rdBit s (CK_CTL 7) 4 = false ∧ (ckOf s 7).isOpen = b ∧ 7 < s.cks.length) ∧
    (∃ s : State, runs s ∧ rdBit s (CK_CTL 7) 4 = true) := by
  refine ⟨fun b => ?_, ⟨check0 0x10 0 true, rfl, by decide +kernel⟩⟩
  cases b
  · exact ⟨check0 0 0 false, rfl, by decide +kernel⟩
  · exact ⟨check0 0 0 true, rfl, by decide +kernel⟩

/-- A message of the last polynomial open, fed one byte. -/
theorem witness_FinishGivesTheCrcOfTheBytesFed :
    ∃ s : State, runs s ∧ 7 < s.cks.length ∧ rdBit s (CK_CTL 7) 4 = false ∧ (ckOf s 7).isOpen = true ∧ ckPoly s 7 = 3 ∧
      rd s (CK_RUNNING 7) = ([0x31] : List Byte).foldl (crcStep 3) (crcInit 3) :=
  ⟨check0 3 (([0x31] : List Byte).foldl (crcStep 3) (crcInit 3)) true, rfl, by decide +kernel⟩

/-- The message of R424's table fed through the unit in a word and a byte. -/
theorem test_check_value_R424 : crcOf 2 [0x31, 0x32, 0x33, 0x34, 0x35, 0x36, 0x37, 0x38, 0x39] = 0x29B1 := by decide +kernel

def entry0 : LedgerEntry := { kind := 0x0100, unit := 0, channel := 0xFF, lasting := false, time := 0, data := 0 }

theorem witness_FaultEventIsCountedAndEntered :
    (∀ c ∈ List.range 6, ∃ s : State, runs s ∧ classInsts c - 1 < classInsts c ∧
      (countEvent (faultChannels s c (classInsts c - 1)).2 c (classInsts c - 1) 0 0 (faultChannels s c (classInsts c - 1)).1).2 = false) ∧
    (∀ c ∈ List.range 6, ∃ s : State, runs s ∧
      (countEvent (faultChannels s c (classInsts c - 1)).2 c (classInsts c - 1) 0 0 (faultChannels s c (classInsts c - 1)).1).2 = true) ∧
    (∃ s : State, runs s ∧ s.reports = [(0, 95, 0, 0)] ∧
      (let h := { s with reports := s.reports.eraseP (fun r => r.1 = 0 && r.2.1 = 95 && r.2.2.1 = 0) }
       h.reports = [] ∧ (countEvent (faultChannels h 0 95).2 0 95 0 0 (faultChannels h 0 95).1).2 = false)) ∧
    (∃ (s : State) (e : LedgerEntry), runs s ∧ firstEntry s.waiting = some e ∧ ticksSince s e.time 5000 = true ∧ ticksSince s e.time 5001 = false) := by
  refine ⟨fun c hc => ⟨State.reset, rfl, ?_⟩, fun c hc => ⟨st [(GOOSE_CLASS_CFG c, 0xA0001)], ?_, ?_⟩,
    ⟨{ State.reset with reports := [(0, 95, 0, 0)] }, rfl, rfl, by decide +kernel⟩,
    ⟨{ State.reset with waiting := [entry0], raw := 5000 }, entry0, rfl, by decide +kernel⟩⟩
  · have all : ∀ c ∈ List.range 6, classInsts c - 1 < classInsts c ∧ (countEvent (faultChannels State.reset c (classInsts c - 1)).2 c
        (classInsts c - 1) 0 0 (faultChannels State.reset c (classInsts c - 1)).1).2 = false := by decide +kernel
    exact all c hc
  · have all : ∀ c ∈ List.range 6, (st [(GOOSE_CLASS_CFG c, 0xA0001)]).power = .running := by decide +kernel
    exact all c hc
  · have all : ∀ c ∈ List.range 6, (countEvent (faultChannels (st [(GOOSE_CLASS_CFG c, 0xA0001)]) c (classInsts c - 1)).2 c
        (classInsts c - 1) 0 0 (faultChannels (st [(GOOSE_CLASS_CFG c, 0xA0001)]) c (classInsts c - 1)).1).2 = true := by decide +kernel
    exact all c hc

/-- An instance that has counted nothing, and windows after it, in it and two before it. -/
def inst0 : InstSt := { cls := 0, inst := 0, win := 5, cur := 0, prev := 0, reached := false, reachedPrev := false, lasting := 0 }
theorem witness_OneThresholdAWindow :
    inst0.win < 6 ∧ (3 : Int) < inst0.win - 1 ∧ (countInst 1 inst0 6).2 = true ∧ (countInst 1 (countInst 1 inst0 6).1 6).2 = false := by decide

/-- The last queue of a kind and state, of 16 entries, with head 3 and a tail. -/
def queue0 (kind ctl stat tail : Word) : State :=
  st [(Q_QCFG 32767, kind), (Q_QCTL 32767, 0x40 + ctl), (Q_QSTAT 32767, stat), (Q_HEAD 32767, 3), (Q_TAIL 32767, tail)]

/-- Doorbells with the indices 15 and 16 of a ring of 16 entries, and heads at the tail and beyond it. -/
theorem witness_QueuesAndTheirDoorbells :
    (∃ s : State, runs s ∧ rdBit s (Q_QCFG 32767) 4 = true) ∧ (∃ s : State, runs s ∧ qOpen s 32767 = false) ∧
    (∃ s : State, runs s ∧ qKind s 32767 = 0) ∧
    (∃ s : State, runs s ∧ qOpen s 32767 = true ∧ qEn s 32767 = false ∧ qKind s 32767 = 2) ∧
    (∀ k ∈ [1, 2, 3, 4], ∃ s : State, runs s ∧ rdBit s (Q_QCFG 32767) 4 = false ∧ qOpen s 32767 = true ∧ qKind s 32767 = k ∧
      qSize s 32767 ≤ fld 16 15 0 ∧ fld 15 15 0 < qSize s 32767 ∧ qUsed s 32767 < (fld 8 15 0 + qSize s 32767 - qHead s 32767) % qSize s 32767 ∧
      (fld 7 15 0 + qSize s 32767 - qHead s 32767) % qSize s 32767 ≤ qUsed s 32767) ∧
    (∃ s : State, runs s ∧ qEn s 32767 = false ∧ qKind s 32767 = 1 ∧ (queueSt s 32767).outst = [] ∧ qDraining s 32767 = false) ∧
    (∃ s : State, runs s ∧ qEn s 32767 = false ∧ qDraining s 32767 = true) ∧ (∃ s : State, runs s ∧ qEn s 32767 = true) := by
  refine ⟨⟨queue0 0x11 1 0 7, rfl, by decide +kernel⟩, ⟨queue0 1 0 0 7, rfl, by decide +kernel⟩, ⟨queue0 0 1 0 7, rfl, by decide +kernel⟩,
    ⟨queue0 2 0 4 7, rfl, by decide +kernel⟩, fun k hk => ⟨queue0 (wordOf k) 1 0 7, rfl, ?_⟩, ⟨queue0 1 0 0 7, rfl, by decide +kernel⟩, ⟨queue0 1 0 4 7, rfl, by decide +kernel⟩,
    ⟨queue0 1 1 0 7, rfl, by decide +kernel⟩⟩
  simp only [List.mem_cons, List.not_mem_nil, or_false] at hk
  rcases hk with rfl | rfl | rfl | rfl <;> decide +kernel

/-- A submission queue with a descriptor to fetch and a completion queue for it, both in device memory. -/
def ring0 (os : List Outst) : State :=
  { st [(Q_QCFG 32767, 9), (Q_QCTL 32767, 0x41), (Q_TAIL 32767, 1), (Q_QBIND 32767, 32766), (Q_QCFG 32766, 0xA), (Q_QCTL 32766, 0x41)] with
    queues := [{ qid := 32767, outst := os, phase := true, nextSlot := 0, eseq := 0 }] }
/-- The same with both rings in host memory, the port up. -/
def host0q : State := wr (wr (wr (ring0 []) (Q_QCFG 32767) 1) (Q_QCFG 32766) 2) HOST_STAT 0x805
def group0 (e : Nat) (raw : Raw) : State :=
  { st [(GRP_STAT 255, 1)] with groups := [{ g := 255, e := e, start := 0 }], raw := raw }

theorem witness_DescriptorsAreFetchedAndCompletedInOrder :
    (∃ s : State, runs s ∧ mayFetch s 32767 = false) ∧ (∃ s : State, runs s ∧ (queueSt s 32767).outst = []) ∧
    (∀ b : Bool, ∃ s : State, runs s ∧ mayFetch s 32767 = true ∧ rdBit s (Q_QCFG 32767) 3 = true ∧
      (ringEntry s 32767 (qHead s 32767)).isSome = b) ∧
    (∃ s : State, runs s ∧ mayFetch s 32767 = true ∧ rdBit s (Q_QCFG 32767) 3 = false) ∧
    (∃ (s : State) (o : Outst), runs s ∧ (queueSt s 32767).outst = [o] ∧ o.done.isSome = true ∧ o.dead = false ∧
      firstWritable s 32767 = true ∧ qOpen s (qBound s 32767) = true ∧ qHostMem s (qBound s 32767) = true ∧ hostHeld s = false) ∧
    (∀ op ∈ [0, 9, 0x3F, 0x40, 255], ∃ (s : State) (o : Outst), runs s ∧ nextUnhanded s 32767 = some o ∧ o.opcode = op ∧ o.done = none) ∧
    (∃ (s : State) (o : Outst), runs s ∧ (queueSt s 32767).outst = [o] ∧ o.done.isSome = true ∧ o.dead = false ∧
      firstWritable s 32767 = true ∧ qOpen s (qBound s 32767) = true ∧ qHostMem s (qBound s 32767) = false ∧ (after (.completionWrite 32767) s).isSome = true) ∧
    (∃ s : State, runs s ∧ rdFld s (GRP_STAT 255) 1 0 = 1 ∧ max (rdFld s (GRP_MOD 255) 15 0) 1 = (groupSt s 255).e) ∧
    (∃ s : State, runs s ∧ rdFld s (GRP_STAT 255) 1 0 = 1 ∧ (groupSt s 255).e = 1 ∧
      ticksSince s (groupSt s 255).start (rdFld s (GRP_MOD 255) 31 16 * 1250) = true) := by
  refine ⟨⟨State.reset, rfl, by decide +kernel⟩, ⟨State.reset, rfl, by decide +kernel⟩,
    fun b => ⟨{ ring0 [] with regs := (wr (ring0 []) (OX_STAT 2) 0x10).regs, systemPair := if b then [2] else [] }, rfl, ?_⟩,
    ⟨wr host0q (Q_QCFG 32767) 1, rfl, by decide +kernel⟩,
    ⟨{ host0q with queues := [{ qid := 32767, outst := [{ desc0 1 [] with handed := true, done := some (0, []) }], phase := true, nextSlot := 0, eseq := 0 }] },
      { desc0 1 [] with handed := true, done := some (0, []) }, rfl, by decide +kernel⟩, fun op hop => ⟨ring0 [desc0 op []], desc0 op [], rfl, ?_⟩,
    ⟨ring0 [{ desc0 1 [] with handed := true, done := some (0, zeros 24) }], { desc0 1 [] with handed := true, done := some (0, zeros 24) }, rfl,
      by decide +kernel⟩, ⟨group0 16 0, rfl, by decide +kernel⟩, ⟨group0 1 62500, rfl, by decide +kernel⟩⟩
  · cases b <;> decide +kernel
  simp only [List.mem_cons, List.not_mem_nil, or_false] at hop
  rcases hop with rfl | rfl | rfl | rfl | rfl <;> decide +kernel

/-- Mailbox 3 holding a message of a service, status and length, with or without a reply waiting. -/
def mail0 (w : Word) (full : Bool) : State :=
  { st [(MBX_STAT 3, if full then 2 else 0)] with mbx := List.replicate 4 [w :: List.replicate 15 0] }

theorem witness_HostPortAndMailboxes :
    (∃ s : State, runs s ∧ rdFld s HOST_STAT 2 0 = 0) ∧ (∃ s : State, runs s ∧ rdFld s HOST_STAT 2 0 ≠ 0 ∧ rdBit s HOST_STAT 10 = true) ∧
    (∃ s : State, runs s ∧ rdFld s HOST_STAT 2 0 ≠ 0 ∧ rdBit s HOST_STAT 10 = false ∧ 1 ≤ rdFld s HOST_CTL 7 0) ∧
    (∃ s : State, runs s ∧ ∀ q, (queueSt s q).outst.takeWhile (fun o => o.held) = []) ∧
    (∃ s : State, runs s ∧ rdBit s HOST_STAT 12 = true ∧ passed s s.pmeAt (msTicks 100) = true) ∧
    (∃ s : State, runs s ∧ s.pins.perstReleased = true ∧ (5 : Nat) ≤ 5 ∧ 16 ∈ [1, 2, 4, 8, 16]) ∧
    (∀ b : Bool, ∃ s : State, runs s ∧ rdBit s (MBX_STAT 3) 0 = b ∧ 3 < s.mbx.length) ∧
    (∀ b : Bool, ∃ (s : State) (m : List Word), runs s ∧ s.mbx.getD 3 [] = [m] ∧ rdBit s (MBX_STAT 3) 1 = b ∧ m.length = 16 ∧
      fld (m.getD 0 0) 23 16 = 0 ∧ fld (m.getD 0 0) 31 24 = 60 ∧ fld (m.getD 0 0) 7 0 = 0) ∧
    fld (0x01 : Word) 7 0 = 1 ∧ 1 < fld (0x02 : Word) 7 0 ∧
    (∃ (s : State) (g : ImageInfo), s.img.inForce = some g ∧ State.reset.mbx.getD 3 [] = []) := by
  refine ⟨⟨State.reset, rfl, by decide +kernel⟩, ⟨st [(HOST_STAT, 0x405)], rfl, by decide +kernel⟩,
    ⟨st [(HOST_STAT, 5)], rfl, by decide +kernel⟩, ⟨State.reset, rfl, fun q => rfl⟩,
    ⟨{ st [(HOST_STAT, 0x1000)] with pmeAt := some 0, raw := 125000000 }, rfl, by decide +kernel⟩,
    ⟨{ State.reset with pins := { Pins.reset with perstReleased := true } }, rfl, by decide +kernel⟩,
    fun b => ⟨st [(MBX_STAT 3, if b then 1 else 0)], ?_⟩,
    fun b => ⟨mail0 0x3C000000 b, 0x3C000000 :: List.replicate 15 0, ?_⟩, by decide, by decide,
    ⟨{ State.reset with img := { ImgState.reset with inForce := some info0 } }, info0, rfl, rfl⟩⟩
  · cases b <;> exact ⟨rfl, by decide +kernel⟩
  · cases b <;> exact ⟨rfl, by decide +kernel⟩

/-- R389's services: ECHO of 2 bytes, VERSION with no image in force, one unknown, and a length of 61. -/
theorem test_mailbox_R389 :
    (mbxAnswer State.reset (0x02000000 :: 0xBBAA :: List.replicate 14 0), mbxAnswer State.reset [1], (mbxAnswer State.reset [2]).1,
      (mbxAnswer State.reset [0x3D000000]).1) = ((0, [0xAA, 0xBB]), (0, zeros 20), 1, 2) := by decide +kernel

/-- A function with a pending message and no completion waiting; each kind of reset (R387, R400). -/
theorem witness_FunctionState :
    ∀ kind ∈ [ResetKind.flr, ResetKind.hotReset, ResetKind.linkDown], ∃ s : State, runs s ∧ s.writable = [] ∧ s.pba = [2047] ∧
      (∀ x ∈ s.queues, x.qid < 32768) ∧ (msixEntry s 2047).masked = true ∧ (kind = .flr ∨ kind ≠ .flr) := by
  intro kind _
  exact ⟨{ State.reset with pba := [2047] }, rfl, by decide +kernel, rfl, by decide +kernel, by decide +kernel, by cases kind <;> decide⟩
/-! ### Pairing (p17) -/

/-- A paired device with PAIR_STAT and the link's working state. -/
def paired0 (stat : Word) (g : PairSt → PairSt) (fs : List FrameSt) (raw : Raw) : State :=
  let s := chans0 fs
  { s with regs := (st [(MULE_PAIR_CTL, 0x1D), (MULE_PAIR_STAT, stat), (CH_STAT 15, 1)]).regs, pair := g State.reset.pair, raw := raw }
def hdr0 (n : Word) : MuleHdr := { lseq := n, rxSeq := 0, epoch := 0, alive := 0 }

theorem witness_MuleLinkGoesUpAndDown :
    (∀ b : Bool, ∃ (s : State) (lanes : List LaneRx), runs s ∧ isPaired s = true ∧ linkUp s = false ∧ s.pair.restartAt = none ∧ s.pair.los = [] ∧
      muleAligned lanes = true ∧ s.pair.aligned = b) ∧
    (∀ b : Bool, ∃ (s : State) (h : MuleHdr) (q : Word), runs s ∧ isPaired s = true ∧ linkUp s = false ∧ s.pair.aligned = true ∧
      s.pair.firstTx = some q ∧ h.lseq = s.pair.rxSeq ∧ decide (0 < sdiff h.rxSeq q) = b) ∧
    (∃ s : State, runs s ∧ s.pair.los ≠ []) ∧ muleAligned [] = false ∧
    (∀ m < 4, ∃ s : State, runs s ∧ isPaired s = true ∧ linkUp s = true ∧ rdBit s (MULE_ML_STAT m) 0 = true ∧
      rdBit s (MULE_ML_STAT m) 1 = true ∧ s.pair.skipping = false) ∧ (∃ s : State, runs s ∧ isPaired s = false) ∧
    (∀ r ∈ ([0x11, 0x12] : List Word), ∀ n ∈ ([124999, 125000] : List Raw), ∃ s : State, s.power = .running ∧ linkUp s = true ∧
      role s = rdFld s MULE_PAIR_STAT 1 0 ∧ rd s MULE_PAIR_STAT = r ∧ passed s s.pair.lastRx (usTicks 100) = (n == 125000)) ∧
    (∀ b : Bool, ∃ (s : State) (τ : Raw), runs s ∧ s.pair.restartAt = some τ ∧ linkUp s = false ∧ hasCome s τ = b) := by
  refine ⟨fun b => ⟨paired0 0 (fun p => { p with aligned := b }) [] 0, List.replicate 4 (lane0 .found), rfl, ?_⟩,
    fun b => ⟨paired0 0 (fun p => { p with aligned := true, firstTx := some 0xFFFFFFFF }) [] 0,
      { hdr0 0 with rxSeq := if b then 0 else 0xFFFFFFFF }, 0xFFFFFFFF, rfl, ?_⟩,
    ⟨paired0 0 (fun p => { p with los := [3] }) [] 0, rfl, by decide +kernel⟩, by decide +kernel,
    fun m hm => ⟨wr (paired0 0x11 id [] 0) (MULE_ML_STAT m) 3, rfl, ?_⟩, ⟨State.reset, rfl, by decide +kernel⟩,
    fun r hr n hn => ⟨paired0 r (fun p => { p with lastRx := some 0 }) [] n, rfl, ?_⟩, fun b => ?_⟩
  · cases b <;> decide +kernel
  · cases b <;> decide +kernel
  · have all : ∀ m < 4, isPaired (wr (paired0 0x11 id [] 0) (MULE_ML_STAT m) 3) = true ∧
        linkUp (wr (paired0 0x11 id [] 0) (MULE_ML_STAT m) 3) = true ∧
        rdBit (wr (paired0 0x11 id [] 0) (MULE_ML_STAT m) 3) (MULE_ML_STAT m) 0 = true ∧
        rdBit (wr (paired0 0x11 id [] 0) (MULE_ML_STAT m) 3) (MULE_ML_STAT m) 1 = true ∧
        (wr (paired0 0x11 id [] 0) (MULE_ML_STAT m) 3).pair.skipping = false := by decide +kernel
    exact all m hm
  · simp only [List.mem_cons, List.not_mem_nil, or_false] at hr hn
    rcases hr with rfl | rfl <;> rcases hn with rfl | rfl <;> decide +kernel
  · cases b
    · exact ⟨paired0 0 (fun p => { p with restartAt := some 8 }) [] 7, 8, rfl, by decide +kernel⟩
    · exact ⟨paired0 0 (fun p => { p with restartAt := some 8 }) [] 8, 8, rfl, by decide +kernel⟩

theorem padUp_zeros_length (n : Nat) : (padUp 8 (zeros n)).length = (n + 7) / 8 * 8 := by
  simp only [padUp, zeros, List.length_append, List.length_replicate]
  omega

/-- A message of up to 262,112 bytes of body fits, and no longer one (R438). -/
theorem muleFits_zeros (n : Nat) : muleFits (muleBody (.test (hdr0 0) (zeros n))) = decide (n ≤ 262112) := by
  show decide ((padUp 8 (zeros n)).length + 32 ≤ 262144) = _
  rw [padUp_zeros_length]
  apply decide_eq_decide.mpr
  omega

/-- Numbers one behind, expected, and one ahead, with and without discarding. -/
theorem witness_MuleMessagesInSequence :
    (∀ n : Word, muleHeader (.idle (hdr0 n)) = some (hdr0 n) ∧ (Instr.idle (hdr0 n)).wf = true ∧ muleFits (muleBody (.idle (hdr0 n))) = true) ∧
    (∀ n, muleFits (muleBody (.test (hdr0 0) (zeros n))) = decide (n ≤ 262112)) ∧ (∃ s : State, runs s ∧ isPaired s = false) ∧
    (∀ b : Bool, ∃ s : State, runs s ∧ isPaired s = true ∧ (hdr0 6).lseq ≠ s.pair.rxSeq ∧ s.pair.skipping = b ∧
      0 ≤ sdiff (hdr0 6).lseq s.pair.rxSeq ∧ sdiff (hdr0 4).lseq s.pair.rxSeq < 0 ∧ (hdr0 5).lseq = s.pair.rxSeq) := by
  refine ⟨fun n => ⟨rfl, rfl, show muleFits [] = true by decide +kernel⟩, muleFits_zeros, ⟨State.reset, rfl, by decide +kernel⟩, fun b => ?_⟩
  cases b
  · exact ⟨paired0 0x12 (fun p => { p with rxSeq := 5 }) [] 0, rfl, by decide +kernel⟩
  · exact ⟨paired0 0x12 (fun p => { p with rxSeq := 5, skipping := true }) [] 0, rfl, by decide +kernel⟩

def token0 : TokenBody :=
  { frame := 0, rwfGen := 0, setCrc := 0, cmdFirst := 0, cmdCount := 0, cmdCrc := 0, gopPos := 0, idr := false, forced := false, effort := [] }
def state0 : StateBody :=
  { frame := 0, inputCrc := 0, gsig := 0, flowAudCrc := 0, capCrc := 0, govS := 81920, rens := [], prgs := [], aps := [] }
def full0 : FullBody := { frame := 0, govS := 81920, cmdNext := 0, gopPos := 0, rens := [], strs := [], efforts := [], prgs := [] }
def join0 (m : BitVec 16) : JoinBody := { mask := m, imageId := zeros 16, chMeas := [] }
def mule0 (stat : Word) (fs : List FrameSt) : State := paired0 stat id fs 0

set_option maxRecDepth 20000 in
/-- Each message accepted, by both roles, with and without the frame it names. -/
theorem witness_MuleMessageEffects :
    (∃ s : State, runs s ∧ (receive s 0x01 0xFF (hdr0 0) []).2 = .accepted ∧ (receive s 0x03 0xFF (hdr0 0) [1]).2 = .accepted ∧
      (receive s 0x32 0xFF (hdr0 0) (wordBytes 1 ++ leBytes 2 0 ++ zeros 2)).2 = .accepted) ∧
    (∃ s : State, runs s ∧ (receive s 0x02 0xFF (hdr0 0) (wordBytes 0 ++ zeros 4)).2 = .accepted ∧
      (0 : Word) = (receive s 0x02 0xFF (hdr0 0) (wordBytes 0 ++ zeros 4)).1.pair.txSeq) ∧
    (∀ b : Bool, ∃ s : State, runs s ∧ (receive s 0x02 0xFF (hdr0 0) (wordBytes 0 ++ zeros 4)).2 = .accepted ∧
      (0 : Word) ≠ (receive s 0x02 0xFF (hdr0 0) (wordBytes 0 ++ zeros 4)).1.pair.txSeq ∧
      (receive s 0x02 0xFF (hdr0 0) (wordBytes 0 ++ zeros 4)).1.pair.store.any (fun m => m.lseq = 0) = b) ∧
    (∃ s : State, runs s ∧ (receive s 0x30 0xFF (hdr0 0) (((List.replicate 16 (1 : Word)).map wordBytes).flatten)).2 = .accepted) ∧
    (∀ stat ∈ ([0x11, 0x12] : List Word), ∃ s : State, runs s ∧ 15 < s.chans.length ∧
      (receive s 0x10 15 (hdr0 0) (tokenBodyBytes token0)).2 = .accepted ∧
      rd (receive s 0x10 15 (hdr0 0) (tokenBodyBytes token0)).1 MULE_PAIR_STAT = stat ∧
      (chan (receive s 0x10 15 (hdr0 0) (tokenBodyBytes token0)).1 15).frames = []) ∧
    (∃ (s : State) (f : FrameSt), runs s ∧ role s = 2 ∧ (receive s 0x10 15 (hdr0 0) (tokenBodyBytes token0)).2 = .accepted ∧
      (receive s 0x12 15 (hdr0 0) (stateBytes state0)).2 = .accepted ∧
      (chan (receive s 0x10 15 (hdr0 0) (tokenBodyBytes token0)).1 15).frames.find? (fun f => f.k = token0.frame && !f.decided) = some f ∧
      (chan (receive s 0x12 15 (hdr0 0) (stateBytes state0)).1 15).frames.find? (fun f => f.k = state0.frame) = some f ∧
      (chan (receive s 0x11 15 (hdr0 0) (leBytes 8 0 ++ leBytes 1 1 ++ zeros 7 ++ padUp 8 [0xFF, 0xFF])).1 15).frames.find?
        (fun f => f.k = 0 && f.rescueHeld) = none) ∧
    (∃ (s : State) (f : FrameSt), runs s ∧ role s = 2 ∧
      (receive s 0x11 15 (hdr0 0) (leBytes 8 0 ++ leBytes 1 1 ++ zeros 7 ++ padUp 8 [0xFF, 0xFF])).2 = .accepted ∧
      (chan (receive s 0x11 15 (hdr0 0) (leBytes 8 0 ++ leBytes 1 1 ++ zeros 7 ++ padUp 8 [0xFF, 0xFF])).1 15).frames.find?
        (fun f => f.k = 0 && f.rescueHeld) = some f) ∧
    (∃ s : State, runs s ∧ role s = 2 ∧ (receive s 0x13 15 (hdr0 0) (fullBytes full0)).2 = .accepted ∧
      (receive s 0x14 15 (hdr0 0) (leBytes 8 15 ++ zeros 32 ++ leBytes 8 0)).2 = .accepted ∧
      (receive s 0x20 0xFF (hdr0 0) (ackBody [])).2 = .accepted ∧ (receive s 0x33 0xFF (hdr0 0) (wordBytes 0 ++ zeros 4)).2 = .accepted ∧
      holdDrive (receive s 0x33 0xFF (hdr0 0) (wordBytes 0 ++ zeros 4)).1 = false) := by
  refine ⟨⟨mule0 0x11 [], rfl, by decide +kernel⟩, ⟨mule0 0x11 [], rfl, by decide +kernel⟩, fun b => ?_, ⟨mule0 0x11 [], rfl, by decide +kernel⟩,
    fun x hx => ⟨mule0 x [], rfl, ?_⟩, ⟨mule0 0x12 [frame0], frame0, rfl, by decide +kernel⟩,
    ⟨mule0 0x12 [{ frame0 with rescueHeld := true }], { frame0 with rescueHeld := true }, rfl, by decide +kernel⟩,
    ⟨mule0 0x12 [], rfl, by decide +kernel⟩⟩
  · cases b
    · exact ⟨paired0 0x11 (fun p => { p with txSeq := 2, store := [⟨1, 0xFF, 1, []⟩] }) [] 0, rfl, by decide +kernel⟩
    · exact ⟨paired0 0x11 (fun p => { p with txSeq := 2, store := [⟨1, 0xFF, 0, []⟩] }) [] 0, rfl, by decide +kernel⟩
  · simp only [List.mem_cons, List.not_mem_nil, or_false] at hx
    rcases hx with rfl | rfl <;> decide +kernel

set_option maxRecDepth 20000 in
/-- The messages of channel 15 at a Bellwether, which gets none of them; a STATE before and after its frame is complete at a standby; a
TOKEN of a frame already decided. -/
theorem witness_MuleMessagesOfAChannel :
    (∃ s : State, runs s ∧ role s = 1 ∧ (receive s 0x11 15 (hdr0 0) (leBytes 8 0 ++ leBytes 1 1 ++ zeros 7 ++ padUp 8 [0xFF, 0xFF])).2 = .accepted ∧
      (receive s 0x12 15 (hdr0 0) (stateBytes state0)).2 = .accepted ∧ (receive s 0x13 15 (hdr0 0) (fullBytes full0)).2 = .accepted ∧
      (receive s 0x14 15 (hdr0 0) (leBytes 8 15 ++ zeros 32 ++ leBytes 8 0)).2 = .accepted ∧
      (receive s 0x20 0xFF (hdr0 0) (ackBody [])).2 = .accepted) ∧
    (∃ s : State, runs s ∧ role s = 2 ∧ (receive s 0x12 15 (hdr0 0) (stateBytes state0)).2 = .accepted ∧
      (chan (receive s 0x12 15 (hdr0 0) (stateBytes state0)).1 15).frames.find? (fun f => f.k = state0.frame) = none) ∧
    (∃ s : State, runs s ∧ (receive s 0x10 15 (hdr0 0) (tokenBodyBytes token0)).2 = .accepted ∧
      (∃ f ∈ (chan (receive s 0x10 15 (hdr0 0) (tokenBodyBytes token0)).1 15).frames, f.k = token0.frame) ∧
      (chan (receive s 0x10 15 (hdr0 0) (tokenBodyBytes token0)).1 15).frames.find? (fun f => f.k = token0.frame && !f.decided) = none) := by
  refine ⟨⟨mule0 0x11 [], rfl, by decide +kernel⟩, ⟨mule0 0x12 [], rfl, by decide +kernel⟩,
    ⟨mule0 0x12 [{ frame0 with decided := true }], rfl, by decide +kernel, ⟨{ frame0 with decided := true }, ?_, rfl⟩, by decide +kernel⟩⟩
  decide +kernel

set_option maxRecDepth 20000 in
/-- An AUDIO block at both roles and one in use already; JOIN of channel 15 at the Bellwether of the same image, with and without a
re-plan that waits, and at a standby; TAKEN at a device that drives the net. -/
theorem witness_joins_and_audio :
    (∀ stat ∈ ([0x11, 0x12] : List Word), ∀ used : Bool, ∃ s : State, runs s ∧ 7 < s.aps.length ∧ role s = rdFld s MULE_PAIR_STAT 1 0 ∧
      rd s MULE_PAIR_STAT = stat ∧ apAssigned s 7 = true ∧
      (receive s 0x21 (BitVec.ofNat 8 (apChannel s 7)) (hdr0 0) (audioBody 7 0 0 [])).2 = .accepted ∧
      (apOf s 7).blocks.any (fun y => y.1 = 0) = used) ∧
    (∃ s : State, runs s ∧ (receive s 0x31 0xFF (hdr0 0) (joinBytes (join0 0x8000))).2 = .accepted ∧ role s = 2) ∧
    (∀ force : Bool, ∃ s : State, runs s ∧ 15 < s.chans.length ∧ (receive s 0x31 0xFF (hdr0 0) (joinBytes (join0 0x8000))).2 = .accepted ∧
      role s = 1 ∧ bytesWords (padTo 16 (join0 0x8000).imageId) = ownImageId s ∧ maskChannels (join0 0x8000).mask = [15] ∧
      (join0 0x8000).chMeas.getD 15 [] = s.img.chMeas.getD 15 [] ∧ rdBit s (CH_STAT 15) 0 = true ∧ rdBit s MULE_PAIR_CTL 3 = force ∧
      (chan s 15).pend = none) ∧
    (∃ s : State, runs s ∧ role s = 1 ∧ (receive s 0x31 0xFF (hdr0 0) (joinBytes { join0 0x8000 with imageId := 1 :: zeros 15 })).2 = .accepted ∧
      bytesWords (padTo 16 (1 :: zeros 15)) ≠ ownImageId s ∧ (join0 0x8000).mask.getLsbD 15 = true) ∧
    (∃ s : State, runs s ∧ (receive s 0x33 0xFF (hdr0 0) (wordBytes 0 ++ zeros 4)).2 = .accepted ∧ holdDrive s = true ∧ isPaired s = true ∧
      (hdr0 0).epoch = rd s MULE_EPOCH ∧ rdBit s MULE_PAIR_STAT 6 = true) := by
  refine ⟨fun stat hs used => ⟨{ st [(MULE_PAIR_CTL, 1), (MULE_PAIR_STAT, stat), (AP_CFG 7, 0x1F0001)] with
      aps := List.replicate 8 { ApSt.reset with blocks := if used then [(0, [])] else [] } }, rfl, ?_⟩,
    ⟨mule0 0x12 [], rfl, by decide +kernel⟩,
    fun force => ⟨{ mule0 0x11 [] with regs := (st [(MULE_PAIR_CTL, if force then 9 else 1), (MULE_PAIR_STAT, 0x11), (CH_STAT 15, 1)]).regs },
      rfl, ?_⟩, ⟨mule0 0x11 [], rfl, by decide +kernel⟩, ⟨mule0 0x55 [], rfl, by decide +kernel⟩⟩
  · simp only [List.mem_cons, List.not_mem_nil, or_false] at hs
    rcases hs with rfl | rfl <;> cases used <;> decide +kernel
  · cases force <;> decide +kernel

/-- The net low for 10 ms with and without the link and on either side; each role with and without the drive, a short and its end. -/
def net0 (stat : Word) (low : Option Raw) : State :=
  { mule0 stat [] with pins := { Pins.reset with holdLowSince := low }, raw := 12500000 }

theorem witness_ControlOfTheHoldNet :
    (∀ stat ∈ ([0x50, 0x00] : List Word), ∃ s : State, runs s ∧ isPaired s = true ∧ s.pins.holdLowSince = some 0 ∧ ticksSince s 0 (msTicks 10) = true ∧
      holdDrive s = false ∧ (linkUp s = true ∨ rdBit s MULE_PAIR_STAT 6 = false) ∧ rd s MULE_PAIR_STAT = stat) ∧
    (∃ s : State, runs s ∧ isPaired s = true ∧ s.pins.holdLowSince = some 1 ∧ ticksSince s 1 (msTicks 10) = false) ∧
    (∃ s : State, runs s ∧ linkUp s = false ∧ rdBit s MULE_PAIR_STAT 6 = true) ∧ (∃ s : State, runs s ∧ isPaired s = false) ∧
    (∃ s : State, runs s ∧ isPaired s = true ∧ role s = 1 ∧ holdDrive s = true) ∧
    (∃ s : State, runs s ∧ isPaired s = true ∧ role s = 2 ∧ holdDrive s = false ∧ holdShorted s = false ∧ s.streams = [] ∧
      (chan s 15).frames = []) ∧ (∃ s : State, runs s ∧ role s = 2 ∧ holdShorted s = true) := by
  refine ⟨fun x hx => ⟨net0 x (some 0), rfl, ?_⟩, ⟨net0 0 (some 1), rfl, by decide +kernel⟩, ⟨net0 0x40 none, rfl, by decide +kernel⟩,
    ⟨State.reset, rfl, by decide +kernel⟩, ⟨net0 0x15 none, rfl, by decide +kernel⟩, ⟨net0 0x12 none, rfl, by decide +kernel⟩,
    ⟨{ net0 0x12 none with pins := { Pins.reset with holdShortEnd := some 12500000 } }, rfl, by decide +kernel⟩⟩
  simp only [List.mem_cons, List.not_mem_nil, or_false] at hx
  rcases hx with rfl | rfl <;> decide +kernel

/-- A device that sends nothing: it is not paired, and its messages are not due. -/
theorem witness_NothingToSend :
    linkUp State.reset = false ∧ isPaired State.reset = false ∧ role State.reset ≠ 1 ∧
    (∃ s : State, runs s ∧ role s = 1 ∧ passed s s.pair.lastAck (usTicks 1) = true ∧ s.pair.ackDue = []) ∧
    (∃ s : State, runs s ∧ isPaired s = true ∧ linkUp s = true ∧ passed s s.pair.lastTx (usTicks 10) = false ∧
      passed s s.pair.lastHealthTx (msTicks 100) = false ∧ passed s s.pair.lastHealthRx (msTicks 250) = false) :=
  ⟨by decide +kernel, by decide +kernel, by decide +kernel, ⟨mule0 0x11 [], rfl, by decide +kernel⟩,
   ⟨paired0 0x12 (fun p => { p with lastTx := some 0, lastHealthTx := some 0, lastHealthRx := some 0 }) [] 12499, rfl, by decide +kernel⟩⟩

theorem witness_RunningInStep :
    (∃ s : State, runs s ∧ isPaired s = true ∧ linkUp s = true ∧ passed s s.pair.lastTx (usTicks 10) = true ∧
      passed s s.pair.lastHealthTx (msTicks 100) = true ∧ passed s s.pair.lastHealthRx (msTicks 250) = true ∧
      s.raw = 312500000) ∧
    (∃ s : State, runs s ∧ role s = 1 ∧ passed s s.pair.lastAck (usTicks 1) = true ∧ s.pair.ackDue = [(0, 0, 0)]) ∧
    (∃ (s : State) (f : FrameSt), runs s ∧ role s = 2 ∧ oldest s 15 (fun f => !f.decided) = some f ∧ (chan s 15).dead = false ∧
      f.field.isSome = true ∧ reached s (f.start + ((f.grid.num / (10 * max 1 f.grid.den) : Nat) : Int)) = true ∧
      oldest s 15 (fun f => f.rescueHeld) = some f ∧ reached s f.deadline = true ∧
      oldest s 15 (fun f => f.started && !f.stateSeen) = some f ∧ 15 < s.chans.length ∧
      reached s (gAt f.grid (f.j + f.plan.delay + 1) + 1100000) = true) ∧
    (∃ (s : State) (own : AudioBlock), runs s ∧ role s = 2 ∧ apAssigned s 7 = true ∧ (apOf s 7).blocks.any (fun x => x.1 = 0) = false ∧
      (apOf s 7).shadows.find? (fun x => x.1 = 0) = some own ∧ reached s (blockTime (rdBit s (AP_CFG 7) 2) 1 + 1000000) = true) ∧
    (∃ s : State, runs s ∧ 15 < s.chans.length ∧ linkUp s = true ∧ role s = 2 ∧ divCause s 15 ≠ 0 ∧ rdBit s MULE_JOIN_MASK 15 = true ∧
      rdBit s MULE_PAIR_CTL 4 = true ∧ rd s MULE_EPOCH = rd s MULE_PEER_EPOCH ∧
      ownImageId s = (List.range 4).map (fun w => rd s (GOOSE_HR_LAST (w + 2))) ∧ rdBit s (CH_STAT 15) 0 = true ∧
      passed s (chan s 15).lastJoin (secTicks 1) = true) ∧
    (∃ s : State, runs s ∧ rdBit s GOOSE_ST_CTL 0 = true ∧ passed s s.pair.lastEye (secTicks (max 1 (rdFld s GOOSE_ST_CTL 31 16))) = true ∧
      rdFld s (LN_STAT 47) 10 5 < 24 ∧ rdFld s (P_PORT_STATE (rdFld s (LN_STAT 47) 10 5)) 2 0 = 5) := by
  refine ⟨⟨paired0 0x12 (fun p => { p with lastTx := some 0, lastHealthTx := some 0, lastHealthRx := some 0 }) [] 312500000, rfl, by decide +kernel⟩,
    ⟨paired0 0x11 (fun p => { p with ackDue := [(0, 0, 0)], lastAck := some 0 }) [] 1250, rfl, by decide +kernel⟩,
    ⟨paired0 0x12 id [{ frame0 with field := some field0, rescueHeld := true, started := true }] 5000000000000,
      { frame0 with field := some field0, rescueHeld := true, started := true }, rfl, by decide +kernel⟩,
    ⟨{ st [(MULE_PAIR_STAT, 2), (AP_CFG 7, 0x100001)] with aps := List.replicate 8 { ApSt.reset with shadows := [(0, [])] }, raw := 5000000000 },
      (0, []), rfl, by decide +kernel⟩,
    ⟨{ mule0 0x12 [] with regs := (st [(MULE_PAIR_CTL, 0x1D), (MULE_PAIR_STAT, 0x12), (CH_STAT 15, 1), (MULE_JOIN_MASK, 0x8000),
      (MULE_DIV_CAUSE_HI, 0x10000000)]).regs }, rfl, by decide +kernel⟩, ⟨link0 5 3 PortSt.reset 0, rfl, by decide +kernel⟩⟩

/-! ### Calibration, power, the whole device (p18, p19, p99) -/

/-- The examples of R470 and R471. -/
theorem test_trim_R470_R471 : interpolate 530 548 492 = 538 ∧ acceptRule 2 545 548 546 547 = (some 546, true) := by decide +kernel

def cal0 (regs : List (Reg × Word)) (g : CalSt → CalSt) (raw : Raw) : State := { st regs with cal := g State.reset.cal, raw := raw }
/-- A function applied n times, each value computed before the next. -/
def forced (f : Nat → Nat) : Nat → Nat → Nat
  | 0, v => v
  | n + 1, v =>
    match f v with
    | 0 => forced f n 0
    | w + 1 => forced f n (w + 1)

theorem forced_succ (f : Nat → Nat) (n v : Nat) : forced f (n + 1) v = forced f n (f v) := by
  show (match f v with
    | 0 => forced f n 0
    | w + 1 => forced f n (w + 1)) = _
  split <;> simp_all

theorem forced_add (f : Nat → Nat) (n : Nat) : ∀ m v, forced f (m + n) v = forced f n (forced f m v) := by
  intro m
  induction m with
  | zero => intro v; simp [forced]
  | succ m ih => intro v; rw [Nat.add_right_comm, forced_succ, ih, forced_succ]

theorem forced_mul (f : Nat → Nat) (k : Nat) : ∀ m v, forced (forced f k) m v = forced f (m * k) v := by
  intro m
  induction m with
  | zero => intro v; simp [forced]
  | succ m ih => intro v; rw [forced_succ, ih, Nat.succ_mul, Nat.add_comm, forced_add]

/-- The CRC-32C register after a zero byte. -/
def zeroStep (v : Nat) : Nat := (crcStep 1 (BitVec.ofNat 32 v) 0).toNat

theorem foldl_zeros (n : Nat) : ∀ v : Word, ((zeros n).foldl (crcStep 1) v).toNat = forced zeroStep n v.toNat := by
  induction n with
  | zero => intro v; rfl
  | succ n ih =>
    intro v
    rw [forced_succ, show zeros (n + 1) = 0 :: zeros n from rfl, List.foldl_cons, ih]
    simp [zeroStep]

theorem crc_of_an_empty_set : crc32c (zeros 4092) = 0xA732586E := by
  have e : forced (forced zeroStep 93) 44 0xFFFFFFFF = 0x58CDA791 := by decide +kernel
  have h : (zeros 4092).foldl (crcStep 1) (crcInit 1) = 0x58CDA791 := by
    apply BitVec.eq_of_toNat_eq
    rw [foldl_zeros, show forced zeroStep 4092 (crcInit 1).toNat = forced zeroStep (44 * 93) 0xFFFFFFFF from rfl, ← forced_mul, e]
    rfl
  unfold crc32c crcOf
  rw [h]
  rfl

theorem storeBytes_zero (s : State) (a n : Nat) (h : ∀ i, i < n → storeByte s (a + i) = 0) : storeBytes s a n = zeros n := by
  unfold storeBytes zeros
  rw [List.eq_replicate_iff]
  refine ⟨by simp, fun b hb => ?_⟩
  obtain ⟨i, hi, rfl⟩ := List.mem_map.mp hb
  exact h i (List.mem_range.mp hi)

/-- The store with copy A of set 0 valid, its trims 0, and nothing else. -/
def empty0 : State := { State.reset with nv := [(0x4FFC, 0x6E), (0x4FFD, 0x58), (0x4FFE, 0x32), (0x4FFF, 0xA7)] }

theorem empty0_else (a : Nat) (h : a < 0x4FFC ∨ 0x5000 ≤ a) (e : 0x2000 ≤ a) : storeByte empty0 a = 0 := by
  have out : (0x1000 ≤ a && a < 0x2000) = false := by simp [e]
  unfold storeByte
  rw [out]
  simp [byteAt, empty0, mget, unlistedByte, show ¬(20476 = a) by omega, show ¬(20477 = a) by omega, show ¬(20478 = a) by omega,
    show ¬(20479 = a) by omega]

theorem empty0_valid : copyValid empty0 0x4000 = true := by
    have h : crc32c (storeBytes empty0 0x4000 0xFFC) = 0xA732586E := by
      rw [storeBytes_zero _ _ _ (fun i hi => empty0_else _ (by omega) (by omega))]
      exact crc_of_an_empty_set
    have k : wordOf (ofLe (storeBytes empty0 (0x4000 + 0xFFC) 4)) = 0xA732586E := by decide +kernel
    unfold copyValid
    rw [h, k, Bool.and_eq_true, List.all_eq_true]
    refine ⟨by decide, fun n hn => ?_⟩
    have hn := List.mem_range.mp hn
    rw [setTrim, storeBytes_zero _ _ 2 (fun i hi => empty0_else (0x4000 + 2 * n + i) (by omega) (by omega))]
    decide

theorem empty0_other : copyValid empty0 0x9000 = false := by
    have h : crc32c (storeBytes empty0 0x9000 0xFFC) = 0xA732586E := by
      rw [storeBytes_zero _ _ _ (fun i hi => empty0_else _ (by omega) (by omega))]
      exact crc_of_an_empty_set
    have k : wordOf (ofLe (storeBytes empty0 (0x9000 + 0xFFC) 4)) = 0 := by decide +kernel
    unfold copyValid
    rw [h, k, show ((0xA732586E : Word) == 0) = false from by decide, Bool.false_and]

theorem newerCopy_a {a b : Bool} (ha : a = true) (hb : b = false) (c : Bool) : newerCopy a b c = some false := by
  subst ha hb
  rfl

theorem empty0_current : currentCopy empty0 0 = some false := by
  unfold currentCopy
  apply newerCopy_a
  · rw [show setBase 0 false = 0x4000 from rfl]; exact empty0_valid
  · rw [show setBase 0 true = 0x9000 from rfl]; exact empty0_other

/-- A training's value accepted where a set near Tj has a current copy. -/
theorem witness_currentCopy : runs empty0 ∧ 0 ∈ nearSets (tjNow empty0) ∧ currentCopy empty0 0 = some false :=
  ⟨rfl, by decide +kernel, empty0_current⟩

theorem witness_CalibrationSensorsAndVoltage :
    ((0 : Nat) ≤ 800 ∧ (800 : Nat) ≤ 800 ∧ (700 : Nat) ≤ 850) ∧
    (∃ s : State, runs s ∧ passed s s.cal.lastInterp (secTicks 1) = false) ∧
    (∃ s : State, runs s ∧ passed s s.cal.lastInterp (secTicks 1) = true ∧ 623 < s.cal.trims.length ∧ trimGroup 623 ≠ 4 ∧ trimGroup 623 ≠ 6 ∧
      (trimOf s 623).heldAt = none) ∧
    (∀ n ∈ [0, 623], ∃ s : State, runs s ∧ n < s.cal.trims.length ∧ (acceptRule (trimTolerance n) 0 1023 0 1023).1 = none ∧
      (acceptRule (trimTolerance n) 0 1023 7 7).1 = some 7) ∧
    (∃ s : State, runs s ∧ rdBit s CAL_CTL 0 = true ∧ passed s s.cal.lastRun (secTicks (calPeriod s)) = true) ∧
    (∃ s : State, runs s ∧ rdBit s CAL_CTL 0 = false) ∧
    (∃ s : State, runs s ∧ groupRuns s 6 = true ∧ tbit (0x40 : Word) 6 = true) ∧ (0x8F : Word) &&& 0x70 = 0 ∧
    (∀ g ∈ [4, 5, 6], ∃ (s : State) (n : Nat), runs s ∧ 624 ≤ n ∧ n < 669 ∧ trimGroup n = g ∧ groupRuns s g = true ∧ groupTurn s g = n ∧
      (g = 4 → refInUse s = true)) ∧
    (∃ s : State, runs s ∧ groupRuns s 4 = false) ∧
    (∀ b : Bool, ∃ s : State, runs s ∧ passed s s.cal.lastConv (usTicks 100) = b ∧ s.streams = [] ∧ s.systemPair = [] ∧ rdFld s GLB_STAT 2 0 = 1 ∧
      rdBit s (CAL_VS 5) 12 = false) ∧
    (∀ b : Bool, ∃ s : State, runs s ∧ passed s s.cal.lastAvs (msTicks 1) = true ∧ rdBit s CAL_AVS_STAT 26 = b ∧ rdBit s (CAL_SPD 15) 16 = false ∧
      passed s s.cal.lastRead (msTicks 10) = true ∧ rdBit s GLB_PIN_STAT 10 = false ∧ s.cal.avsFails = 2) := by
  refine ⟨by decide, ⟨cal0 [] (fun c => { c with lastInterp := some 0 }) 1249999999, rfl, by decide +kernel⟩,
    ⟨cal0 [] (fun c => { c with lastInterp := some 0 }) 1250000000, rfl, by decide +kernel⟩, fun n hn => ⟨State.reset, rfl, ?_⟩,
    ⟨State.reset, rfl, by decide +kernel⟩, ⟨st [(CAL_CTL, 0)], rfl, by decide +kernel⟩, ⟨st [(CAL_STAT, 0x40)], rfl, by decide +kernel⟩,
    by decide, fun g hg => ⟨st [(CAL_STAT, 0x70), (TIM_REF_STAT, 2)], groupTurn (st [(CAL_STAT, 0x70), (TIM_REF_STAT, 2)]) g, rfl, ?_⟩,
    ⟨State.reset, rfl, by decide +kernel⟩,
    fun b => ?_, fun b => ?_⟩
  · simp only [List.mem_cons, List.not_mem_nil, or_false] at hn
    rcases hn with rfl | rfl <;> decide +kernel
  · simp only [List.mem_cons, List.not_mem_nil, or_false] at hg
    rcases hg with rfl | rfl | rfl <;> decide +kernel
  · cases b
    · exact ⟨cal0 [(GLB_STAT, 1)] (fun c => { c with lastConv := some 0 }) 124999, rfl, by decide +kernel⟩
    · exact ⟨cal0 [(GLB_STAT, 1)] (fun c => { c with lastConv := some 0 }) 125000, rfl, by decide +kernel⟩
  · cases b
    · exact ⟨cal0 [] (fun c => { c with avsFails := 2, lastAvs := some 0, lastRead := some 0 }) 12500000, rfl, by decide +kernel⟩
    · exact ⟨cal0 [(CAL_AVS_STAT, 0x40002EE)] (fun c => { c with avsFails := 2, lastAvs := some 0, lastRead := some 0 }) 12500000, rfl,
        by decide +kernel⟩

/-- A trim of each memory whose training has left a pair, a pair with its retry, and nothing; a temperature near no set; a read-out of the
voltage that does not fit its field. -/
theorem witness_OffersAndReadings :
    (∀ n ∈ [208, 399, 400, 623], (∃ s : State, runs s ∧ n < s.cal.trims.length ∧ offerOf s n = none) ∧
      (∃ s : State, runs s ∧ offerOf s n = some (5, 6, 5, 6)) ∧ (∃ s : State, runs s ∧ offerOf s n = some (0, 1023, 7, 7))) ∧
    (∃ s : State, runs s ∧ nearSets (tjNow s) = []) ∧
    (∃ s : State, runs s ∧ passed s s.cal.lastRead (msTicks 10) = true ∧ rdBit s GLB_PIN_STAT 10 = false ∧ ¬(1024 : Nat) < 1024) := by
  refine ⟨fun n hn => ⟨⟨State.reset, rfl, ?_⟩, ⟨{ State.reset with ox := List.replicate 10 { OxSt.reset with offers := [(n, [5, 6])] } }, rfl, ?_⟩,
      ⟨{ State.reset with ox := List.replicate 10 { OxSt.reset with offers := [(n, [0, 1023, 7, 7])] } }, rfl, ?_⟩⟩,
    ⟨st [(CAL_TJ, 100)], rfl, by decide +kernel⟩, ⟨State.reset, rfl, by decide +kernel⟩⟩ <;>
    · simp only [List.mem_cons, List.not_mem_nil, or_false] at hn
      rcases hn with rfl | rfl | rfl | rfl <;> decide +kernel

/-- A registered RDIMM of the smallest and of the largest capacity the manual supports. -/
def dimm0 : Dimm := { registered := true, planar := true, x4 := true, gbit := 16, ranks := 2, part := 0 }

/-- Each power state; each class of short set and clear; the net idle; the diode due. -/
theorem witness_PowerAndPins :
    (∀ p ∈ [Power.held, .running, .tripped], ∃ s : State, s.power = p) ∧
    (channelSupported [dimm0] = true ∧ channelSupported [dimm0, dimm0] = true ∧ channelSupported [dimm0, { dimm0 with part := 1 }] = false ∧
      (Vector.replicate 8 [dimm0]).toList.getD 7 [] = [dimm0]) ∧
    ((4 : BitVec 8).getLsbD 2 = true ∧ (0xFB : BitVec 8).getLsbD 2 = false ∧ (0xFB : BitVec 8) ≠ 0) ∧
    (∀ c ∈ [PinClass.bwHold, .ddrRst, .jtagTdo], ∀ b : Bool, ∃ s : State, s.power = .running ∧ rdBit s GLB_PIN_STAT c.bit = b ∧ holdDrive s = true) ∧
    (∃ s : State, runs s ∧ isPaired s = true ∧ holdDrive s = false ∧ s.pair.peerDriving = false) ∧ (∃ s : State, runs s ∧ isPaired s = false) ∧
    (∀ x ∈ [1, 3], ∃ s : State, s.power = .running ∧ rdBit s GLB_PIN_STAT 12 = false ∧ oxState s 9 = x ∧ s.streams = [] ∧ s.systemPair = []) ∧
    (∃ s : State, runs s ∧ isPaired s = true ∧ holdDrive s = false ∧ s.pair.peerDriving = true) ∧
    (∀ b : Bool, ∃ s : State, runs s ∧ passed s s.pins.lastDiode (secTicks 1) = b) := by
  refine ⟨fun p _ => ⟨{ State.reset with power := p }, rfl⟩, by decide +kernel, by decide,
    fun c hc b => ⟨st [(GLB_PIN_STAT, if b then 0x5100 else 0), (MULE_PAIR_STAT, 4)], ?_⟩, ⟨mule0 0x11 [], rfl, by decide +kernel⟩,
    ⟨State.reset, rfl, by decide +kernel⟩, fun x hx => ⟨st [(OX_STAT 9, wordOf x)], rfl, ?_⟩,
    ⟨paired0 0x11 (fun p => { p with peerDriving := true }) [] 0, rfl, by decide +kernel⟩,
    fun b => ⟨{ State.reset with pins := { Pins.reset with lastDiode := if b then none else some 0 } }, rfl, ?_⟩⟩
  · simp only [List.mem_cons, List.not_mem_nil, or_false] at hc
    rcases hc with rfl | rfl | rfl <;> cases b <;> decide +kernel
  · simp only [List.mem_cons, List.not_mem_nil, or_false] at hx
    rcases hx with rfl | rfl <;> decide +kernel
  · cases b <;> decide +kernel

/-- A sector request at the last address of the last stack, one outside it, and one with a unit too many. -/
theorem witness_EveryCommandTheDeviceTakesAnswers :
    (∃ (s : State) (i : Instr), takes s i ∧ i = .memoryRequest 1 0x11FFFFFFFF none) ∧ (Instr.memoryRequest 10 0 none).wf = false ∧
    exec (.memoryRequest 0 0x1200000000 none) State.reset = .fault .noSuchAddress :=
  ⟨⟨State.reset, _, ⟨rfl, fun x a w h => by cases h; decide +kernel⟩, rfl⟩, rfl, rfl⟩

/-- The state after reset has its stores in form, and so has one with a byte written. -/
theorem witness_StoresFusesAndTimeUnderEveryStep :
    storesWf State.reset ∧ storesWf { State.reset with dev := putBytes [] 5 [1, 0, 2] } ∧
    ((match step { State.reset with pending := [.coreWait 3] } with
      | .next t => t.waitCores
      | _ => 0) = 8) := by unfold storesWf; decide +kernel

/-! ### Worked examples of the manual -/

/-- R58's check with and without EFFORT_DEGRADE, on the entry of the Plan C' example. -/
theorem test_budget_example : ¬ (12641000 ≤ 8 * 1000000) ∧ 12641000 * 45 ≤ 8 * 100000000 := by decide

/-- R19's order across the wrap of the counter. -/
theorem test_order_across_the_wrap_R19 : sdiff (0x000000000100 : Raw) 0xFFFFFFFFFF00 = 0x200 := by decide +kernel

/-- The rendition R1 of Plan C, and its 1920 by 1080 rendition. -/
def r1 : RendPlan := { rend0 with codec := 1, w := 5760, h := 3240 }
def r3 : RendPlan := { rend0 with codec := 1, w := 1920, h := 1080 }

/-- The example of R113: the mapped block, the vector at distance 1, and at distance 3 from the second slot. -/
theorem test_vectors_R113 :
    mappedBlock { field0 with bw := 480, bh := 270 } 7680 4320 r1 10 7 = (14, 10) ∧ scaledVector 7680 4320 r1 1 (-37, 22) = (-28, 17) ∧
      (scaleHalfAway (-10) 3 2, scaleHalfAway 6 3 2) = (-15, 9) ∧ slotOfDistance 3 = 2 := by decide +kernel

/-- The example of the IDR rules: a suppressed scene cut, a forced IDR, another suppressed cut, the cadence. -/
theorem test_idr_example :
    let f (k : Nat) (seq : Word) : FrameSt := { frame0 with k := k, set := [((CH_GOP_CTL 15).addr, 0x1E1078), ((CH_IDR_REQ 15).addr, seq)] }
    idrDecision (f 262 0x11) 15 21 (some 0x11) false true = (false, 22, true) ∧ idrDecision (f 300 0x12) 15 59 (some 0x11) false false = (true, 0, false) ∧
      idrDecision (f 305 0x12) 15 4 (some 0x12) false true = (false, 5, true) ∧ idrDecision (f 420 0x12) 15 119 (some 0x12) false false = (true, 0, false) := by
  decide +kernel

/-- The layers of the example of R139: T = 3. -/
theorem test_layers_example : (List.range 9).map (fun p => temporalLayer 3 p) = [0, 2, 1, 2, 0, 2, 1, 2, 0] := by decide +kernel

/-- The example of R167: seven tiles of 4, 4, 4, 5, 4, 4 and 5 units, and LR_MAX. -/
theorem test_last_resort_R167 :
    tileCount 8 r3 = 7 ∧ (List.range 7).map (fun i => ctCols r3 * (i + 1) / 7 - ctCols r3 * i / 7) = [4, 4, 4, 5, 4, 4, 5] ∧ lrMaxOf 7 r3 = 144056 := by
  decide +kernel

/-- The example of R217: a half-covering white fill over black, straight and premultiplied. -/
theorem test_blend_R217 :
    blendOne { layer0 with mode := 1 } 0 513 940 64 = 503 ∧ blendOne { layer0 with mode := 2 } 0 513 470 64 = 502 ∧ wt 512 = 513 ∧ wt 1023 = 1024 := by
  decide +kernel

/-- The scores of the example of R249: the third sample time is removed. -/
theorem test_drop_R249 :
    let x (a b : Int) : AudioFrame × Bool := ([BitVec.ofInt 24 a, BitVec.ofInt 24 b], false)
    let xs := List.replicate 30 (x 3000 3000) ++ [x 1200 (-900), x (-310) 410, x 95 (-140), x 640 (-700)] ++ List.replicate 15 (x 3000 3000)
    slipPoint 3 47 xs = 32 ∧ (slipped 3 xs).length = 48 := by decide +kernel

/-- The example of R273 and R278: the presentation count, the datagrams of a unit of 181 packets, and datagram 13 of 48 spread over 15 ms. -/
theorem test_schedule_R278 :
    count90k 1000131500000 = 90011835 ∧ datagramCount 2 (181 * 188) 0 = 26 ∧ { unit0 0 0 with span := 15000000, nDgrams := 48 }.at 13 = 4062500 := by
  decide +kernel

/-- The example of R302: a launch time 8 s ahead waits, one 600 s ahead reads as past. -/
theorem test_launch_times_R302 :
    (BitVec.ofNat 40 748288608 - BitVec.ofNat 40 1092259916384).toInt = 8000000000 ∧
    (BitVec.ofNat 40 (1092259916384 + 600000000000) - BitVec.ofNat 40 1092259916384).toInt = -499511627776 := by decide +kernel

/-- The example of R317: the ports and lanes of octets in modes 400G, 4 x 100G and 8 x 25G. -/
theorem test_ports_R317 :
    (portMap [1, 1, 1, 1, 3, 5]).length = 16 ∧ (portMap [1, 1, 1, 1, 3, 5])[5]? = some (3, 34, 2) ∧ (portMap [1, 1, 1, 1, 3, 5])[15]? = some (5, 47, 1) := by
  decide +kernel

/-- The example of R411: engine E42's fourth event is the third of window 2. -/
theorem test_windows_R411 :
    let w := fun (t : Raw) => windowOf State.reset 3 t
    let x1 := countInst 3 { inst0 with win := 0 } (w 149000000000)
    let x2 := countInst 3 x1.1 (w 150000000000)
    let x3 := countInst 3 x2.1 (w 170000000000)
    let x4 := countInst 3 x3.1 (w 224999999999)
    (w 149000000000, w 150000000000, w 224999999999) = (1, 2, 2) ∧ (x1.2, x2.2, x3.2, x4.2) = (false, false, false, true) := by decide +kernel

/-- The example of R427: the counters 254, 255, 0, 0 and 2 of a unit just reset by ALIVE_RESET. -/
theorem test_alive_R427 :
    let run := [254, 255, 0, 0, 2].foldl (fun (s : Option State) v =>
      s.bind (fun s => (after (.ckStart 2 1) s).bind (fun s => after (.ckFinish 2 2) (wr s (CK_ALIVE_IN 2) (wordOf v))))) (after (.ckAliveReset 2 4) (st [(CK_CTL 2, 0xD)]))
    run.map (fun s => ((rd s (CK_REPEAT_CNT 2)).toNat, (rd s (CK_JUMP_CNT 2)).toNat, (rd s (CK_MSG_CNT 2)).toNat)) = some (1, 1, 5) := by
  decide +kernel

end Sys2Proof.Tests
end

section
/-!
SUPPORT. Accesses to the registers of BAR0: what a write by access type leaves and changes, what a read latches, and which
offsets no wide value, command or RC field touches (R8 to R12).
-/
namespace Sys2Proof.Machine

variable {s t u : State}

/-! ### Registers left alone -/

@[simp] theorem regAt_addr (a : Nat) : (regAt a).addr = a := rfl

theorem sameElse_of_regs_eq (h : t.regs = s.regs) (offsets : List Nat) : sameElse s t offsets := fun r _ => rd_congr h r

theorem sameElse_trans {l l' : List Nat} (h : sameElse s t l) (h' : sameElse t u l') : sameElse s u (l ++ l') := by
  intro r hr
  rw [List.mem_append, not_or] at hr
  rw [h' r hr.2, h r hr.1]

theorem sameElse_wr (s : State) (r : Reg) (v : Word) : sameElse s (wr s r v) [r.addr] :=
  fun _ hr => rd_wr_ne s v (by simpa using hr)

theorem sameElse_keepStores {offsets : List Nat} (h : sameElse s t offsets) : sameElse s (keepStores s t) offsets := h

theorem keepsStores_keepStores (s t : State) : keepsStores s (keepStores s t) := ⟨rfl, rfl, rfl, rfl, rfl, rfl⟩

theorem keepStores_self (s : State) : keepStores s s = s := rfl

/-! ### Writes by access type (R8, R9, R13) -/

theorem wordOf_getLsbD (n i : Nat) (hi : i < 32) : (wordOf n).getLsbD i = n.testBit i := by
  rw [wordOf, BitVec.getLsbD_ofNat]
  simp [hi]

/-- A bit after a write, by the type of its field. -/
theorem writtenValue_getLsbD (r : RegRow) (old v : Word) (i : Nat) (hi : i < 32) :
    (writtenValue r old v).getLsbD i =
      if r.w1s.testBit i && v.getLsbD i then true
      else if r.w1c.testBit i && v.getLsbD i then false
      else if r.rw.testBit i || r.rwf.testBit i then v.getLsbD i
      else old.getLsbD i := by
  simp only [writtenValue, BitVec.getLsbD_or, BitVec.getLsbD_and, BitVec.getLsbD_not, wordOf_getLsbD _ _ hi, Nat.testBit_or,
    hi, decide_true, Bool.true_and]
  cases r.w1s.testBit i <;> cases r.w1c.testBit i <;> cases v.getLsbD i <;> cases (r.rw.testBit i || r.rwf.testBit i) <;> simp

/-- What a late write notes of a channel is no register, value in force or stage, and no other channel's. -/
theorem noteLate_eq (s : State) (n a : Nat) (old : Option Word) : noteLate s n a old = s ∨ ∃ f, noteLate s n a old = modChan s n f := by
  unfold noteLate
  split
  · exact .inr ⟨_, rfl⟩
  · exact .inl rfl

/-- Of the parts of the state a late HOLD or ARM changes one channel's. `noteHold` is unfolded as a function of any offset: applied to
one, its kernel check would count down from the base of the channel blocks. -/
theorem noteHold_eq (s : State) (a : Nat) : noteHold s a = s ∨ ∃ n f, noteHold s a = modChan s n f := by
  suffices h : ∀ note, note = noteHold → note s a = s ∨ ∃ n f, note s a = modChan s n f from h _ rfl
  intro note hnote
  delta noteHold at hnote
  subst hnote
  dsimp only
  generalize instAt CH_COMMIT 0x10000 16 a = commit, instAt CH_DUMP_CTL 0x10000 16 a = dump
  match commit, dump with
  | some n, _ => exact (noteLate_eq s n a _).imp_right fun ⟨f, h⟩ => ⟨n, f, h⟩
  | none, some n => exact (noteLate_eq s n a _).imp_right fun ⟨f, h⟩ => ⟨n, f, h⟩
  | none, none => exact .inl rfl

@[simp] theorem noteHold_regs (s : State) (a : Nat) : (noteHold s a).regs = s.regs := by
  obtain h | ⟨n, f, h⟩ := noteHold_eq s a <;> simp [h]

@[simp] theorem noteHold_stages (s : State) (a : Nat) : (noteHold s a).stages = s.stages := by
  obtain h | ⟨n, f, h⟩ := noteHold_eq s a <;> simp [h]

@[simp] theorem noteLate_regs (s : State) (n a : Nat) (old : Option Word) : (noteLate s n a old).regs = s.regs := by
  obtain h | ⟨f, h⟩ := noteLate_eq s n a old <;> simp [h]

@[simp] theorem noteLate_force (s : State) (n a : Nat) (old : Option Word) : (noteLate s n a old).force = s.force := by
  obtain h | ⟨f, h⟩ := noteLate_eq s n a old <;> simp [h]

@[simp] theorem noteLate_chans_length (s : State) (n a : Nat) (old : Option Word) :
    (noteLate s n a old).chans.length = s.chans.length := by
  obtain h | ⟨f, h⟩ := noteLate_eq s n a old <;> simp [h, modChan]

theorem chan_modChan_self {n : Nat} (f : Chan → Chan) (h : n < s.chans.length) : chan (modChan s n f) n = f (chan s n) := by
  simp [chan, modChan, h]

theorem chan_modChan_ne {n k : Nat} (f : Chan → Chan) (h : k ≠ n) : chan (modChan s n f) k = chan s k := by
  simp [chan, modChan, List.getD_eq_getElem?_getD, h.symm]

theorem chan_noteLate_ne {n k a : Nat} (old : Option Word) (h : k ≠ n) : chan (noteLate s n a old) k = chan s k := by
  obtain e | ⟨f, e⟩ := noteLate_eq s n a old <;> rw [e]
  exact chan_modChan_ne f h

/-- The registers after a write by access type: the one at the offset alone takes its written value (R8). -/
theorem maskedWrite_regs {a : Nat} {row : RegRow} (h : rowAt a = some row) (v : Word) :
    (maskedWrite s a v).regs = (wr s (regAt a) (writtenValue row (rd s (regAt a)) v)).regs := by
  simp only [maskedWrite, h]
  split
  · simp [wr]
  · split
    · rfl
    · simp [wr, modChan]

theorem rd_maskedWrite_self {a : Nat} {row : RegRow} (h : rowAt a = some row) (v : Word) :
    rd (maskedWrite s a v) (regAt a) = writtenValue row (rd s (regAt a)) v := by
  rw [rd_congr (maskedWrite_regs h v), rd_wr_self]

theorem sameElse_maskedWrite {a : Nat} {row : RegRow} (h : rowAt a = some row) (v : Word) : sameElse s (maskedWrite s a v) [a] := by
  intro r hr
  rw [rd_congr (maskedWrite_regs h v)]
  exact sameElse_wr s (regAt a) _ r hr

theorem maskedWrite_reserved {a : Nat} (h : rowAt a = none) (v : Word) : maskedWrite s a v = s := by
  simp only [maskedWrite, h]

/-- A write of a register without RWF fields stages nothing. -/
theorem maskedWrite_stages {a : Nat} {row : RegRow} (h : rowAt a = some row) (hf : row.rwf = 0) (v : Word) :
    (maskedWrite s a v).stages = s.stages := by
  simp only [maskedWrite, h, if_pos hf]
  rw [wr_stages, noteHold_stages]

/-- An entry added to a list where it does not stand yet is in it. -/
theorem mem_addOnce (l : List Nat) (a : Nat) : a ∈ if l.contains a then l else l ++ [a] := by
  split
  · next h => simpa using h
  · simp

/-- A write of an RWF register changes no value in force, and of the channels its owner alone, where it is pending (R13). -/
theorem maskedWrite_rwf {a n : Nat} {row : RegRow} (h : rowAt a = some row) (hf : row.rwf ≠ 0) (ho : rwfOwner s a = some n)
    (hn : n < s.chans.length) (v : Word) :
    (maskedWrite s a v).force = s.force ∧ a ∈ (chan (maskedWrite s a v) n).dirty ∧
      ∀ k ≠ n, chan (maskedWrite s a v) k = chan s k := by
  simp only [maskedWrite, h, hf, ho, if_false]
  refine ⟨by simp, ?_, fun k hk => ?_⟩
  · rw [chan_modChan_self _ (by simpa using hn)]
    exact mem_addOnce _ a
  · rw [chan_modChan_ne _ hk]
    exact chan_noteLate_ne _ hk

/-- A write that is no command, of a register that no target shows, does what the register's place says. -/
theorem writeAccess_eq_plainWrite {m : Master} {a : Nat} {v : Word} (hmirror : mirrorOf a = none) (hirq : irqRange a = false)
    (hl : writeCommandLow s m a v = none) (hh : writeCommandHigh s a v = none) (hc : writeCk s a v = none)
    (hs : writeSpecial s m a v = none) : writeAccess s m a v = plainWrite s m a v := by
  simp only [writeAccess, hmirror, hl, hh, hc, hs, hirq, onlyIf, Bool.false_eq_true, if_false]

theorem writeAccess_plain {a : Nat} (h : plainRegister a) (m : Master) (v : Word) : writeAccess s m a v = maskedWrite s a v := by
  obtain ⟨-, -, hmirror, hwide, hirq, -, hcmd⟩ := h
  obtain ⟨hl, hh, hc, hs⟩ := hcmd s m v
  rw [writeAccess_eq_plainWrite hmirror hirq hl hh hc hs]
  simp only [plainWrite, hwide]

/-- A mirror takes no write (R12). -/
theorem writeAccess_mirror {a b : Nat} (h : mirrorOf a = some b) (m : Master) (v : Word) : writeAccess s m a v = s := by
  simp [writeAccess, h]

theorem setInCycle_mirror {a b : Nat} (h : mirrorOf a = some b) (v hw : Word) : setInCycle s a v hw = s := by
  simp [setInCycle, h]

theorem setInCycle_reserved {a : Nat} (h : rowAt a = none) (v hw : Word) : setInCycle s a v hw = s := by
  unfold setInCycle
  split
  · simp_all
  · rfl

theorem sameElse_setInCycle (s : State) (a : Nat) (v hw : Word) : sameElse s (setInCycle s a v hw) [a] := by
  unfold setInCycle
  split
  · split
    · exact sameElse_of_regs_eq rfl _
    · exact sameElse_wr s (regAt a) _
  · exact sameElse_of_regs_eq rfl _

/-- Hardware sets a W1C bit in the cycle of the write that clears it, and it ends set (R9). -/
theorem setInCycle_getLsbD {a : Nat} {row : RegRow} (hm : mirrorOf a = none) (h : rowAt a = some row) (v hw : Word) (i : Nat)
    (hi : i < 32) :
    (rd (setInCycle s a v hw) (regAt a)).getLsbD i =
      ((rd s (regAt a)).getLsbD i || (row.w1c.testBit i && v.getLsbD i && hw.getLsbD i)) := by
  simp only [setInCycle, hm, h]
  split
  · simp [*]
  · simp only [rd_wr_self, BitVec.getLsbD_or, BitVec.getLsbD_and, wordOf_getLsbD _ _ hi]
    cases row.w1c.testBit i <;> simp

/-- An aligned REGISTER_WRITE of a running device, but one of ATT_CMD. -/
theorem exec_registerWrite {a : Nat} (hr : runs s) (hb : inBar0 a = true) (ha : a % 4 = 0) (hq : a ≠ IMG_ATT_CMD.addr) (m : Master)
    (v hw : Word) :
    exec (.registerWrite m a v hw) s = .next (keepStores s (setInCycle (writeAccess s m a v) a v hw)) := by
  show execRegisterWrite m a v hw s = _
  rw [execRegisterWrite, if_neg hq, hb, act_run hr, if_pos ha]

/-- A REGISTER_WRITE of a plain register is a write by access type, with what hardware sets in the same cycle. -/
theorem exec_registerWrite_plain {a : Nat} (hr : runs s) (hp : plainRegister a) (m : Master) (v hw : Word) :
    exec (.registerWrite m a v hw) s = .next (keepStores s (setInCycle (maskedWrite s a v) a v hw)) := by
  have ⟨hb, ha, _, _, _, hq, _⟩ := hp
  rw [exec_registerWrite hr (decide_eq_true hb) ha hq, writeAccess_plain hp]

theorem exec_rwfWrite_plain {a : Nat} (hr : runs s) (hp : plainRegister a) (m : Master) (v : Word) :
    exec (.rwfWrite m a v) s = .next (keepStores s (maskedWrite s a v)) := by
  have ⟨hb, ha, _⟩ := hp
  show execRwfWrite m a v s = _
  rw [execRwfWrite, show inBar0 a = true from decide_eq_true hb, act_run hr, if_pos ha, writeAccess_plain hp]

/-! ### Reads (R11, R12) -/

theorem mirrorOf_channel {n x : Nat} (hn : n < 16) (hx : x < 0x8000) :
    mirrorOf (0x400000 + n * 0x10000 + 0x8000 + x) = some (0x400000 + n * 0x10000 + 0x8000 + x - 0x8000) := by
  have h1 : 0x400000 ≤ 0x400000 + n * 0x10000 + 0x8000 + x := by omega
  have h2 : 0x400000 + n * 0x10000 + 0x8000 + x < 0x500000 := by omega
  have h3 : ¬ (0x400000 + n * 0x10000 + 0x8000 + x - 0x400000) % 0x10000 < 0x8000 := by omega
  simp only [mirrorOf, h1, h2, h3, decide_true, Bool.and_self, if_true, if_false]

/-- No register of an indexed name stands at the offset. -/
theorem instAt_eq_none {r : Nat → Reg} {st n a : Nat} (h : ∀ i < n, (r i).addr ≠ a) : instAt r st n a = none := by
  unfold instAt
  simp only
  split
  · rename_i hi
    simp only [Bool.and_eq_true, decide_eq_true_eq] at hi
    exact absurd hi.2 (h _ hi.1)
  · rfl

/-- No read of a channel's block is a command of its own: those of other blocks are. -/
theorem readCommand_channel {a : Nat} (h : 0x400000 ≤ a) (s : State) (m : Master) : readCommand s m a = none := by
  have hsnap : a ≠ TIM_SNAP_RAW_LO.addr := by simp only [TIM_SNAP_RAW_LO]; omega
  have htxts : instAt TXP_TXTS_W0 0x40 24 a = none := instAt_eq_none fun i hi => by simp only [TXP_TXTS_W0]; omega
  have hclaim : instAt TGT_CLAIM 0x40 8 a = none := instAt_eq_none fun i hi => by simp only [TGT_CLAIM]; omega
  have hcoef : instAt SCL_COEF_DATA 0x4000 48 a = none := instAt_eq_none fun i hi => by simp only [SCL_COEF_DATA]; omega
  simp only [readCommand, if_neg hsnap, htxts, hclaim, hcoef]

/-- A wide value whose words all lie below an offset. -/
def WideRow.endsBy (r : WideRow) (b : Nat) : Bool :=
  match r.dims with
  | [] => r.base + 4 * r.n ≤ b
  | (c, st) :: _ => 0 < st && r.base + 4 * r.n + c * st ≤ b

/-- A wide value of the channel blocks whose words lie in the lower half of each block, where no mirror is. -/
def WideRow.inLowerHalves (r : WideRow) : Bool :=
  r.dims = [(16, 0x10000)] && 0x400000 ≤ r.base && r.base + 4 * r.n ≤ 0x408000

/-- Every wide value lies below the channel blocks, in their lower halves or above them. -/
theorem wideRows_off_mirrors :
    ∀ r ∈ wideRows, r.endsBy 0x400000 = true ∨ r.inLowerHalves = true ∨ 0x500000 ≤ r.base := by decide

/-- No word of a wide value lies in the mirror of a channel's block. -/
theorem wideAt_channel_mirror {a : Nat} (h : 0x400000 ≤ a) (h' : a < 0x500000) (hm : 0x8000 ≤ a % 0x10000) : wideAt a = none := by
  simp only [wideAt, List.findSome?_eq_none_iff, Option.map_eq_none_iff, List.find?_eq_none, List.mem_range, Bool.and_eq_true,
    decide_eq_true_eq, not_and]
  intro r hr k hk hle hit
  obtain hends | hlow | habove := wideRows_off_mirrors r hr
  · unfold WideRow.endsBy at hends
    split at hends
    · next hd =>
      simp only [hd, dimsHit, beq_iff_eq, decide_eq_true_eq] at hit hends
      omega
    · next c st rest hd =>
      simp only [hd, dimsHit, Bool.and_eq_true, decide_eq_true_eq] at hit hends
      have := (Nat.div_lt_iff_lt_mul hends.1).mp hit.1
      omega
  · simp only [WideRow.inLowerHalves, Bool.and_eq_true, decide_eq_true_eq] at hlow
    simp only [hlow.1.1, dimsHit, Bool.and_eq_true, decide_eq_true_eq, beq_iff_eq] at hit
    omega
  · omega

theorem forall_mem_ite {α : Type} {p : α → Prop} {c : Prop} [Decidable c] {l l' : List α} (h : ∀ x ∈ l, p x) (h' : ∀ x ∈ l', p x) :
    ∀ x ∈ (if c then l else l'), p x := by
  by_cases hc : c
  · rwa [if_pos hc]
  · rwa [if_neg hc]

/-- The maps give no register a field of type RC (R8). -/
theorem rowsNear_rc (a : Nat) : ∀ r ∈ rowsNear a, r.rc = 0 := by
  unfold rowsNear
  repeat' refine forall_mem_ite ?_ ?_
  all_goals decide +kernel

theorem rowAt_rc {a : Nat} {row : RegRow} (h : rowAt a = some row) : row.rc = 0 := by
  obtain ⟨r, hr, rfl⟩ := Option.map_eq_some_iff.1 h
  simp [RegRow.only, rowsNear_rc a r (List.mem_of_find?_eq_some hr)]

/-- So no read clears a register (R9). -/
theorem clearOnRead_eq (s : State) (a : Nat) (inc : Bool) : clearOnRead s a inc = s := by
  unfold clearOnRead
  split
  · rfl
  · next h => rw [if_pos (rowAt_rc h)]

theorem readAccess_narrow {m : Master} {a : Nat} (hc : readCommand s m a = none) (hw : wideAt a = none) :
    readAccess s m a = emit s (.read m (readBy s m a)) := by
  simp only [readAccess, hc, hw]

/-- An aligned RC_COUNTER_READ, of an offset whose read is no command and latches nothing, is that read. -/
theorem exec_rcCounterRead {m : Master} {a : Nat} (hr : runs s) (hb : inBar0 a = true) (ha : a % 4 = 0)
    (hc : readCommand s m a = none) (hw : wideAt a = none) (inc : Bool) :
    exec (.rcCounterRead m a inc) s = .next (keepStores s (emit s (.read m (readBy s m a)))) := by
  show execRcCounterRead m a inc s = _
  rw [execRcCounterRead, hb, act_run hr, if_pos ha, clearOnRead_eq, readAccess_narrow hc hw]

section
variable (s : State) (m : Master) (r : Reg) (v : Word)

theorem rdFld_latch (r' : Reg) (hi lo : Nat) : rdFld (latch s m r v) r' hi lo = rdFld s r' hi lo :=
  congrArg (fld · hi lo) (rd_congr rfl r')

theorem trimStore_latch : trimStore (latch s m r v) = trimStore s := by
  unfold trimStore
  have hc (k : Nat) : currentCopy (latch s m r v) k = currentCopy s k := rfl
  rw [rdFld_latch, rdFld_latch]
  generalize rdFld s CAL_TRIM_SEL 9 0 = i, rdFld s CAL_TRIM_SEL 14 12 = k
  dsimp only
  rw [hc]
  generalize currentCopy s k = copy
  cases copy <;> rfl

theorem readImg_latch (a : Nat) : readImg (latch s m r v) a = readImg s a := by
  unfold readImg
  generalize instAt IMG_DEV_PUB 4 15 a = key, instAt IMG_LOG_WIN 4 16 a = log
  cases key <;> cases log <;> rfl

theorem readGoose_latch (a : Nat) : readGoose (latch s m r v) a = readGoose s a := by
  unfold readGoose
  generalize instAt GOOSE_LEDGER_WIN 4 8 a = win
  cases win <;> rfl

theorem readHeld_latch (a : Nat) : readHeld (latch s m r v) a = readHeld s a := by
  unfold readHeld
  rw [readImg_latch, trimStore_latch, readGoose_latch]
  generalize instAt CAL_PEND_CNT 0x20 7 a = pend, instAt SCL_BANK_USE 0x4000 48 a = bank, instAt ENG_BUSY_LO 0x100 128 a = lo,
    instAt ENG_BUSY_HI 0x100 128 a = hi
  cases pend <;> cases bank <;> cases lo <;> cases hi <;> rfl

/-- What a register shows rests on no latch. -/
theorem readReg_latch (a : Nat) : readReg (latch s m r v) a = readReg s a := by
  unfold readReg
  rw [readHeld_latch]
  rfl

end

theorem readReg_mirror {a b : Nat} (h : mirrorOf a = some b) (s : State) : readReg s a = forceAt s b &&& rwfMask b := by
  simp only [readReg, h]

/-- A read of a channel's block that no wide value holds returns what the register shows. -/
theorem readBy_channel {a : Nat} (h : 0x400000 ≤ a) (hw : wideAt a = none) (s : State) (m : Master) : readBy s m a = readReg s a := by
  have hrate : ¬ a ≤ TIM_ADJ_RATE_HI.addr := by simp only [TIM_ADJ_RATE_HI]; omega
  have hsnap : ¬ a ≤ TIM_SNAP_SEC_HI.addr := by simp only [TIM_SNAP_SEC_HI]; omega
  have htxts : ¬ a < 0x40A00 := by omega
  simp only [readBy, hw, ownReg, hrate, hsnap, htxts, decide_false, Bool.and_false, Bool.or_self, Bool.false_eq_true, if_false]

/-- An access of another size or alignment, which a running device counts (R7). -/
theorem exec_badSizeAccess (hr : runs s) (isRead : Bool) :
    exec (.badSizeAccess isRead) s =
      .next (keepStores s (if isRead then emit (badAccess s) (.read .host (BitVec.allOnes 32)) else badAccess s)) := by
  show execBadSizeAccess isRead s = _
  rw [execBadSizeAccess, act_run hr]

/-! ### Wide values (R11) -/

theorem mem_drop_range {k n : Nat} : k ∈ (List.range n).drop 1 ↔ 0 < k ∧ k < n := by
  simp [List.range_eq_range', List.mem_range'_1]
  omega

theorem plainWrite_lowest {m : Master} {a n : Nat} {r : RegRow} (hw : wideAt a = some (a, 0, n)) (hrow : rowAt a = some r)
    (hrw : r.rw ≠ 0) (v : Word) : plainWrite s m a v = commitWide s m a n v := by
  simp only [plainWrite, hw, hrow, Option.map_some, Option.getD_some, if_neg hrw, if_true]

theorem plainWrite_higher {m : Master} {a low k n : Nat} {r : RegRow} (hw : wideAt a = some (low, k, n)) (hk : k ≠ 0)
    (hrow : rowAt low = some r) (hrw : r.rw ≠ 0) (v : Word) :
    plainWrite s m a v = { s with stages := mput s.stages (latchKey m (regAt a)) v } := by
  simp only [plainWrite, hw, hrow, Option.map_some, Option.getD_some, if_neg hrw, if_neg hk]

theorem exec_lowWordRead {a : Nat} (hr : runs s) (hb : inBar0 a = true) (ha : a % 4 = 0) (m : Master) :
    exec (.lowWordRead m a) s = .next (keepStores s (readAccess s m a)) := by
  show execLowWordRead m a s = _
  rw [execLowWordRead, hb, act_run hr, if_pos ha]

theorem exec_lowWordWrite {a : Nat} (hr : runs s) (hb : inBar0 a = true) (ha : a % 4 = 0) (m : Master) (v : Word) :
    exec (.lowWordWrite m a v) s = .next (keepStores s (writeAccess s m a v)) := by
  show execLowWordWrite m a v s = _
  rw [execLowWordWrite, hb, act_run hr, if_pos ha]

/-- A master's latches of two registers lie apart where their offsets do. -/
theorem latchKey_ne (m : Master) {r r' : Reg} (h : r.addr ≠ r'.addr) : latchKey m r ≠ latchKey m r' := by
  unfold latchKey
  omega

theorem index_injective {m m' : Master} (h : m.index = m'.index) : m = m' := by
  revert h
  cases m <;> cases m' <;> decide

/-- Latches of two masters lie apart: BAR0 ends at 0x2000000 (R44). -/
theorem latchKey_ne_of_master {m m' : Master} (h : m' ≠ m) {r r' : Reg} (hr : r.addr < 0x2000000) (hr' : r'.addr < 0x2000000) :
    latchKey m' r ≠ latchKey m r' := by
  have := mt index_injective h
  unfold latchKey
  omega

/-- Words of a shared wide value latched for a master, in order. -/
def latchShown (s : State) (m : Master) (a : Nat) (ks : List Nat) : State :=
  ks.foldl (fun s k => latch s m (regAt (a + 4 * k)) (readReg s (a + 4 * k))) s

theorem latchWide_eq_latchShown {a : Nat} (h : ownReg a = false) (s : State) (m : Master) (n : Nat) :
    latchWide s m a n = latchShown s m a ((List.range n).drop 1) := by
  simp only [latchWide, forEach, latchShown, h, Bool.false_eq_true, if_false]

theorem latchShown_cons (s : State) (m : Master) (a k : Nat) (ks : List Nat) :
    latchShown s m a (k :: ks) = latchShown (latch s m (regAt (a + 4 * k)) (readReg s (a + 4 * k))) m a ks := rfl

/-- Latching changes the latches alone. -/
theorem latchShown_eq (s : State) (m : Master) (a : Nat) (ks : List Nat) :
    latchShown s m a ks = { s with latches := (latchShown s m a ks).latches } := by
  induction ks generalizing s with
  | nil => rfl
  | cons k ks ih =>
    rw [latchShown_cons]
    exact ih _

/-- Every other latch stays. -/
theorem mget_latchShown_other {m : Master} {a key : Nat} {ks : List Nat} (h : ∀ k ∈ ks, key ≠ latchKey m (regAt (a + 4 * k))) :
    mget (latchShown s m a ks).latches key = mget s.latches key := by
  induction ks generalizing s with
  | nil => rfl
  | cons k ks ih =>
    rw [latchShown_cons, ih fun k' hk' => h k' (List.mem_cons_of_mem _ hk')]
    exact mget_mput_ne _ _ (h k List.mem_cons_self)

/-- Each word is latched as the register shows it. -/
theorem mget_latchShown_mem {m : Master} {a k : Nat} {ks : List Nat} (hk : k ∈ ks) :
    mget (latchShown s m a ks).latches (latchKey m (regAt (a + 4 * k))) = some (readReg s (a + 4 * k)) := by
  induction ks generalizing s with
  | nil => cases hk
  | cons j ks ih =>
    rw [latchShown_cons]
    by_cases hmem : k ∈ ks
    · rw [ih hmem, readReg_latch]
    · obtain rfl : k = j := (List.mem_cons.mp hk).resolve_right hmem
      have hne : ∀ i ∈ ks, latchKey m (regAt (a + 4 * k)) ≠ latchKey m (regAt (a + 4 * i)) := fun i hi =>
        latchKey_ne m (by
          have : i ≠ k := fun e => hmem (e ▸ hi)
          simp only [regAt_addr]
          omega)
      rw [mget_latchShown_other hne]
      exact mget_mput_self ..

theorem readBy_lowest {a b n : Nat} (hw : wideAt a = some (b, 0, n)) (ho : ownReg a = false) (s : State) (m : Master) :
    readBy s m a = readReg s a := by
  simp only [readBy, hw, ho, Bool.false_eq_true, if_true, if_false]

theorem readBy_latched {m : Master} {a b k n : Nat} {w : Word} (hw : wideAt a = some (b, k, n)) (hk : k ≠ 0)
    (hl : mget s.latches (latchKey m (regAt a)) = some w) : readBy s m a = w := by
  simp only [readBy, hw, if_neg hk, hl, Option.getD_some]

theorem readAccess_lowest {m : Master} {a b n : Nat} (hc : readCommand s m a = none) (hw : wideAt a = some (b, 0, n))
    (ho : ownReg a = false) :
    readAccess s m a = emit (latchShown s m a ((List.range n).drop 1)) (.read m (readReg s a)) := by
  simp only [readAccess, hc, hw]
  rw [latchWide_eq_latchShown ho, readBy_lowest hw ho]

/-- A write to the lowest of two plain words commits the staged higher one with it. -/
theorem commitWide_two {m : Master} {a : Nat} {h : Word} (ho : ownReg a = false) (ho' : ownReg (a + 4) = false)
    (hq : instAt Q_BASE_LO 0x40 32768 a = none) (hst : mget s.stages (latchKey m (regAt (a + 4))) = some h) (v : Word) :
    commitWide s m a 2 v =
      maskedWrite (maskedWrite { s with stages := mdel s.stages (latchKey m (regAt (a + 4))) } a v) (a + 4) h := by
  have hword : stagedWord s m (a + 4) = h := by simp only [stagedWord, hst, Option.getD_some]
  have hks : (List.range 2).drop 1 = [1] := rfl
  simp only [commitWide, hq, hks, if_true, List.map_cons, List.map_nil, List.foldl_cons, List.foldl_nil, Nat.mul_one, hword, forEach,
    List.zipIdx_cons, List.zipIdx_nil, commitWord, ho, ho', Nat.mul_zero, Nat.add_zero, Nat.zero_add, Bool.false_eq_true, if_false]

end Sys2Proof.Machine
end

section
/-!
The statements about accesses to the registers (spec/00_scope.md).
-/
open Sys2Proof Sys2Proof.Machine

/-- Settles O4: each clause runs one access, then reads the register bit by bit through `writtenValue`. -/
theorem registerWriteByType : Obligations.RegisterWriteByType := by
  refine ⟨⟨fun m a v hw s row hr hp hrow => ?_, fun m a v hw s hr hp hrow => ?_⟩, fun m a n v s row hr hp hrow hf ho hn => ?_⟩
  · have ⟨_, _, hmirror, _⟩ := hp
    refine ⟨_, exec_registerWrite_plain hr hp m v hw, sameElse_keepStores ?_, keepsStores_keepStores .., fun i hi => ?_⟩
    · exact fun r h => (sameElse_setInCycle _ a v hw r h).trans (sameElse_maskedWrite hrow v r h)
    · rw [rd_keepStores, setInCycle_getLsbD hmirror hrow v hw i hi, rd_maskedWrite_self hrow, writtenValue_getLsbD _ _ _ _ hi]
      cases row.w1s.testBit i <;> cases row.w1c.testBit i <;> cases v.getLsbD i <;> simp
  · refine ⟨_, exec_registerWrite_plain hr hp m v hw, sameElse_keepStores ?_, keepsStores_keepStores ..⟩
    rw [setInCycle_reserved hrow, maskedWrite_reserved hrow]
    exact sameElse_of_regs_eq rfl _
  · obtain ⟨hforce, hdirty, hother⟩ := maskedWrite_rwf hrow hf ho hn v
    refine ⟨_, exec_rwfWrite_plain hr hp m v, hforce, hdirty, sameElse_keepStores (sameElse_maskedWrite hrow v),
      keepsStores_keepStores .., hother, fun i hi hrwf hw1c hw1s => ?_⟩
    rw [rd_keepStores, rd_maskedWrite_self hrow, writtenValue_getLsbD _ _ _ _ hi]
    simp [hrwf, hw1c, hw1s]

/-- Settles O5: a mirror is no register, so a write there meets nothing; no wide value lies in one, and no register has a field of
type RC, so an RC_COUNTER_READ is a read and nothing else. -/
theorem mirrorsAndReadClearCounters : Obligations.MirrorsAndReadClearCounters := by
  refine ⟨fun m n x v hw s hr hn hx hx4 => ?_, fun m a inc s row hr hb ha hc hwide hrow => ?_, fun m a inc s hr hb ha hc hwide hrow => ?_⟩
  · intro a
    have hmirror : mirrorOf a = some (a - 0x8000) := mirrorOf_channel hn hx
    have hlow : 0x400000 ≤ a := by omega
    have hbar : inBar0 a = true := by simp only [inBar0, decide_eq_true_eq]; omega
    have ha4 : a % 4 = 0 := by omega
    have hcmd := readCommand_channel hlow s m
    have hwide : wideAt a = none := wideAt_channel_mirror hlow (by omega) (by omega)
    have hread : readReg s a = forceAt s (a - 0x8000) &&& rwfMask (a - 0x8000) := readReg_mirror hmirror s
    refine ⟨hread, fun h0 => by simp [hread, h0], ⟨_, exec_rcCounterRead hr hbar ha4 hcmd hwide false, ?_⟩, s, ?_, rfl⟩
    · rw [readBy_channel hlow hwide]
      exact ⟨rfl, rfl, keepsStores_keepStores ..⟩
    · have hatt : a ≠ IMG_ATT_CMD.addr := by simp only [IMG_ATT_CMD]; omega
      rw [exec_registerWrite hr hbar ha4 hatt, writeAccess_mirror hmirror, setInCycle_mirror hmirror, keepStores_self]
  · refine ⟨_, exec_rcCounterRead hr hb ha hc hwide inc, rfl, sameElse_of_regs_eq rfl _, keepsStores_keepStores .., ?_⟩
    rw [if_pos (rowAt_rc hrow)]
    rfl
  · exact ⟨_, exec_rcCounterRead hr hb ha hc hwide inc, rfl, sameElse_of_regs_eq rfl _, keepsStores_keepStores ..⟩

/-- Settles O6: a read latches every higher word as shown, under keys of its master alone; a write to the lowest word is two writes by
access type, one to the higher word only stages it. -/
theorem wideValuesLatchAndCommit : Obligations.WideValuesLatchAndCommit := by
  refine ⟨fun m a n s hr hb ha hwide hown hwords hc => ?_,
    fun m a v h s r0 r1 hr hb ha hwide hmirror hown hirq hq hl hh hck hsp hrow0 hrow1 hrw hf0 hf1 hown' hst => ?_,
    fun m a v s r0 hr hb ha hwide hmirror hirq hl hh hck hsp hrow0 hrw => ?_⟩
  · have hregs := congrArg State.regs (latchShown_eq s m a ((List.range n).drop 1))
    have hout := congrArg State.out (latchShown_eq s m a ((List.range n).drop 1))
    refine ⟨_, exec_lowWordRead hr hb ha m, ?_⟩
    rw [readAccess_lowest hc hwide hown]
    refine ⟨congrArg _ hout, hregs, keepsStores_keepStores .., fun k hk hkn u hu => ?_, fun m' hm hend r hr' => ?_⟩
    · exact readBy_latched (hwords k hkn).2 (Nat.ne_of_gt hk) (by rw [hu]; exact mget_latchShown_mem (mem_drop_range.2 ⟨hk, hkn⟩))
    · refine mget_latchShown_other fun k hk => latchKey_ne_of_master hm hr' ?_
      have := (mem_drop_range.1 hk).2
      simp only [regAt_addr]
      omega
  · have hwrite : writeAccess s m a v =
        maskedWrite (maskedWrite { s with stages := mdel s.stages (latchKey m (regAt (a + 4))) } a v) (a + 4) h := by
      rw [writeAccess_eq_plainWrite hmirror hirq hl hh hck hsp, plainWrite_lowest hwide hrow0 hrw, commitWide_two hown hown' hq hst]
    refine ⟨_, exec_lowWordWrite hr hb ha m v, ?_⟩
    rw [hwrite]
    have h1 := sameElse_maskedWrite (s := { s with stages := mdel s.stages (latchKey m (regAt (a + 4))) }) hrow0 v
    have h2 := fun u => sameElse_maskedWrite (s := u) hrow1 h
    refine ⟨?_, ?_, ?_, sameElse_keepStores (sameElse_trans h1 (h2 _)), keepsStores_keepStores ..⟩
    · rw [rd_keepStores, h2 _ (regAt a) (by simp), rd_maskedWrite_self hrow0]
      rfl
    · rw [rd_keepStores, rd_maskedWrite_self hrow1, h1 (regAt (a + 4)) (by simp)]
      rfl
    · rw [keepStores_stages, maskedWrite_stages hrow1 hf1, maskedWrite_stages hrow0 hf0]
      exact mget_mdel_self ..
  · refine ⟨_, exec_lowWordWrite hr hb (by omega) m v, ?_⟩
    rw [writeAccess_eq_plainWrite hmirror hirq hl hh hck hsp, plainWrite_higher hwide Nat.one_ne_zero hrow0 hrw]
    exact ⟨rfl, mget_mput_self .., keepsStores_keepStores ..⟩

/-- Settles O7: the access counts once and changes nothing else. -/
theorem badSizeAccessChangesNothing : Obligations.BadSizeAccessChangesNothing := by
  intro isRead s hr
  have hcount : sameElse s (badAccess s) [HOST_BAD_ACC.addr] := sameElse_wr s HOST_BAD_ACC _
  refine ⟨_, exec_badSizeAccess hr isRead, ?_⟩
  cases isRead <;> exact ⟨rd_count_self s HOST_BAD_ACC, hcount, keepsStores_keepStores .., rfl⟩

/-- Refutes O59: a TXTS_READ of port 24 passes for a command the device takes, as `Instr.wf` puts no bound on its port, and its
meaning refuses every port from 24 on (R307). -/
theorem not_everyCommandTheDeviceTakesAnswers : ¬ Obligations.EveryCommandTheDeviceTakesAnswers := by
  rintro ⟨hanswers, -, -⟩
  have htakes : takes State.reset (.txtsRead .host 24) := ⟨rfl, nofun⟩
  have hrefused : exec (.txtsRead .host 24) State.reset = .refused .noSuchUnit := rfl
  obtain ⟨t, ht⟩ := hanswers _ _ htakes
  rw [hrefused] at ht
  cases ht
end

section
/-!
SUPPORT. The fields of a word, the state of an engine, and what a parity event, a CHECK, a cluster's start and a signature test write
(R153, R156, R159, R164, R456).
-/
namespace Sys2Proof.Machine

variable {s t u : State}

/-! ### Fields of a word -/

theorem fld_testBit (v : Word) (hi lo i : Nat) : (fld v hi lo).testBit i = (decide (i < hi + 1 - lo) && v.getLsbD (lo + i)) := by
  rw [fld, Nat.testBit_mod_two_pow, Nat.testBit_shiftRight, BitVec.testBit_toNat]

theorem setFld_getLsbD (v : Word) (hi lo x : Nat) {i : Nat} (hi32 : i < 32) :
    (setFld v hi lo x).getLsbD i = if lo ≤ i ∧ i < hi + 1 then x.testBit (i - lo) else v.getLsbD i := by
  simp only [setFld, BitVec.getLsbD_or, BitVec.getLsbD_and, BitVec.getLsbD_not, BitVec.getLsbD_ofNat, Nat.testBit_shiftLeft,
    Nat.testBit_two_pow_sub_one, hi32, decide_true, Bool.true_and]
  by_cases hlo : lo ≤ i <;> by_cases hhi : i < hi + 1
  · have : i - lo < hi + 1 - lo := by omega
    simp [hlo, hhi, this]
  · have : ¬ i - lo < hi + 1 - lo := by omega
    simp [hhi, this]
  · simp [hlo]
  · simp [hlo]

/-- A field reads what was put into it. -/
theorem fld_setFld_self (v : Word) {hi lo x : Nat} (hhi : hi < 32) (hx : x < 2 ^ (hi + 1 - lo)) : fld (setFld v hi lo x) hi lo = x := by
  apply Nat.eq_of_testBit_eq
  intro i
  rw [fld_testBit]
  by_cases hw : i < hi + 1 - lo
  · rw [setFld_getLsbD v hi lo x (by omega), if_pos (by omega), Nat.add_sub_cancel_left]
    simp [hw]
  · have : x.testBit i = false := Nat.testBit_lt_two_pow (Nat.lt_of_lt_of_le hx (Nat.pow_le_pow_right (by omega) (by omega)))
    simp [hw, this]

/-! ### Registers left alone -/

theorem sameElse_wrRaw (s : State) (lo hi : Reg) (r : Raw) : sameElse s (wrRaw s lo hi r) [lo.addr, hi.addr] :=
  sameElse_trans (sameElse_wr s lo _) (sameElse_wr _ hi _)

theorem sameElse_count64 (s : State) (lo hi : Reg) (k : Nat) : sameElse s (count64 s lo hi k) [lo.addr, hi.addr] :=
  sameElse_trans (sameElse_wr s lo _) (sameElse_wr _ hi _)

theorem engState_congr {e : Nat} (h : rd t (ENG_STAT e) = rd s (ENG_STAT e)) : engState t e = engState s e :=
  congrArg (fun v => fld v 2 0) h

theorem restState_congr {e : Nat} (h : rd t (CL_STAT (e / 8)) = rd s (CL_STAT (e / 8))) : restState t e = restState s e := by
  rw [restState, restState, rdBit, rdBit, h]

@[simp] theorem rdBit_keepStores (s t : State) (r : Reg) (i : Nat) : rdBit (keepStores s t) r i = rdBit t r i := rfl

@[simp] theorem engState_keepStores (s t : State) (e : Nat) : engState (keepStores s t) e = engState t e := rfl

@[simp] theorem eng_keepStores (s t : State) (e : Nat) : eng (keepStores s t) e = eng t e := rfl

/-! ### The state of an engine -/

theorem eng_modEng_self {e : Nat} (f : EngState → EngState) (h : e < s.engs.length) : eng (modEng s e f) e = f (eng s e) := by
  simp [eng, modEng, h]

theorem restState_lt (s : State) (e : Nat) : restState s e < 8 := by
  unfold restState
  split <;> decide

/-- The registers that a change of an engine's state writes: its STATE and its cluster's ENG_PRESENT. -/
theorem sameElse_setEngState (s : State) (e st : Nat) :
    sameElse s (setEngState s e st) [(ENG_STAT e).addr, (CL_ENG_PRESENT (e / 8)).addr] :=
  sameElse_trans (sameElse_wr s (ENG_STAT e) _) (sameElse_wr _ (CL_ENG_PRESENT (e / 8)) _)

@[simp] theorem setEngState_engs (s : State) (e st : Nat) : (setEngState s e st).engs = s.engs := rfl

theorem engState_setEngState_self (s : State) (e : Nat) {st : Nat} (h : st < 8) : engState (setEngState s e st) e = st := by
  have hstat : rd (setEngState s e st) (ENG_STAT e) = setFld (rd s (ENG_STAT e)) 2 0 st := by
    rw [setEngState, showPresent, rd_wr_ne _ _ (by simp only [ENG_STAT, CL_ENG_PRESENT]; omega), wrFld, rd_wr_self]
  rw [engState, rdFld, hstat, fld_setFld_self _ (by decide) h]

theorem engState_setEngState_ne (s : State) {e i : Nat} (st : Nat) (h : i ≠ e) : engState (setEngState s e st) i = engState s i :=
  engState_congr (sameElse_setEngState s e st _ (by
    simp only [ENG_STAT, CL_ENG_PRESENT, List.mem_cons, List.not_mem_nil, or_false]; omega))

/-- No change of an engine's state changes what a cluster serves. -/
theorem restState_setEngState (s : State) {e i : Nat} (st : Nat) (h : i < 128) : restState (setEngState s e st) i = restState s i :=
  restState_congr (sameElse_setEngState s e st _ (by
    simp only [CL_STAT, ENG_STAT, CL_ENG_PRESENT, List.mem_cons, List.not_mem_nil, or_false]; omega))

/-! ### A parity event is recorded (R156, R163, R164) -/

/-- A parity event with its time and site noted and reported, before it is counted. -/
def parityNoted (s : State) (e el k : Nat) : State :=
  let site := mkWord [(3, 0, el), (6, 4, k)]
  reportFault (wr (wrRaw s (ENG_FAULT_TIME_LO e) (ENG_FAULT_TIME_HI e) s.raw) (ENG_FAULT_SITE e) site) 3 e site

theorem recordParity_eq (s : State) (e el k : Nat) :
    recordParity s e el k = setEvt (count (parityNoted s e el k) (ENG_PARITY_CNT e)) (CL_EVT (e / 8)) 0 := rfl

theorem parityNoted_regs (s : State) (e el k : Nat) : (parityNoted s e el k).regs =
    (wr (wrRaw s (ENG_FAULT_TIME_LO e) (ENG_FAULT_TIME_HI e) s.raw) (ENG_FAULT_SITE e) (mkWord [(3, 0, el), (6, 4, k)])).regs := rfl

theorem sameElse_parityNoted (s : State) (e el k : Nat) : sameElse s (parityNoted s e el k)
    ([(ENG_FAULT_TIME_LO e).addr, (ENG_FAULT_TIME_HI e).addr] ++ [(ENG_FAULT_SITE e).addr]) := fun r hr =>
  (rd_congr (parityNoted_regs s e el k) r).trans
    (sameElse_trans (sameElse_wrRaw s (ENG_FAULT_TIME_LO e) (ENG_FAULT_TIME_HI e) _) (sameElse_wr _ (ENG_FAULT_SITE e) _) r hr)

@[simp] theorem recordParity_engs (s : State) (e el k : Nat) : (recordParity s e el k).engs = s.engs := by
  simp [recordParity, setEvt, wrBit, count, reportFault, wrRaw, wrFld]

@[simp] theorem recordParity_raw (s : State) (e el k : Nat) : (recordParity s e el k).raw = s.raw := by
  simp [recordParity, setEvt, wrBit, count, reportFault, wrRaw, wrFld]

theorem eng_recordParity (s : State) (e el k i : Nat) : eng (recordParity s e el k) i = eng s i := by
  rw [eng, recordParity_engs, eng]

theorem sameElse_recordParity (s : State) (e el k : Nat) : sameElse s (recordParity s e el k)
    ([(ENG_FAULT_TIME_LO e).addr, (ENG_FAULT_TIME_HI e).addr] ++ [(ENG_FAULT_SITE e).addr] ++
      ([(ENG_PARITY_CNT e).addr] ++ [(CL_EVT (e / 8)).addr])) :=
  sameElse_trans (sameElse_parityNoted s e el k)
    (sameElse_trans (sameElse_wr _ (ENG_PARITY_CNT e) _) (sameElse_wr _ (CL_EVT (e / 8)) _))

theorem rd_recordParity_cnt (s : State) (e el k : Nat) :
    rd (recordParity s e el k) (ENG_PARITY_CNT e) = satInc (rd s (ENG_PARITY_CNT e)) := by
  rw [recordParity_eq, setEvt, rd_wrBit_ne _ _ _ (by simp only [ENG_PARITY_CNT, CL_EVT]; omega), rd_count_self,
    sameElse_parityNoted s e el k _ (by
      simp only [ENG_PARITY_CNT, ENG_FAULT_TIME_LO, ENG_FAULT_TIME_HI, ENG_FAULT_SITE, List.mem_append, List.mem_cons,
        List.not_mem_nil, or_false]; omega)]

theorem rd_recordParity_site (s : State) (e el k : Nat) :
    rd (recordParity s e el k) (ENG_FAULT_SITE e) = mkWord [(3, 0, el), (6, 4, k)] := by
  rw [recordParity_eq, setEvt, rd_wrBit_ne _ _ _ (by simp only [ENG_FAULT_SITE, CL_EVT]; omega),
    rd_count_ne _ (by simp only [ENG_FAULT_SITE, ENG_PARITY_CNT]; omega), rd_congr (parityNoted_regs s e el k), rd_wr_self]

theorem rdBit_recordParity_evt (s : State) (e el k : Nat) : rdBit (recordParity s e el k) (CL_EVT (e / 8)) 0 = true := by
  rw [recordParity_eq, rdBit_setEvt _ _ _ (by decide)]

theorem rd_recordParity_reissueCnt (s : State) (e el k : Nat) :
    rd (recordParity s e el k) (ENG_REISSUE_CNT e) = rd s (ENG_REISSUE_CNT e) :=
  sameElse_recordParity s e el k _ (by
    simp only [ENG_REISSUE_CNT, ENG_FAULT_TIME_LO, ENG_FAULT_TIME_HI, ENG_FAULT_SITE, ENG_PARITY_CNT, CL_EVT, List.mem_append,
      List.mem_cons, List.not_mem_nil, or_false]; omega)

theorem rd_recordParity_edgeRedo (s : State) (e el k : Nat) :
    rd (recordParity s e el k) (CL_EDGE_REDO (e / 8)) = rd s (CL_EDGE_REDO (e / 8)) :=
  sameElse_recordParity s e el k _ (by
    simp only [CL_EDGE_REDO, ENG_FAULT_TIME_LO, ENG_FAULT_TIME_HI, ENG_FAULT_SITE, ENG_PARITY_CNT, CL_EVT, List.mem_append,
      List.mem_cons, List.not_mem_nil, or_false]; omega)

theorem engState_recordParity (s : State) (e el k : Nat) : engState (recordParity s e el k) e = engState s e :=
  engState_congr (sameElse_recordParity s e el k _ (by
    simp only [ENG_STAT, ENG_FAULT_TIME_LO, ENG_FAULT_TIME_HI, ENG_FAULT_SITE, ENG_PARITY_CNT, CL_EVT, List.mem_append, List.mem_cons,
      List.not_mem_nil, or_false]; omega))

/-! ### An engine enters CHECK (R153, R156) -/

theorem sameElse_enterCheck (s : State) (e : Nat) :
    sameElse s (enterCheck s e) ([(ENG_STAT e).addr] ++ [(ENG_STAT e).addr, (CL_ENG_PRESENT (e / 8)).addr]) :=
  sameElse_trans (sameElse_wr s (ENG_STAT e) _) (sameElse_setEngState _ e 3)

theorem engState_enterCheck (s : State) (e : Nat) : engState (enterCheck s e) e = 3 := engState_setEngState_self _ e (by decide)

theorem eng_enterCheck {e : Nat} (h : e < s.engs.length) : eng (enterCheck s e) e = { eng s e with since := s.raw } :=
  eng_modEng_self _ h

/-- Of an engine and its cluster CHECK changes no register beyond STATE and ENG_PRESENT, which stand first in their blocks. -/
theorem rd_enterCheck (s : State) (e : Nat) {r : Reg} (hr : 4 < r.addr % 0x100) : rd (enterCheck s e) r = rd s r :=
  sameElse_enterCheck s e _ (by
    simp only [ENG_STAT, CL_ENG_PRESENT, List.mem_append, List.mem_cons, List.not_mem_nil, or_false]; omega)

/-! ### The tile in hand is discarded (R156, R162, R163) -/

theorem modFrame_regs (s : State) (n j : Nat) (g : FrameSt → FrameSt) : (modFrame s n j g).regs = s.regs := modChan_regs ..

theorem modFrame_engs (s : State) (n j : Nat) (g : FrameSt → FrameSt) : (modFrame s n j g).engs = s.engs := modChan_engs ..

theorem count64_engs (s : State) (lo hi : Reg) (k : Nat) : (count64 s lo hi k).engs = s.engs := by
  rw [count64, wr64, wr_engs, wr_engs]

theorem chargeBusy_regs (s : State) (e : Nat) :
    (chargeBusy s e).regs = (count64 s (ENG_BUSY_LO e) (ENG_BUSY_HI e) (s.raw - (eng s e).since).toNat).regs := by
  rw [chargeBusy, modEng_regs]
  cases (eng s e).item with
  | none => rfl
  | some i => exact modFrame_regs ..

theorem sameElse_chargeBusy (s : State) (e : Nat) : sameElse s (chargeBusy s e) [(ENG_BUSY_LO e).addr, (ENG_BUSY_HI e).addr] :=
  fun r hr => (rd_congr (chargeBusy_regs s e) r).trans (sameElse_count64 s (ENG_BUSY_LO e) (ENG_BUSY_HI e) _ r hr)

theorem chargeBusy_engs_length (s : State) (e : Nat) : (chargeBusy s e).engs.length = s.engs.length := by
  rw [chargeBusy, modEng, List.length_modify]
  cases (eng s e).item with
  | none => exact congrArg List.length (count64_engs ..)
  | some i => exact congrArg List.length ((modFrame_engs ..).trans (count64_engs ..))

theorem reissue_regs (s : State) (n e : Nat) (i : WorkItem) : (reissue s n e i).regs = s.regs := by
  simp [reissue, pushWork, modTileOf, modPic, modFrame]

theorem reissue_engs (s : State) (n e : Nat) (i : WorkItem) : (reissue s n e i).engs = s.engs := by
  simp [reissue, pushWork, modTileOf, modPic, modFrame]

/-- A tile taken from its engine and put back in the work list, before it is counted. -/
def tileTaken (s : State) (e : Nat) (i : WorkItem) : State :=
  reissue (modEng (chargeBusy s e) e (fun x => { x with item := none, edges := [] })) (rdFld s (ENG_STAT e) 11 8) e i

/-- Without an edge pass in hand the tile is re-issued and counted. -/
theorem dropTile_eq {e : Nat} {i : WorkItem} (h : (eng s e).item = some i) (hedges : (eng s e).edges = []) :
    dropTile s e = setEvt (count (count (tileTaken s e i) (ENG_REISSUE_CNT e)) (CL_REISSUE (e / 8))) (CL_EVT (e / 8)) 1 := by
  simp only [dropTile, tileTaken, h, hedges, List.isEmpty_nil, if_true]

theorem sameElse_tileTaken (s : State) (e : Nat) (i : WorkItem) :
    sameElse s (tileTaken s e i) [(ENG_BUSY_LO e).addr, (ENG_BUSY_HI e).addr] := fun r hr => by
  rw [tileTaken, rd_congr (reissue_regs ..), rd_congr (modEng_regs ..), sameElse_chargeBusy s e r hr]

theorem sameElse_dropTile {e : Nat} {i : WorkItem} (h : (eng s e).item = some i) (hedges : (eng s e).edges = []) :
    sameElse s (dropTile s e) ([(ENG_BUSY_LO e).addr, (ENG_BUSY_HI e).addr] ++
      ([(ENG_REISSUE_CNT e).addr] ++ ([(CL_REISSUE (e / 8)).addr] ++ [(CL_EVT (e / 8)).addr]))) := by
  rw [dropTile_eq h hedges]
  exact sameElse_trans (sameElse_tileTaken s e i) (sameElse_trans (sameElse_wr _ (ENG_REISSUE_CNT e) _)
    (sameElse_trans (sameElse_wr _ (CL_REISSUE (e / 8)) _) (sameElse_wr _ (CL_EVT (e / 8)) _)))

theorem rd_dropTile_parityCnt {e : Nat} {i : WorkItem} (h : (eng s e).item = some i) (hedges : (eng s e).edges = []) :
    rd (dropTile s e) (ENG_PARITY_CNT e) = rd s (ENG_PARITY_CNT e) :=
  sameElse_dropTile h hedges _ (by
    simp only [ENG_PARITY_CNT, ENG_BUSY_LO, ENG_BUSY_HI, ENG_REISSUE_CNT, CL_REISSUE, CL_EVT, List.mem_append, List.mem_cons,
      List.not_mem_nil, or_false]; omega)

theorem rd_dropTile_reissueCnt {e : Nat} {i : WorkItem} (h : (eng s e).item = some i) (hedges : (eng s e).edges = []) :
    rd (dropTile s e) (ENG_REISSUE_CNT e) = satInc (rd s (ENG_REISSUE_CNT e)) := by
  rw [dropTile_eq h hedges, setEvt, rd_wrBit_ne _ _ _ (by simp only [ENG_REISSUE_CNT, CL_EVT]; omega),
    rd_count_ne _ (by simp only [ENG_REISSUE_CNT, CL_REISSUE]; omega), rd_count_self, sameElse_tileTaken s e i _ (by
      simp only [ENG_REISSUE_CNT, ENG_BUSY_LO, ENG_BUSY_HI, List.mem_cons, List.not_mem_nil, or_false]; omega)]

theorem rdBit_dropTile_evt {e : Nat} {i : WorkItem} (h : (eng s e).item = some i) (hedges : (eng s e).edges = []) :
    rdBit (dropTile s e) (CL_EVT (e / 8)) 1 = true := by
  rw [dropTile_eq h hedges, rdBit_setEvt _ _ _ (by decide)]

theorem dropTile_engs {e : Nat} {i : WorkItem} (h : (eng s e).item = some i) (hedges : (eng s e).edges = []) :
    (dropTile s e).engs = (modEng (chargeBusy s e) e (fun x => { x with item := none, edges := [] })).engs := by
  rw [dropTile_eq h hedges]
  simp [setEvt, wrBit, count, tileTaken, reissue_engs]

theorem dropTile_engs_length {e : Nat} {i : WorkItem} (h : (eng s e).item = some i) (hedges : (eng s e).edges = []) :
    (dropTile s e).engs.length = s.engs.length := by
  rw [dropTile_engs h hedges, modEng, List.length_modify, chargeBusy_engs_length]

theorem dropTile_item {e : Nat} {i : WorkItem} (h : (eng s e).item = some i) (hedges : (eng s e).edges = [])
    (hlen : e < s.engs.length) : (eng (dropTile s e) e).item = none := by
  rw [eng, dropTile_engs h hedges]
  exact congrArg EngState.item (eng_modEng_self _ (by rwa [chargeBusy_engs_length]))

/-! ### A cache line is fetched again (R159) -/

theorem refetchLine_regs (s : State) (c line : Nat) : (refetchLine s c line).regs = s.regs := rfl

theorem refetchLine_out (s : State) (c line : Nat) : (refetchLine s c line).out = .lineFetch c line :: s.out := rfl

theorem head_refetchLine {c : Nat} (line : Nat) (h : c < s.caches.length) :
    ((refetchLine s c line).caches.getD c []).head? = some line := by
  simp [refetchLine, emit, h]

/-! ### A cluster starts (R153, R164) -/

/-- The engines of a list of a cluster's local numbers go to the state without work. -/
theorem engState_forEach_rest {c k : Nat} (hc : c < 16) (hk : k < 8) (l : List Nat) (s : State) :
    engState (forEach l s (fun i s => setEngState s (8 * c + i) (restState s (8 * c + i)))) (8 * c + k) =
      if k ∈ l then restState s (8 * c + k) else engState s (8 * c + k) := by
  induction l generalizing s with
  | nil => rfl
  | cons i l ih =>
    refine (ih _).trans ?_
    rw [restState_setEngState _ _ (by omega)]
    by_cases hki : k = i
    · rw [hki, engState_setEngState_self _ _ (restState_lt ..)]
      simp
    · rw [engState_setEngState_ne _ _ (by omega)]
      simp [hki]

theorem engState_wrBit_clStat (s : State) {c i : Nat} (hc : c < 16) (k : Nat) (b : Bool) :
    engState (wrBit s (CL_STAT c) k b) i = engState s i :=
  engState_congr (rd_wrBit_ne s k b (by simp only [ENG_STAT, CL_STAT]; omega))

/-- Whether a cluster serves a channel does not depend on its other bits. -/
theorem restState_wrBit_clStat (s : State) {e k : Nat} (b : Bool) (hk : k < 32) (h4 : 4 ≠ k) :
    restState (wrBit s (CL_STAT (e / 8)) k b) e = restState s e := by
  rw [restState, rdBit_wrBit_ne _ _ _ (by decide) hk h4, restState]

/-- The local numbers of a cluster's engines that are down. -/
def downEngines (s : State) (c : Nat) : List Nat := (List.range 8).filter (fun i => engState s (8 * c + i) = 5)

theorem mem_downEngines {c i : Nat} (hi : i < 8) : i ∈ downEngines s c ↔ engState s (8 * c + i) = 5 := by simp [downEngines, hi]

/-- A cluster shows that it is powered and what its self-test gave. -/
def clusterShown (s : State) (c : Nat) (ok : Bool) : State := wrBit (wrBit s (CL_STAT c) 5 true) (CL_STAT c) 6 ok

theorem engState_clusterShown (s : State) {c i : Nat} (hc : c < 16) (ok : Bool) : engState (clusterShown s c ok) i = engState s i := by
  rw [clusterShown, engState_wrBit_clStat _ hc, engState_wrBit_clStat _ hc]

theorem restState_clusterShown (s : State) (c : Nat) {i : Nat} (hi : i < 8) (ok : Bool) :
    restState (clusterShown s c ok) (8 * c + i) = restState s (8 * c + i) := by
  have hcl : c = (8 * c + i) / 8 := by omega
  rw [clusterShown]
  generalize 8 * c + i = e at hcl
  subst hcl
  rw [restState_wrBit_clStat _ _ (by decide) (by decide), restState_wrBit_clStat _ _ (by decide) (by decide)]

/-- The engines of a cluster that are down take the state without work. -/
def enginesUp (s : State) (c : Nat) : State :=
  forEach (downEngines s c) (clusterShown s c true) (fun i s => setEngState s (8 * c + i) (restState s (8 * c + i)))

theorem engState_enginesUp (s : State) {c i : Nat} (hc : c < 16) (hi : i < 8) : engState (enginesUp s c) (8 * c + i) =
    if engState s (8 * c + i) = 5 then restState s (8 * c + i) else engState s (8 * c + i) := by
  rw [enginesUp, engState_forEach_rest hc hi, restState_clusterShown s c hi, engState_clusterShown s hc]
  simp only [mem_downEngines hi]

/-! ### A signature test ends (R456) -/

/-- A tested engine has returned to the state without work, its cluster shows the result. -/
def testShown (s : State) (e : Nat) (pass : Bool) : State :=
  let s := wrBit s (CL_STAT (e / 8)) 6 pass
  setEngState s e (restState s e)

theorem engineTested_pass (s : State) (e : Nat) : engineTested s e true =
    count (modEng (testShown s e true) e (fun x => { x with stFails := 0, stVector := (x.stVector + 1) % 4 })) GOOSE_ST_PASS := rfl

theorem engineTested_first {e : Nat} (h : (eng s e).stFails = 0) :
    engineTested s e false = modEng (testShown s e false) e (fun x => { x with stFails := 1 }) := by
  simp only [engineTested, h, testShown, Bool.false_eq_true, if_false, if_true]

theorem testShown_engs (s : State) (e : Nat) (pass : Bool) : (testShown s e pass).engs = s.engs := by
  rw [testShown, setEngState_engs, wrBit, wr_engs]

theorem engState_testShown (s : State) (e : Nat) (pass : Bool) : engState (testShown s e pass) e = restState s e := by
  rw [testShown, engState_setEngState_self _ _ (restState_lt ..), restState_wrBit_clStat _ _ (by decide) (by decide)]

theorem rdBit_testShown (s : State) {e : Nat} (he : e < 128) (pass : Bool) :
    rdBit (testShown s e pass) (CL_STAT (e / 8)) 6 = pass := by
  rw [rdBit, testShown, sameElse_setEngState _ e _ (CL_STAT (e / 8)) (by
    simp only [CL_STAT, ENG_STAT, CL_ENG_PRESENT, List.mem_cons, List.not_mem_nil, or_false]; omega)]
  exact rdBit_wrBit_self s (CL_STAT (e / 8)) 6 pass (by decide)

/-- No register of the Goose changes with the state of an engine or what its cluster shows. -/
theorem rd_testShown (s : State) (e : Nat) (pass : Bool) {r : Reg} (hr : r.addr < 0x800000) :
    rd (testShown s e pass) r = rd s r := by
  rw [testShown, sameElse_setEngState _ e _ r (by
    simp only [ENG_STAT, CL_ENG_PRESENT, List.mem_cons, List.not_mem_nil, or_false]; omega),
    rd_wrBit_ne _ _ _ (by simp only [CL_STAT]; omega)]

/-! ### Commands on engines and clusters -/

/-- A command on a unit the device has, taken by a running device. -/
theorem act_of {p : Prop} [Decidable p] {f : State → State} (hp : p) (hr : runs s) :
    act (decide p) s f = .next (keepStores s (f s)) := by rw [decide_eq_true hp, act_run hr]

section
variable {e : Nat} {el : BitVec 4} {kd : BitVec 3} (hr : runs s) (he : e < 128)
include hr he

/-- An engine without work enters CHECK. -/
theorem exec_engineParityError_atRest (h : engState s e = 0 ∨ engState s e = 1) :
    exec (.engineParityError e el kd) s = .next (keepStores s (enterCheck (recordParity s e el.toNat kd.toNat) e)) := by
  show execEngineParityError e el kd s = _
  rw [execEngineParityError, act_of he hr]
  rcases h with h | h <;> simp only [h]

/-- An engine in its self-test enters CHECK; its test is due again. -/
theorem exec_engineParityError_selfTest (h : engState s e = 6) :
    exec (.engineParityError e el kd) s =
      .next (keepStores s (enterCheck (modEng (recordParity s e el.toNat kd.toNat) e (fun x => { x with lastTest := none })) e)) := by
  show execEngineParityError e el kd s = _
  rw [execEngineParityError, act_of he hr]
  simp only [h]

theorem exec_engineParityError_coding (h : engState s e = 2) (hedges : (eng s e).edges = []) :
    exec (.engineParityError e el kd) s = .next (keepStores s (enterCheck (dropTile (recordParity s e el.toNat kd.toNat) e) e)) := by
  show execEngineParityError e el kd s = _
  rw [execEngineParityError, act_of he hr]
  simp only [h, hedges, List.isEmpty_nil, if_true]

theorem exec_engineParityError_edgePass (h : engState s e = 2) (hedges : (eng s e).edges ≠ []) :
    exec (.engineParityError e el kd) s =
      .next (keepStores s (count (recordParity s e el.toNat kd.toNat) (CL_EDGE_REDO (e / 8)))) := by
  show execEngineParityError e el kd s = _
  rw [execEngineParityError, act_of he hr]
  simp only [h, List.isEmpty_iff, hedges, if_false]

theorem exec_engineParityError_checking (h : engState s e = 3) :
    exec (.engineParityError e el kd) s =
      .next (keepStores s (modEng (recordParity s e el.toNat kd.toNat) e (fun x => { x with since := s.raw }))) := by
  show execEngineParityError e el kd s = _
  rw [execEngineParityError, act_of he hr]
  simp only [h]

theorem exec_engineParityError_withdrawn (h : engState s e = 4) :
    exec (.engineParityError e el kd) s = .next (keepStores s (recordParity s e el.toNat kd.toNat)) := by
  show execEngineParityError e el kd s = _
  rw [execEngineParityError, act_of he hr]
  simp only [h]

theorem exec_engineParityError_down (h : engState s e = 5) : exec (.engineParityError e el kd) s = .next s := by
  show execEngineParityError e el kd s = _
  rw [execEngineParityError, act_of he hr]
  simp only [h]
  rw [keepStores_self]

theorem exec_checkEnd_due (h : engState s e = 3) (hdue : ticksSince s (eng s e).since (usTicks 50) = true) :
    exec (.checkEnd e) s = .next (keepStores s (setEngState s e (restState s e))) := by
  show execCheckEnd e s = _
  rw [execCheckEnd, act_of he hr]
  simp only [h, hdue, decide_true, Bool.and_self, if_true]

theorem exec_checkEnd_early (h : engState s e ≠ 3 ∨ ticksSince s (eng s e).since (usTicks 50) = false) :
    exec (.checkEnd e) s = .next s := by
  show execCheckEnd e s = _
  rw [execCheckEnd, act_of he hr]
  rcases h with h | h <;> simp [h, keepStores_self]

theorem exec_selfTestStart_engine (hen : rdBit s GOOSE_ST_CTL 0 = true) (h : engState s e = 1)
    (hwin : testWindow s (engChannel s e) = true)
    (hdue : (eng s e).stFails ≠ 0 ∨ passed s (eng s e).lastTest (testPeriod s) = true) :
    exec (.selfTestStart false e) s =
      .next (keepStores s (setEngState (modEng s e (fun x => { x with lastTest := some s.raw })) e 6)) := by
  have hdue' : ((eng s e).stFails != 0 || passed s (eng s e).lastTest (testPeriod s)) = true := by simpa using hdue
  show execSelfTestStart false e s = _
  rw [execSelfTestStart, if_neg Bool.false_ne_true, act_of he hr]
  simp only [hen, h, hwin, hdue', Bool.not_true, Bool.false_eq_true, decide_true, Bool.and_self, if_true, if_false]

theorem exec_selfTestDone_engine (crcs : Word × Word) (h : engState s e = 6) :
    exec (.selfTestDone false e crcs) s = .next (keepStores s (engineTested s e (testMatches false (eng s e).stVector crcs))) := by
  show execSelfTestDone false e crcs s = _
  rw [execSelfTestDone, if_neg Bool.false_ne_true, act_of he hr]
  simp only [h, Bool.false_eq_true, if_false, if_true]

end

section
variable {c : Nat} (hr : runs s) (hc : c < 16)
include hr hc

theorem exec_selfTestStart_scout (hen : rdBit s GOOSE_ST_CTL 0 = true) (h : rdFld s (CL_SCT_STAT c) 1 0 = 1)
    (hoff : (eng s c).scoutOn = false) (hwin : testWindow s (rdFld s (CL_STAT c) 3 0) = true)
    (hdue : (eng s c).scoutFails ≠ 0 ∨ passed s (eng s c).scoutLast (testPeriod s) = true) :
    exec (.selfTestStart true c) s =
      .next (keepStores s (modEng s c (fun x => { x with scoutOn := true, scoutLast := some s.raw }))) := by
  have hdue' : ((eng s c).scoutFails != 0 || passed s (eng s c).scoutLast (testPeriod s)) = true := by simpa using hdue
  show execSelfTestStart true c s = _
  rw [execSelfTestStart, if_pos rfl, act_of hc hr]
  simp only [hen, h, hoff, hwin, hdue', Bool.not_true, Bool.not_false, Bool.false_eq_true, decide_true, Bool.and_self, if_true, if_false]

theorem exec_selfTestDone_scout (crcs : Word × Word) (h : (eng s c).scoutOn = true) :
    exec (.selfTestDone true c crcs) s = .next (keepStores s (scoutTested s c (testMatches true (eng s c).scoutVector crcs))) := by
  show execSelfTestDone true c crcs s = _
  rw [execSelfTestDone, if_pos rfl, act_of hc hr]
  simp only [h, if_true]

theorem exec_cacheParityError (line : Nat) :
    exec (.cacheParityError c line) s =
      .next (keepStores s (refetchLine (setEvt (count s (CL_CACHE_PARITY c)) (CL_EVT c) 3) c line)) := by
  show execCacheParityError c line s = _
  rw [execCacheParityError, act_of hc hr]

theorem exec_clusterUp_allUp (ok : Bool) (h : downEngines s c = []) : exec (.clusterUp c ok) s = .next s := by
  show execClusterUp c ok s = _
  rw [downEngines] at h
  rw [execClusterUp, act_of hc hr]
  simp only [h, List.isEmpty_nil, if_true]
  rw [keepStores_self]

theorem exec_clusterUp_passed (h : downEngines s c ≠ []) :
    exec (.clusterUp c true) s = .next (keepStores s (enginesUp s c)) := by
  show execClusterUp c true s = _
  rw [downEngines] at h
  rw [execClusterUp, act_of hc hr]
  simp only [List.isEmpty_iff, h, if_false, if_true, enginesUp, downEngines, clusterShown]

theorem exec_clusterUp_failed (h : downEngines s c ≠ []) :
    exec (.clusterUp c false) s = .next (keepStores s (clusterShown s c false)) := by
  show execClusterUp c false s = _
  rw [downEngines] at h
  rw [execClusterUp, act_of hc hr]
  simp only [List.isEmpty_iff, h, if_false, Bool.false_eq_true, clusterShown]

end

/-! ### What a parity event does to an engine (R156, R158) -/

/-- An engine that enters CHECK once a parity event is recorded: the event is counted, its site held, the cluster's event set. -/
theorem enterCheck_afterParity {e el k : Nat} (hregs : u.regs = (recordParity s e el k).regs) (hraw : u.raw = s.raw)
    (hlen : e < u.engs.length) :
    let t := keepStores s (enterCheck u e)
    engState t e = 3 ∧ rd t (ENG_PARITY_CNT e) = satInc (rd s (ENG_PARITY_CNT e)) ∧
      rd t (ENG_FAULT_SITE e) = mkWord [(3, 0, el), (6, 4, k)] ∧ rdBit t (CL_EVT (e / 8)) 0 = true ∧
      (eng t e).since = s.raw ∧ keepsStores s t := by
  refine ⟨?_, ?_, ?_, ?_, ?_, keepsStores_keepStores ..⟩
  · rw [engState_keepStores, engState_enterCheck]
  · rw [rd_keepStores, rd_enterCheck _ _ (by simp only [ENG_PARITY_CNT]; omega), rd_congr hregs, rd_recordParity_cnt]
  · rw [rd_keepStores, rd_enterCheck _ _ (by simp only [ENG_FAULT_SITE]; omega), rd_congr hregs, rd_recordParity_site]
  · rw [rdBit_keepStores, rdBit, rd_enterCheck _ _ (by simp only [CL_EVT]; omega), rd_congr hregs, ← rdBit, rdBit_recordParity_evt]
  · rw [eng_keepStores, eng_enterCheck hlen, hraw]

section
variable {e : Nat} {el : BitVec 4} {kd : BitVec 3} (hr : runs s) (he : e < 128) (hlen : e < s.engs.length)
include hr he

include hlen in
theorem engineParityError_check (h : engState s e = 0 ∨ engState s e = 1 ∨ engState s e = 6) :
    ∃ t, exec (.engineParityError e el kd) s = .next t ∧ engState t e = 3 ∧
      rd t (ENG_PARITY_CNT e) = satInc (rd s (ENG_PARITY_CNT e)) ∧
      rd t (ENG_FAULT_SITE e) = mkWord [(3, 0, el.toNat), (6, 4, kd.toNat)] ∧ rdBit t (CL_EVT (e / 8)) 0 = true ∧
      (eng t e).since = s.raw ∧ keepsStores s t := by
  rcases or_assoc.2 h with hrest | h6
  · exact ⟨_, exec_engineParityError_atRest hr he hrest,
      enterCheck_afterParity rfl (recordParity_raw ..) (by rwa [recordParity_engs])⟩
  · exact ⟨_, exec_engineParityError_selfTest hr he h6, enterCheck_afterParity (modEng_regs ..)
      (by rw [modEng_raw, recordParity_raw]) (by rwa [modEng, List.length_modify, recordParity_engs])⟩

include hlen in
theorem engineParityError_tile {i : WorkItem} (h2 : engState s e = 2) (hedges : (eng s e).edges = []) (hitem : (eng s e).item = some i) :
    ∃ t, exec (.engineParityError e el kd) s = .next t ∧ engState t e = 3 ∧ (eng t e).item = none ∧
      rd t (ENG_PARITY_CNT e) = satInc (rd s (ENG_PARITY_CNT e)) ∧ rd t (ENG_REISSUE_CNT e) = satInc (rd s (ENG_REISSUE_CNT e)) ∧
      rdBit t (CL_EVT (e / 8)) 1 = true ∧ keepsStores s t := by
  have hitem' : (eng (recordParity s e el.toNat kd.toNat) e).item = some i := by rw [eng_recordParity, hitem]
  have hedges' : (eng (recordParity s e el.toNat kd.toNat) e).edges = [] := by rw [eng_recordParity, hedges]
  have hlen' : e < (recordParity s e el.toNat kd.toNat).engs.length := by rwa [recordParity_engs]
  refine ⟨_, exec_engineParityError_coding hr he h2 hedges, ?_, ?_, ?_, ?_, ?_, keepsStores_keepStores ..⟩
  · rw [engState_keepStores, engState_enterCheck]
  · rw [eng_keepStores, eng_enterCheck (by rwa [dropTile_engs_length hitem' hedges'])]
    exact dropTile_item hitem' hedges' hlen'
  · rw [rd_keepStores, rd_enterCheck _ _ (by simp only [ENG_PARITY_CNT]; omega), rd_dropTile_parityCnt hitem' hedges',
      rd_recordParity_cnt]
  · rw [rd_keepStores, rd_enterCheck _ _ (by simp only [ENG_REISSUE_CNT]; omega), rd_dropTile_reissueCnt hitem' hedges',
      rd_recordParity_reissueCnt]
  · rw [rdBit_keepStores, rdBit, rd_enterCheck _ _ (by simp only [CL_EVT]; omega), ← rdBit, rdBit_dropTile_evt hitem' hedges']

theorem engineParityError_edgePass (h2 : engState s e = 2) (hedges : (eng s e).edges ≠ []) :
    ∃ t, exec (.engineParityError e el kd) s = .next t ∧ engState t e = 2 ∧ (eng t e).item = (eng s e).item ∧
      rd t (CL_EDGE_REDO (e / 8)) = satInc (rd s (CL_EDGE_REDO (e / 8))) ∧ keepsStores s t := by
  refine ⟨_, exec_engineParityError_edgePass hr he h2 hedges, ?_, ?_, ?_, keepsStores_keepStores ..⟩
  · rw [engState_keepStores, engState_congr (rd_count_ne _ (by simp only [ENG_STAT, CL_EDGE_REDO]; omega)), engState_recordParity, h2]
  · rw [eng_keepStores, eng, count, wr_engs, ← eng, eng_recordParity]
  · rw [rd_keepStores, rd_count_self, rd_recordParity_edgeRedo]

include hlen in
theorem engineParityError_checkAgain (h3 : engState s e = 3) :
    ∃ t, exec (.engineParityError e el kd) s = .next t ∧ engState t e = 3 ∧ (eng t e).since = s.raw ∧ keepsStores s t := by
  refine ⟨_, exec_engineParityError_checking hr he h3, ?_, ?_, keepsStores_keepStores ..⟩
  · rw [engState_keepStores, engState_congr (rd_congr (modEng_regs ..) _), engState_recordParity, h3]
  · rw [eng_keepStores, eng_modEng_self _ (by rwa [recordParity_engs])]

theorem engineParityError_countsOnly (h4 : engState s e = 4) :
    ∃ t, exec (.engineParityError e el kd) s = .next t ∧ engState t e = 4 ∧ t.engs = s.engs ∧
      rd t (ENG_PARITY_CNT e) = satInc (rd s (ENG_PARITY_CNT e)) ∧ keepsStores s t := by
  refine ⟨_, exec_engineParityError_withdrawn hr he h4, ?_, ?_, ?_, keepsStores_keepStores ..⟩
  · rw [engState_keepStores, engState_recordParity, h4]
  · rw [keepStores_engs, recordParity_engs]
  · rw [rd_keepStores, rd_recordParity_cnt]

/-! ### What a signature test does to an engine (R456) -/

include hlen in
theorem selfTestDone_pass {crcs : Word × Word} (h6 : engState s e = 6) (hm : testMatches false (eng s e).stVector crcs = true) :
    ∃ t, exec (.selfTestDone false e crcs) s = .next t ∧ engState t e = restState s e ∧ (eng t e).stFails = 0 ∧
      rd t GOOSE_ST_PASS = satInc (rd s GOOSE_ST_PASS) ∧ rdBit t (CL_STAT (e / 8)) 6 = true ∧ keepsStores s t := by
  have hex := exec_selfTestDone_engine hr he crcs h6
  rw [hm, engineTested_pass] at hex
  refine ⟨_, hex, ?_, ?_, ?_, ?_, keepsStores_keepStores ..⟩
  · rw [engState_keepStores, engState_congr (rd_count_ne _ (by simp only [ENG_STAT, GOOSE_ST_PASS]; omega)),
      engState_congr (rd_congr (modEng_regs ..) _), engState_testShown]
  · rw [eng_keepStores, eng, count, wr_engs, ← eng, eng_modEng_self _ (by rwa [testShown_engs])]
  · rw [rd_keepStores, rd_count_self, rd_congr (modEng_regs ..), rd_testShown _ _ _ (by decide)]
  · rw [rdBit_keepStores, rdBit, rd_count_ne _ (by simp only [CL_STAT, GOOSE_ST_PASS]; omega), rd_congr (modEng_regs ..), ← rdBit,
      rdBit_testShown s he]

include hlen in
theorem selfTestDone_firstMismatch {crcs : Word × Word} (h6 : engState s e = 6)
    (hm : testMatches false (eng s e).stVector crcs = false) (hfirst : (eng s e).stFails = 0) :
    ∃ t, exec (.selfTestDone false e crcs) s = .next t ∧ engState t e = restState s e ∧ (eng t e).stFails = 1 ∧
      rd t GOOSE_ST_FAIL = rd s GOOSE_ST_FAIL ∧ rdBit t (CL_STAT (e / 8)) 6 = false ∧ keepsStores s t := by
  have hex := exec_selfTestDone_engine hr he crcs h6
  rw [hm, engineTested_first hfirst] at hex
  refine ⟨_, hex, ?_, ?_, ?_, ?_, keepsStores_keepStores ..⟩
  · rw [engState_keepStores, engState_congr (rd_congr (modEng_regs ..) _), engState_testShown]
  · rw [eng_keepStores, eng_modEng_self _ (by rwa [testShown_engs])]
  · rw [rd_keepStores, rd_congr (modEng_regs ..), rd_testShown _ _ _ (by decide)]
  · rw [rdBit_keepStores, rdBit, rd_congr (modEng_regs ..), ← rdBit, rdBit_testShown s he]

end

/-- The line is fetched again and held; the event is counted in the cluster and in no engine (R159). -/
theorem cacheParityError_refetches {c : Nat} (hr : runs s) (hc : c < 16) (line : Nat) :
    ∃ t, exec (.cacheParityError c line) s = .next t ∧ (c < s.caches.length → (t.caches.getD c []).head? = some line) ∧
      t.out = .lineFetch c line :: s.out ∧ rd t (CL_CACHE_PARITY c) = satInc (rd s (CL_CACHE_PARITY c)) ∧
      rdBit t (CL_EVT c) 3 = true ∧ sameElse s t [(CL_CACHE_PARITY c).addr, (CL_EVT c).addr] ∧ keepsStores s t := by
  have hsame : sameElse s (setEvt (count s (CL_CACHE_PARITY c)) (CL_EVT c) 3) ([(CL_CACHE_PARITY c).addr] ++ [(CL_EVT c).addr]) :=
    sameElse_trans (sameElse_wr s (CL_CACHE_PARITY c) _) (sameElse_wr _ (CL_EVT c) _)
  refine ⟨_, exec_cacheParityError hr hc line, fun hcache => ?_, ?_, ?_, ?_, fun r hr => ?_, keepsStores_keepStores ..⟩
  · rw [keepStores_caches, head_refetchLine _ (by rwa [setEvt, wrBit, wr_caches, count, wr_caches])]
  · rw [keepStores_out, refetchLine_out, setEvt, wrBit, wr_out, count, wr_out]
  · rw [rd_keepStores, rd_congr (refetchLine_regs ..), setEvt, rd_wrBit_ne _ _ _ (by simp only [CL_CACHE_PARITY, CL_EVT]; omega),
      rd_count_self]
  · rw [rdBit_keepStores, rdBit, rd_congr (refetchLine_regs ..), ← rdBit, rdBit_setEvt _ _ _ (by decide)]
  · rw [rd_keepStores, rd_congr (refetchLine_regs ..), hsame r hr]

end Sys2Proof.Machine
end

section
/-!
The statements about the engines' faults and tests (spec/05_coding_engines.md).
-/
open Sys2Proof Sys2Proof.Machine

/-- Settles O25: each clause runs one command to its next state and reads it through the lemmas of what the command writes. That CHECK_END
before its instant does nothing and what the test signatures are are the model's choices (log entries 4 and 62). -/
theorem parityChecksAndSelfTests : Obligations.ParityChecksAndSelfTests := by
  refine ⟨fun e el kd s hr he hlen => ⟨engineParityError_check hr he hlen, fun _ => engineParityError_tile hr he hlen,
      engineParityError_edgePass hr he, engineParityError_checkAgain hr he hlen, engineParityError_countsOnly hr he,
      exec_engineParityError_down hr he, fun h3 hdue => ?_, exec_checkEnd_early hr he, fun hen h1 hwin hdue => ?_,
      exec_selfTestDone_engine hr he, fun _ h6 => ⟨selfTestDone_pass hr he hlen h6, selfTestDone_firstMismatch hr he hlen h6⟩⟩,
    fun c line s hr hc hlen => ⟨fun hen hst hoff hwin hdue => ?_, exec_selfTestDone_scout hr hc,
      cacheParityError_refetches hr hc line, ?_, ?_⟩⟩
  · refine ⟨_, exec_checkEnd_due hr he h3 hdue, ?_, sameElse_keepStores (sameElse_setEngState s e _), keepsStores_keepStores ..⟩
    rw [engState_keepStores, engState_setEngState_self _ _ (restState_lt s e)]
  · refine ⟨_, exec_selfTestStart_engine hr he hen h1 hwin hdue, ?_, ?_, keepsStores_keepStores ..⟩
    · rw [engState_keepStores, engState_setEngState_self _ _ (by decide)]
    · rw [eng_keepStores, eng, setEngState_engs, ← eng, eng_modEng_self _ hlen]
  · refine ⟨_, exec_selfTestStart_scout hr hc hen hst hoff hwin hdue, ?_, ?_, sameElse_of_regs_eq ?_ _, keepsStores_keepStores ..⟩
    · rw [eng_keepStores, eng_modEng_self _ hlen]
    · rw [eng_keepStores, eng_modEng_self _ hlen]
    · rw [keepStores_regs, modEng_regs]
  · by_cases hdown : downEngines s c = []
    · refine ⟨s, exec_clusterUp_allUp hr hc true hdown, keepsStores_keepStores s s, fun i hi => ?_⟩
      rw [if_neg (mt (mem_downEngines hi).2 (hdown ▸ List.not_mem_nil))]
    · exact ⟨_, exec_clusterUp_passed hr hc hdown, keepsStores_keepStores .., fun i hi => by
        rw [engState_keepStores, engState_enginesUp s hc hi]⟩
  · by_cases hdown : downEngines s c = []
    · exact ⟨s, exec_clusterUp_allUp hr hc false hdown, keepsStores_keepStores s s, fun _ _ => rfl⟩
    · exact ⟨_, exec_clusterUp_failed hr hc hdown, keepsStores_keepStores .., fun i _ => by
        rw [engState_keepStores, engState_clusterShown s hc]⟩
end

section
/-!
SUPPORT. The buffer of a rendition: which pictures a decision and a sizing change, what the caps of a picture's tiles sum to, how large the
filler unit is, and how full the model buffer is after a picture (R168, R173, R177).
-/
namespace Sys2Proof.Machine

variable {s t : State} {n j r : Nat}

/-! ### The channel pipes left alone -/

theorem count_chans (s : State) (r : Reg) : (count s r).chans = s.chans := wr_chans ..

theorem setEvt_chans (s : State) (r : Reg) (i : Nat) : (setEvt s r i).chans = s.chans := wr_chans ..

theorem onlyIf_chans (b : Bool) {g : State → State} (h : (g s).chans = s.chans) : (onlyIf b s g).chans = s.chans := by
  cases b
  · rfl
  · exact h

theorem showModel_chans (s : State) (n : Nat) (m : RcModel) : (showModel s n m).chans = s.chans := by
  unfold showModel
  split
  · simp only [wr_chans]
  · rfl

theorem putHalves_chans (s : State) (off k : Nat) (bs : List Byte) : (putHalves s off k bs).chans = s.chans := by
  induction k generalizing s off bs with
  | zero => rfl
  | succ k ih => exact ih ..

theorem putRing_chans (s : State) (q size slot : Nat) (bs : List Byte) : (putRing s q size slot bs).chans = s.chans := by
  unfold putRing
  split
  · exact putHalves_chans ..
  · rfl

theorem putQueue_chans (s : State) (x : QueueSt) : (putQueue s x).chans = s.chans := rfl

theorem putSlots_chans (s : State) (q len slots : Nat) (pad : Bool) (bs : List Byte) : (putSlots s q len slots pad bs).chans = s.chans := by
  simp only [putSlots, putQueue_chans, wr_chans, putRing_chans, emit_chans]

theorem leaveL1_chans (s : State) : (leaveL1 s).chans = s.chans := by
  unfold leaveL1
  split <;> rfl

/-- A record goes to its queue or is dropped: no channel pipe changes (R381, R382). -/
theorem putRecord_chans (s : State) (q : Nat) (bs : List Byte) : (putRecord s q bs).1.chans = s.chans := by
  simp only [putRecord, apply_ite Prod.fst, apply_ite State.chans, putSlots_chans, leaveL1_chans, count_chans, ite_self]

theorem chan_congr (h : t.chans = s.chans) (n : Nat) : chan t n = chan s n := by rw [chan, chan, h]

theorem chan_putModel_frames (m : RcModel) (hn : n < s.chans.length) : (chan (putModel s n m) n).frames = (chan s n).frames := by
  rw [putModel, chan_modChan_self _ hn]

theorem putModel_chans_length (s : State) (n : Nat) (m : RcModel) : (putModel s n m).chans.length = s.chans.length :=
  List.length_modify ..

/-! ### The picture of a rendition -/

/-- The picture found is one of a frame the channel holds, under the rendition's number. -/
theorem oldestPic_mem {q : RendPic → Bool} {f : FrameSt} {rp : RendPlan} {p : RendPic} (h : oldestPic s n r q = some (f, rp, p)) :
    f ∈ (chan s n).frames ∧ rp.id = r ∧ p ∈ f.rends ∧ p.id = r := by
  obtain ⟨f', hf', hfound⟩ := List.exists_of_findSome?_eq_some h
  split at hfound
  · next rp' p' hrp hp =>
    split at hfound
    · cases hfound
      exact ⟨hf', by simpa using List.find?_some hrp, List.mem_of_find?_eq_some hp, by simpa using List.find?_some hp⟩
    · cases hfound
  · cases hfound

/-- A picture of the rendition in a frame of that place is a changed one. -/
theorem mem_rends_modPic {g : RendPic → RendPic} {x : FrameSt} {y : RendPic} (hn : n < s.chans.length)
    (hx : x ∈ (chan (modPic s n j r g) n).frames) (hj : x.j = j) (hy : y ∈ x.rends) (hr : y.id = r) :
    ∃ f ∈ (chan s n).frames, f.j = j ∧ ∃ p ∈ f.rends, p.id = r ∧ y = g p := by
  rw [modPic, modFrame, chan_modChan_self _ hn] at hx
  obtain ⟨f, hf, rfl⟩ := List.mem_map.1 hx
  by_cases hfj : f.j = j
  · rw [if_pos hfj] at hy
    obtain ⟨p, hp, rfl⟩ := List.mem_map.1 hy
    by_cases hpr : p.id = r
    · exact ⟨f, hf, hfj, p, hp, hpr, if_pos hpr⟩
    · rw [if_neg hpr] at hr
      exact absurd hr hpr
  · rw [if_neg hfj] at hj
    exact absurd hj hfj

/-- No tile ends unstarted where the rescue leaves the picture a normally coded row (R92). -/
theorem endUnstarted_of_rescue_ne_zero (h : ∀ f p, frameAt s n j = some f → f.pic r = some p → p.rescue ≠ some 0) :
    endUnstarted s n j r = s := by
  unfold endUnstarted
  split
  · rfl
  · next p hp =>
    obtain ⟨f, hf, hpic⟩ := Option.bind_eq_some_iff.1 hp
    simp [h f p hf hpic]

/-! ### The caps of a picture's tiles (R173) -/

theorem sumTo_eq_sum (k : Nat) (f : Nat → Nat) : sumTo k f = ((List.range k).map f).sum := by
  rw [sumTo, List.sum_eq_foldl_nat, List.foldl_map]

theorem sum_map_add {α : Type} (a b : α → Nat) (xs : List α) :
    (xs.map (fun x => a x + b x)).sum = (xs.map a).sum + (xs.map b).sum := by
  induction xs with
  | nil => rfl
  | cons x xs ih =>
    simp only [List.map_cons, List.sum_cons, ih]
    omega

/-- Shares of a pool by weight do not exceed it. -/
theorem sum_shares_le (a d : Nat) (ws : List Nat) : (ws.map (fun w => a * w / d)).sum ≤ a * ws.sum / d := by
  induction ws with
  | nil => exact Nat.zero_le _
  | cons w ws ih =>
    calc ((w :: ws).map (fun w => a * w / d)).sum
      _ ≤ a * w / d + a * ws.sum / d := Nat.add_le_add_left ih _
      _ ≤ a * (w :: ws).sum / d := by
        rw [List.sum_cons, Nat.mul_add]
        exact Nat.div_add_div_le_add_div

/-- The weight of a tile: its complexity and one. -/
def tileWeight (f : FrameSt) (rp : RendPlan) (p : RendPic) (x : TileSt) : Nat := tileCx f p.tiles.length rp x.col + 1

/-- A tile's share, by weight, of an amount that the tiles of its picture have in common. -/
def tileShare (amount : Nat) (f : FrameSt) (rp : RendPlan) (p : RendPic) (x : TileSt) : Nat :=
  amount * tileWeight f rp p x / max 1 ((p.tiles.map (tileWeight f rp p)).foldl (fun a v => a + v) 0)

/-- The cap of a tile: its last-resort bits and its share of what the buffer holds beyond the guard. -/
def tileCap (m : RcModel) (f : FrameSt) (rp : RendPlan) (p : RendPic) (x : TileSt) : Nat :=
  resBits p.tiles.length rp f.idr x.col 0 + tileShare (m.b - rp.hdrMax - rp.lrMax) f rp p x

theorem sum_tileShare_le (amount : Nat) (f : FrameSt) (rp : RendPlan) (p : RendPic) :
    (p.tiles.map (tileShare amount f rp p)).sum ≤ amount := by
  let ws := p.tiles.map (tileWeight f rp p)
  calc (p.tiles.map (tileShare amount f rp p)).sum
    _ = (ws.map (fun w => amount * w / max 1 ws.sum)).sum := by
      rw [List.sum_eq_foldl_nat (xs := ws), List.map_map]
      rfl
    _ ≤ amount * ws.sum / max 1 ws.sum := sum_shares_le amount _ ws
    _ ≤ amount * max 1 ws.sum / max 1 ws.sum := Nat.div_le_div_right (Nat.mul_le_mul_left _ (Nat.le_max_right 1 _))
    _ = amount := Nat.mul_div_cancel _ (by omega)

/-- Where LR_MAX covers the last-resort bits of the tiles and the buffer the guard, the caps leave room for HDR_MAX. -/
theorem sum_tileCap_le {m : RcModel} {f : FrameSt} {rp : RendPlan} {p : RendPic}
    (hlr : sumTo p.tiles.length (fun i => resBits p.tiles.length rp f.idr i 0) ≤ rp.lrMax)
    (hcols : p.tiles.map (fun x => x.col) = List.range p.tiles.length) (hb : rp.hdrMax + rp.lrMax ≤ m.b) :
    (p.tiles.map (tileCap m f rp p)).sum + rp.hdrMax ≤ m.b := by
  have hres : (p.tiles.map (fun x => resBits p.tiles.length rp f.idr x.col 0)).sum ≤ rp.lrMax := by
    rw [sumTo_eq_sum, ← hcols, List.map_map] at hlr
    exact hlr
  have hshares := sum_tileShare_le (m.b - rp.hdrMax - rp.lrMax) f rp p
  have hsum : (p.tiles.map (tileCap m f rp p)).sum =
      (p.tiles.map (fun x => resBits p.tiles.length rp f.idr x.col 0)).sum +
        (p.tiles.map (tileShare (m.b - rp.hdrMax - rp.lrMax) f rp p)).sum := sum_map_add ..
  omega

/-! ### RATE_DECISION (R170, R171, R173) -/

/-- A picture as a rate decision for `p` leaves it. -/
def decidedPic (c : Chan) (n : Nat) (f : FrameSt) (rp : RendPlan) (p q : RendPic) : RendPic :=
  let m := modelFor c f rp
  let x := rateOf c f n rp m
  { q with
    decided := true
    b := m.b
    a := arrival rp.rate f.k f.grid
    target := x.1
    qi := x.2
    tiles := q.tiles.map (fun y => { y with cap := tileCap m f rp p y, soft := tileShare (x.1 - rp.hdrMax) f rp p y }) }

/-- The device before the picture of a rate decision changes: its model entered and shown, a quantiser at its limit counted. -/
def modelEntered (s : State) (n : Nat) (f : FrameSt) (rp : RendPlan) : State :=
  let m := modelFor (chan s n) f rp
  onlyIf ((rateOf (chan s n) f n rp m).2 = (qLimits f n rp.id).2) (showModel (putModel s n m) n m)
    (fun s => setEvt (count s (CH_QMAX_CNT n)) (CH_RC_EVT n) 1)

theorem decideRate_eq (s : State) (n : Nat) (f : FrameSt) (rp : RendPlan) (p : RendPic) :
    decideRate s n f rp p =
      endUnstarted (modPic (modelEntered s n f rp) n f.j rp.id (decidedPic (chan s n) n f rp p)) n f.j rp.id := rfl

theorem modelEntered_chans (s : State) (n : Nat) (f : FrameSt) (rp : RendPlan) :
    (modelEntered s n f rp).chans = (putModel s n (modelFor (chan s n) f rp)).chans := by
  rw [modelEntered, onlyIf_chans, showModel_chans]
  rw [setEvt_chans, count_chans]

/-- After a rate decision every picture of that rendition and place is the decided one; none of its tiles ends at once where some row is
coded normally. -/
theorem mem_rends_decideRate {f : FrameSt} {rp : RendPlan} {p : RendPic} (hn : n < s.chans.length)
    (honly : ∀ x ∈ (chan s n).frames, x.j = f.j → ∀ z ∈ x.rends, z.id = rp.id → z = p) (hrescue : p.rescue ≠ some 0)
    {x : FrameSt} {y : RendPic} (hx : x ∈ (chan (decideRate s n f rp p) n).frames) (hj : x.j = f.j) (hy : y ∈ x.rends)
    (hid : y.id = rp.id) : y = decidedPic (chan s n) n f rp p p := by
  let u := modPic (modelEntered s n f rp) n f.j rp.id (decidedPic (chan s n) n f rp p)
  have hdecided : ∀ x ∈ (chan u n).frames, x.j = f.j → ∀ y ∈ x.rends, y.id = rp.id → y = decidedPic (chan s n) n f rp p p := by
    intro x hx hj y hy hid
    have hlen : n < (modelEntered s n f rp).chans.length := by rwa [modelEntered_chans, putModel_chans_length]
    obtain ⟨x', hx', hj', z, hz, hzid, rfl⟩ := mem_rends_modPic hlen hx hj hy hid
    rw [chan_congr (modelEntered_chans s n f rp), chan_putModel_frames _ hn] at hx'
    rw [honly x' hx' hj' z hz hzid]
  have hstays : decideRate s n f rp p = u := by
    rw [decideRate_eq]
    refine endUnstarted_of_rescue_ne_zero fun x y hx hy => ?_
    rw [hdecided x (List.mem_of_find?_eq_some hx) (by simpa using List.find?_some hx) y (List.mem_of_find?_eq_some hy)
      (by simpa using List.find?_some hy)]
    exact hrescue
  exact hdecided x (hstays ▸ hx) hj y hy hid

/-- Members of a list are told apart by what differs throughout it. -/
theorem eq_of_nodup_map {α β : Type} {k : α → β} {xs : List α} (hnodup : (xs.map k).Nodup) {x y : α} (hx : x ∈ xs) (hy : y ∈ xs)
    (h : k x = k y) : x = y := by
  induction xs with
  | nil => cases hx
  | cons z zs ih =>
    rw [List.map_cons, List.nodup_cons] at hnodup
    obtain ⟨hz, hzs⟩ := hnodup
    obtain rfl | hx' := List.mem_cons.1 hx
    · obtain rfl | hy' := List.mem_cons.1 hy
      · rfl
      · exact absurd (h ▸ List.mem_map_of_mem hy') hz
    · obtain rfl | hy' := List.mem_cons.1 hy
      · exact absurd (h ▸ List.mem_map_of_mem hx') hz
      · exact ih hzs hx' hy'

/-- Where frames differ in their places and the pictures of a frame in their renditions, the picture found is the only one of its kind. -/
theorem oldestPic_unique {q : RendPic → Bool} {f : FrameSt} {rp : RendPlan} {p : RendPic} (h : oldestPic s n r q = some (f, rp, p))
    (hplaces : ((chan s n).frames.map (fun z => z.j)).Nodup) (hids : (f.rends.map (fun z => z.id)).Nodup) :
    ∀ x ∈ (chan s n).frames, x.j = f.j → ∀ z ∈ x.rends, z.id = rp.id → z = p := by
  obtain ⟨hf, hrp, hp, hpid⟩ := oldestPic_mem h
  intro x hx hj z hz hzid
  obtain rfl := eq_of_nodup_map hplaces hx hf hj
  exact eq_of_nodup_map hids hz hp (by rw [hzid, hrp, hpid])

section
variable {f : FrameSt} {rp : RendPlan} {p : RendPic} (hr : runs s) (hn : n < 16) (hrend : r < 40)
include hr hn hrend

theorem exec_rateDecision_notStarted (h : oldestPic s n r (fun p => !p.decided) = some (f, rp, p)) (hstart : f.started = false) :
    exec (.rateDecision n r) s = .next s := by
  show execRateDecision n r s = _
  rw [execRateDecision, decide_eq_true hn, decide_eq_true hrend, Bool.and_self, act_run hr]
  simp only [h, hstart, Bool.false_and, Bool.false_eq_true, if_false]
  rw [keepStores_self]

theorem exec_rateDecision_due (h : oldestPic s n r (fun p => !p.decided) = some (f, rp, p)) (hstart : f.started = true)
    (hdead : (chan s n).dead = false) (hprev : previousSized s n r f.j = true) (hlook : lookaheadKnown (chan s n) f = true)
    (hfull : awaitsFull s n f = false) : exec (.rateDecision n r) s = .next (keepStores s (decideRate s n f rp p)) := by
  show execRateDecision n r s = _
  rw [execRateDecision, decide_eq_true hn, decide_eq_true hrend, Bool.and_self, act_run hr]
  simp only [h, hstart, hdead, hprev, hlook, hfull, Bool.not_false, Bool.and_self, if_true]

theorem exec_pictureSized_due (h : oldestPic s n r (fun p => !p.sized) = some (f, rp, p)) (hverified : p.verified = true)
    (hnotice : noticeIn s n f = true) : exec (.pictureSized n r) s = .next (keepStores s (sizePicture s n f rp p)) := by
  show execPictureSized n r s = _
  rw [execPictureSized, decide_eq_true hn, decide_eq_true hrend, Bool.and_self, act_run hr]
  simp only [h, hverified, hnotice, Bool.and_self, if_true]

end

/-! ### The filler unit (R177) -/

/-- The bytes that cover the bits from `b` to `lo`. -/
def bytesShort (b lo : Int) : Nat := ((lo - b + 7).fdiv 8).toNat

theorem bytesShort_le_iff (b lo : Int) (u : Nat) : bytesShort b lo ≤ u ↔ lo - b ≤ 8 * (u : Int) := by
  rw [bytesShort, Int.fdiv_eq_ediv_of_nonneg _ (by decide)]
  omega

theorem bytesShort_mul_le {b lo : Int} (h : b < lo) : 8 * (bytesShort b lo : Int) ≤ lo - b + 7 := by
  rw [bytesShort, Int.fdiv_eq_ediv_of_nonneg _ (by decide)]
  omega

/-- A filler unit has three to six bytes besides its payload. -/
theorem fillerUnit_bounds (codec q : Nat) : q + 3 ≤ fillerUnit codec q ∧ fillerUnit codec q ≤ q + 6 := by
  unfold fillerUnit
  repeat' split
  all_goals omega

theorem fillerUnit_mono (codec : Nat) {q q' : Nat} (h : q ≤ q') : fillerUnit codec q ≤ fillerUnit codec q' := by
  unfold fillerUnit
  repeat' split
  all_goals omega

/-- An empty unit has three bytes. -/
theorem fillerUnit_zero (codec : Nat) : fillerUnit codec 0 = 3 := by
  unfold fillerUnit
  repeat' split
  all_goals omega

/-- The payload is the least whose unit covers what is short. -/
theorem fillerPayload_least {codec q : Nat} {b lo : Int} (h : fillerPayload codec b lo = some q) :
    b < lo ∧ bytesShort b lo ≤ fillerUnit codec q ∧
      ∀ pl, bytesShort b lo ≤ fillerUnit codec pl → fillerUnit codec q ≤ fillerUnit codec pl := by
  unfold fillerPayload at h
  split at h
  · cases h
  · next hlo =>
    replace h : ((List.range' (bytesShort b lo - 6) 7).find? (fun p => bytesShort b lo ≤ fillerUnit codec p)).getD
        (bytesShort b lo) = q := by
      rw [List.range'_eq_map_range]
      exact Option.some.inj h
    refine ⟨by omega, ?_⟩
    cases hfind : (List.range' (bytesShort b lo - 6) 7).find? (fun p => bytesShort b lo ≤ fillerUnit codec p) with
    | none =>
      have hlast := List.find?_range'_eq_none.1 hfind (bytesShort b lo - 6 + 6) (by omega) (by omega)
      have := (fillerUnit_bounds codec (bytesShort b lo - 6 + 6)).1
      simp only [Bool.not_eq_true', decide_eq_false_iff_not] at hlast
      omega
    | some q' =>
      obtain rfl : q' = q := by rwa [hfind] at h
      obtain ⟨hq, -, hfirst⟩ := List.find?_range'_eq_some.1 hfind
      refine ⟨of_decide_eq_true hq, fun pl hpl => fillerUnit_mono codec (Nat.le_of_not_lt fun hlt => ?_)⟩
      have hpl' := hfirst pl (by have := (fillerUnit_bounds codec pl).2; omega) (by omega)
      simp only [Bool.not_eq_true', decide_eq_false_iff_not] at hpl'
      omega

theorem fillerPayload_none {codec : Nat} {b lo : Int} (h : fillerPayload codec b lo = none) : lo ≤ b := by
  unfold fillerPayload at h
  split at h
  · assumption
  · cases h

/-- The unit is at most three bytes longer than what is short. -/
theorem fillerUnit_le_short {codec q : Nat} {b lo : Int} (h : fillerPayload codec b lo = some q) :
    fillerUnit codec q ≤ bytesShort b lo + 3 := by
  obtain ⟨-, -, hleast⟩ := fillerPayload_least h
  by_cases hshort : bytesShort b lo ≤ 3
  · have := hleast 0 (by rwa [fillerUnit_zero])
    rw [fillerUnit_zero] at this
    omega
  · obtain ⟨hmin, hmax⟩ := fillerUnit_bounds codec (bytesShort b lo - 3)
    have := hleast (bytesShort b lo - 3) (by omega)
    omega

theorem leb128_length_le (k v : Nat) : (leb128 k v).length ≤ k := by
  induction k generalizing v with
  | zero => exact Nat.le_refl 0
  | succ k ih =>
    unfold leb128
    split
    · simp
    · simpa using ih _

theorem leb128_length_succ (k v : Nat) : (leb128 (k + 1) v).length = if v < 128 then 1 else (leb128 k (v / 128)).length + 1 := by
  rw [leb128]
  split <;> rfl

theorem leb128_length_pos (k v : Nat) : 0 < (leb128 (k + 1) v).length := by
  rw [leb128_length_succ]
  split <;> omega

/-- The bytes of a filler unit are those that R177 counts, but for a size of more than four bytes, which has at most eight. -/
theorem fillerPart_length (codec : Nat) (f : FrameSt) (q : Nat) :
    fillerUnit codec q ≤ (fillerPart codec f q).2.length ∧ (fillerPart codec f q).2.length ≤ fillerUnit codec q + 4 := by
  by_cases hc : codec = 2
  · have hlen : (fillerPart codec f q).2.length = q + 2 + (leb128 8 (q + 1)).length := by
      simp only [fillerPart, if_pos hc, List.length_append, List.length_cons, List.length_nil, List.length_replicate,
        Nat.zero_add]
      omega
    have hmin : 0 < (leb128 5 ((q + 1) / 128 / 128 / 128)).length := leb128_length_pos 4 _
    have hmax := leb128_length_le 5 ((q + 1) / 128 / 128 / 128)
    rw [hlen, fillerUnit, if_pos hc, leb128_length_succ 7, leb128_length_succ 6, leb128_length_succ 5]
    repeat' split
    all_goals omega
  · have hlen : (fillerPart codec f q).2.length = q + 3 := by
      simp only [fillerPart, if_neg hc, partUnit, nalUnit]
      split <;> simp only [List.length_append, List.length_cons, List.length_nil, List.length_replicate] <;> omega
    rw [hlen, fillerUnit, if_neg hc]
    omega

/-! ### The size of a picture (R168, R177) -/

theorem partsLength_append (xs ys : List (Part × List Byte)) : partsLength (xs ++ ys) = partsLength xs + partsLength ys := by
  have hsum (zs : List (Part × List Byte)) : partsLength zs = (zs.map (fun x => x.2.length)).sum := by
    rw [partsLength, List.sum_eq_foldl_nat, List.foldl_map]
  rw [hsum, hsum, hsum, List.map_append, List.sum_append]

/-- The bits of an access unit before filler. -/
def accessBits (c : Chan) (f : FrameSt) (rp : RendPlan) (p : RendPic) : Nat :=
  8 * partsLength (accessUnit f rp p (modelFor c f rp).b0 (modelFor c f rp).sinceBp)

/-- The bits below which a picture in CBR would let the buffer overflow. -/
def leastBits (rp : RendPlan) (p : RendPic) : Int := (p.b : Int) + p.a - ((rp.cpb : Int) - 1)

/-- The filler unit of a picture, if any: in CBR alone. -/
def padParts (c : Chan) (f : FrameSt) (rp : RendPlan) (p : RendPic) : List (Part × List Byte) :=
  ((if rp.mode = 1 then fillerPayload rp.codec (accessBits c f rp p) (leastBits rp p) else none).map (fillerPart rp.codec f)).toList

/-- The bits of a picture with its filler. -/
def paddedBits (c : Chan) (f : FrameSt) (rp : RendPlan) (p : RendPic) : Nat := accessBits c f rp p + 8 * partsLength (padParts c f rp p)

/-- The fullness with which the next picture is decided. -/
def nextFill (c : Chan) (f : FrameSt) (rp : RendPlan) (p : RendPic) : Nat :=
  if rp.mode = 1 then p.b - paddedBits c f rp p + p.a else min (p.b - paddedBits c f rp p + p.a) (rp.cpb - 1)

/-- A picture that a sizing leaves: sized, with its bits, its filler and the fullness after it. -/
def sizedAs (c : Chan) (f : FrameSt) (rp : RendPlan) (p y : RendPic) : Prop :=
  y.sized = true ∧ y.bits = paddedBits c f rp p ∧ y.filler = 8 * partsLength (padParts c f rp p) ∧ y.cpbNext = nextFill c f rp p

/-- Of the channel pipes a sizing changes a model and the picture. -/
theorem sizePicture_chans (s : State) (n : Nat) (f : FrameSt) (rp : RendPlan) (p : RendPic) :
    ∃ m y, (sizePicture s n f rp p).chans = (modPic (putModel s n m) n f.j rp.id (fun _ => y)).chans ∧ sizedAs (chan s n) f rp p y := by
  unfold sizePicture
  extract_lets m nb unit raw pad unit' fill b bn bn' al e m' y s1 s2 s3 s4 s5 s6 x
  have hfill : fill = partsLength (padParts (chan s n) f rp p) := by
    show partsLength (unit ++ padParts (chan s n) f rp p) - 8 * partsLength unit / 8 = _
    rw [partsLength_append]
    omega
  have hb : b = paddedBits (chan s n) f rp p := congrArg (raw + 8 * ·) hfill
  refine ⟨m', y, ?_, rfl, hb, congrArg (8 * ·) hfill, ?_⟩
  · have hshown : s6.chans = s2.chans := by
      rw [onlyIf_chans _ (by rw [setEvt_chans, count_chans, count_chans]), wr_chans, wr_chans, wr_chans, showModel_chans]
    split
    · split
      · rw [putRecord_chans, hshown]
      · rw [setEvt_chans, count_chans, putRecord_chans, hshown]
    · exact hshown
  · show (if rp.mode = 1 then p.b - b + p.a else min (p.b - b + p.a) (rp.cpb - 1)) = _
    rw [hb, nextFill]

/-- After a sizing every picture of that rendition and place is the sized one. -/
theorem mem_rends_sizePicture {f : FrameSt} {rp : RendPlan} {p : RendPic} (hn : n < s.chans.length) {x : FrameSt} {y : RendPic}
    (hx : x ∈ (chan (sizePicture s n f rp p) n).frames) (hj : x.j = f.j) (hy : y ∈ x.rends) (hid : y.id = rp.id) :
    sizedAs (chan s n) f rp p y := by
  obtain ⟨m, y', hchans, hsized⟩ := sizePicture_chans s n f rp p
  rw [chan_congr hchans] at hx
  obtain ⟨-, -, -, -, -, -, rfl⟩ := mem_rends_modPic (by rwa [putModel_chans_length]) hx hj hy hid
  exact hsized

/-! ### The buffer after a picture (R168, R177) -/

section
variable {c : Chan} {f : FrameSt} {rp : RendPlan} {p : RendPic}

theorem padParts_eq_nil (h : rp.mode ≠ 1) : padParts c f rp p = [] := by
  rw [padParts, if_neg h]
  rfl

/-- In CBR a picture reaches the least bits and exceeds them, or its access unit, by less than 64. -/
theorem paddedBits_bounds (h : rp.mode = 1) :
    leastBits rp p ≤ (paddedBits c f rp p : Int) ∧
      (paddedBits c f rp p = accessBits c f rp p ∨ (paddedBits c f rp p : Int) ≤ leastBits rp p + 63) := by
  unfold paddedBits padParts
  rw [if_pos h]
  cases hpad : fillerPayload rp.codec (accessBits c f rp p) (leastBits rp p) with
  | none => exact ⟨fillerPayload_none hpad, Or.inl rfl⟩
  | some q =>
    obtain ⟨hlt, hreach, -⟩ := fillerPayload_least hpad
    have hcover := (bytesShort_le_iff _ _ _).1 hreach
    have hshort := bytesShort_mul_le hlt
    have hunit := fillerUnit_le_short hpad
    obtain ⟨hmin, hmax⟩ := fillerPart_length rp.codec f q
    have hlen : partsLength ((some q).map (fillerPart rp.codec f)).toList = (fillerPart rp.codec f q).2.length := Nat.zero_add _
    rw [hlen]
    omega

/-- A picture whose access unit fits B_k fits it with its filler, where A_k is at least 65 below the buffer size. -/
theorem paddedBits_le (hfits : accessBits c f rp p ≤ p.b) (ha : p.a + 65 ≤ rp.cpb) : paddedBits c f rp p ≤ p.b := by
  by_cases hmode : rp.mode = 1
  · have hbounds := (paddedBits_bounds (c := c) (f := f) (p := p) hmode).2
    unfold leastBits at hbounds
    omega
  · rw [paddedBits, padParts_eq_nil hmode]
    exact hfits

/-- So the next fullness is at least A_k and at most the buffer size less 1. -/
theorem nextFill_bounds (hfits : accessBits c f rp p ≤ p.b) (ha : p.a + 65 ≤ rp.cpb) :
    p.a ≤ nextFill c f rp p ∧ nextFill c f rp p + 1 ≤ rp.cpb := by
  have hle := paddedBits_le hfits ha
  unfold nextFill
  split
  · next hmode =>
    have hleast := (paddedBits_bounds (c := c) (f := f) (p := p) hmode).1
    unfold leastBits at hleast
    omega
  · omega

end

end Sys2Proof.Machine
end

section
/-!
The statement about the buffer of a rendition (spec/06_rate_control.md).
-/
open Sys2Proof Sys2Proof.Machine

/-- Settles O26: a decision gives each tile its last-resort bits and a share of what the buffer holds beyond the guard; a picture that fits
B_k fits it with its filler, which exceeds the least bits by less than 64. How filler and coded sizes are framed are the model's choices
(log entries 11, 42 and 66). -/
theorem theModelBufferNeverFails : Obligations.TheModelBufferNeverFails := by
  refine ⟨fun n r f rp p s hr hn hrend hlen hpic => ⟨exec_rateDecision_notStarted hr hn hrend hpic,
      fun hstart hdead hprev hlook hfull hrescue hlr hcols hguard hplaces hids => ?_⟩,
    fun n r f rp p s hr hn hrend => ⟨exec_rateDecision_due hr hn hrend, exec_pictureSized_due hr hn hrend⟩,
    fun n r f rp p s hr hn hrend hlen hpic hverified hnotice => ?_, fun codec q b lo hpad => ?_⟩
  · refine ⟨_, exec_rateDecision_due hr hn hrend hpic hstart hdead hprev hlook hfull, keepsStores_keepStores .., ?_⟩
    intro x hx hj y hy hid
    obtain rfl := mem_rends_decideRate hlen (oldestPic_unique hpic hplaces hids) hrescue hx hj hy hid
    refine ⟨rfl, rfl, rfl, rfl, ?_⟩
    simpa only [decidedPic, List.map_map, Function.comp_def] using sum_tileCap_le hlr hcols hguard
  · intro m g hunit _ _ htiles hga ha
    refine ⟨_, exec_pictureSized_due hr hn hrend hpic hverified hnotice, keepsStores_keepStores .., ?_⟩
    intro x hx hj y hy hid
    obtain ⟨hsized, hbits, hfiller, hnext⟩ := mem_rends_sizePicture hlen hx hj hy hid
    have hfits : accessBits (chan s n) f rp p ≤ p.b := Nat.le_trans hunit htiles
    have hle := paddedBits_le hfits ha
    obtain ⟨hleast, hmost⟩ := nextFill_bounds hfits ha
    rw [hbits, hfiller, hnext]
    refine ⟨hsized, hle, Nat.le_trans hga hleast, hmost, fun hmode => ?_, fun hmode => by rw [padParts_eq_nil hmode]; rfl⟩
    rw [nextFill, if_pos hmode]
    omega
  · obtain ⟨hlt, hreach, hleast⟩ := fillerPayload_least hpad
    exact ⟨hlt, (bytesShort_le_iff _ _ _).1 hreach, fun pl hpl => hleast pl ((bytesShort_le_iff _ _ _).2 hpl)⟩
end

section
/-!
SUPPORT. What composition and scaling give: planes written from their own samples, positions that no layer covers, samples at the unit
ratio (R217, R221, R223).
-/
namespace Sys2Proof.Machine

/-! ### Planes -/

theorem clamp10_bounds (x : Int) : 0 ≤ clamp10 x ∧ clamp10 x ≤ 1023 := by
  unfold clamp10
  omega

/-- The nearest index to one inside is that index. -/
theorem nearest_of_lt {n x : Nat} (h : x < n) : nearest n x = x := by
  unfold nearest
  omega

/-- The sample at a position inside a plane stands in row order. -/
theorem smp_of_lt {p : Plane} {x y : Nat} (hx : x < p.w) (hy : y < p.h) : smp p x y = (p.px.getD (y * p.w + x) 0 : Nat) := by
  rw [smp, sampleAt, nearest_of_lt hx, nearest_of_lt hy]

/-- A plane written from its own samples is itself. -/
theorem planeOf_eq_self {p : Plane} {w h : Nat} {f : Nat → Nat → Int} (hw : p.w = w) (hh : p.h = h)
    (hlen : p.px.length = p.w * p.h) (hf : ∀ x y : Nat, f x y = smp p x y) : planeOf w h f = p := by
  obtain ⟨pw, ph, px⟩ := p
  obtain rfl : pw = w := hw
  obtain rfl : ph = h := hh
  replace hlen : px.length = pw * ph := hlen
  suffices hpx : (positions pw ph).map (fun q => (f q.1 q.2).toNat) = px by rw [planeOf, hpx]
  refine List.ext_getElem (by simp [positions, hlen]) fun i hi hi' => ?_
  have hin : i < pw * ph := hlen ▸ hi'
  have hpos : 0 < pw := Nat.pos_of_lt_mul_right hin
  have hmax : max 1 pw = pw := Nat.max_eq_right hpos
  have hcol : i % pw < pw := Nat.mod_lt _ hpos
  have hrow : i / pw < ph := Nat.div_lt_of_lt_mul hin
  simp only [positions, List.getElem_map, List.getElem_range, hmax, hf]
  rw [smp_of_lt (p := ⟨pw, ph, px⟩) hcol hrow, Int.toNat_natCast, Nat.mul_comm, Nat.div_add_mod]
  rw [List.getD_eq_getElem?_getD, List.getElem?_eq_getElem hi', Option.getD_some]

/-! ### The clear path (R217, R221) -/

/-- A layer that is disabled or not ready covers no position. -/
theorem at_eq_none {l : LayerIn} (h : l.enabled = false ∨ l.ready = false) (x y : Nat) : l.at_ x y = none := by
  unfold LayerIn.at_
  rcases h with h | h <;> simp [h]

/-- Layers that cover nothing leave a sample as it is and its position clear. -/
theorem blendAll_eq_self {ls : List LayerIn} (h : ∀ l ∈ ls, l.enabled = false ∨ l.ready = false) (x y : Nat) (d : Rgb) :
    blendAll ls x y d = (d, true) := by
  unfold blendAll
  induction ls with
  | nil => rfl
  | cons l ls ih =>
    rw [List.foldl_cons, at_eq_none (h l List.mem_cons_self)]
    exact ih fun k hk => h k (List.mem_cons_of_mem _ hk)

/-- What holds of every entry and of the default holds of any entry taken. -/
theorem getD_of_forall {α : Type} {p : α → Prop} {l : List α} {d : α} (h : ∀ x ∈ l, p x) (hd : p d) (i : Nat) : p (l.getD i d) := by
  rw [List.getD_eq_getElem?_getD]
  cases hi : l[i]? with
  | none => exact hd
  | some x => exact h x (List.mem_of_getElem? hi)

/-- A picture without a layer that takes part is composed to itself. -/
theorem compose422_eq_self {inp : Picture} {m0 mo : List Int} {ls : List LayerIn} (hls : ∀ l ∈ ls, l.enabled = false ∨ l.ready = false)
    (hy : inp.y.px.length = inp.y.w * inp.y.h) (hbw : inp.cb.w = inp.y.w / 2) (hbh : inp.cb.h = inp.y.h)
    (hrw : inp.cr.w = inp.y.w / 2) (hrh : inp.cr.h = inp.y.h) (hb : inp.cb.px.length = inp.cb.w * inp.cb.h)
    (hr : inp.cr.px.length = inp.cr.w * inp.cr.h) : compose422 inp m0 mo ls = inp := by
  unfold compose422
  extract_lets w h cell cells get clear chroma
  have hcells : ∀ c ∈ cells, c.2 = true := by
    intro c hc
    obtain ⟨q, -, rfl⟩ := List.mem_map.1 hc
    exact congrArg Prod.snd (blendAll_eq_self hls ..)
  have hclear : ∀ x y, clear x y = true := fun x y => getD_of_forall hcells rfl _
  have hchroma : ∀ (src : Plane) (sel : Rgb → Int), src.w = w / 2 → src.h = h → src.px.length = src.w * src.h → chroma src sel = src :=
    fun src sel hw hh hlen => planeOf_eq_self hw hh hlen fun x y => by simp only [hclear, Bool.and_self, if_true]
  clear_value chroma clear get
  have hluma := planeOf_eq_self rfl rfl hy (f := fun x y => if clear x y then smp inp.y x y else (get x y).1.1)
    fun x y => by simp only [hclear, if_true]
  rw [hluma, hchroma _ _ hbw hbh hb, hchroma _ _ hrw hrh hr]

/-! ### The unit ratio (R223) -/

/-- Luma positions at the unit ratio: the sample itself, phase 0. -/
theorem pos64_unit {S : Nat} (hS : 0 < S) (x : Nat) : pos64 S S x 1 0 1 0 = 64 * (x : Int) := by
  have hnum : 64 * (((2 * 1 * x + 0 + 1 : Nat) : Int) * S - (1 + (0 : Nat)) * S) + (1 : Nat) * S = S + (64 * (x : Int)) * (2 * S) := by
    push_cast
    grind
  have hden : 2 * ((1 : Nat) : Int) * S = 2 * S := by simp
  rw [pos64, hnum, hden, Int.fdiv_eq_ediv_of_nonneg _ (by omega), Int.add_mul_ediv_right _ _ (by omega),
    Int.ediv_eq_zero_of_lt (by omega) (by omega), Int.zero_add]

end Sys2Proof.Machine
end

section
/-!
SUPPORT. The monitor output's link: fields and bits of a register through a write, and what each step of the link writes (R233, R234).
-/
namespace Sys2Proof.Machine

variable {s t : State}

/-! ### Bits and fields of a word through a write -/

/-- A field depends on its bits alone. -/
theorem fld_congr {v w : Word} {hi lo : Nat} (h : ∀ i, lo ≤ i → i ≤ hi → tbit v i = tbit w i) : fld v hi lo = fld w hi lo := by
  apply Nat.eq_of_testBit_eq
  intro i
  rw [fld_testBit, fld_testBit]
  by_cases hi' : i < hi + 1 - lo
  · rw [show v.getLsbD (lo + i) = w.getLsbD (lo + i) from h (lo + i) (by omega) (by omega)]
  · simp [hi']

/-- A field is 0 where all its bits are. -/
theorem fld_eq_zero_iff {v : Word} {hi lo : Nat} : fld v hi lo = 0 ↔ ∀ i, lo ≤ i → i ≤ hi → tbit v i = false := by
  constructor
  · intro h i hlo hhi
    have hbit := fld_testBit v hi lo (i - lo)
    rw [h, Nat.zero_testBit, Nat.add_sub_cancel' hlo, decide_eq_true (by omega), Bool.true_and] at hbit
    exact hbit.symm
  · intro h
    apply Nat.eq_of_testBit_eq
    intro i
    rw [fld_testBit, Nat.zero_testBit]
    by_cases hi' : i < hi + 1 - lo
    · rw [show v.getLsbD (lo + i) = false from h (lo + i) (by omega) (by omega), Bool.and_false]
    · simp [hi']

theorem rdBit_congr {r : Reg} (h : rd t r = rd s r) (i : Nat) : rdBit t r i = rdBit s r i := congrArg (tbit · i) h

theorem rdFld_congr {r : Reg} (h : rd t r = rd s r) (hi lo : Nat) : rdFld t r hi lo = rdFld s r hi lo := congrArg (fld · hi lo) h

/-- A field reads what was put into it. -/
theorem rdFld_wrFld_self (s : State) (r : Reg) {hi lo x : Nat} (hhi : hi < 32) (hx : x < 2 ^ (hi + 1 - lo)) :
    rdFld (wrFld s r hi lo x) r hi lo = x := by
  rw [rdFld, wrFld, rd_wr_self, fld_setFld_self _ hhi hx]

/-- A bit outside a field keeps its value when the field is written. -/
theorem rdBit_wrFld_out (s : State) (r : Reg) {hi lo x i : Nat} (hi32 : i < 32) (h : i < lo ∨ hi < i) :
    rdBit (wrFld s r hi lo x) r i = rdBit s r i := by
  rw [rdBit, wrFld, rd_wr_self, tbit, setFld_getLsbD _ _ _ _ hi32, if_neg (by omega), rdBit, tbit]

/-! ### The link goes down and trains (R234) -/

theorem sameElse_dpDown (s : State) : sameElse s (dpDown s) [DPO_STAT.addr] := sameElse_wr s DPO_STAT _

/-- Of the link's state only HPD stays when it goes down. -/
theorem rdFld_dpDown (s : State) : rdFld (dpDown s) DPO_STAT 6 1 = 0 := rdFld_wrFld_self s DPO_STAT (by decide) (by decide)

theorem rdBit_dpDown_hpd (s : State) : rdBit (dpDown s) DPO_STAT 0 = rdBit s DPO_STAT 0 :=
  rdBit_wrFld_out s DPO_STAT (by decide) (by decide)

theorem sameElse_dpTrain (s : State) : sameElse s (dpTrain s) ([DPO_STAT.addr] ++ [DPO_TRAIN_CNT.addr]) :=
  sameElse_trans (sameElse_dpDown s) (sameElse_wr _ DPO_TRAIN_CNT _)

/-- A training starts from a link that is down. -/
theorem rd_dpTrain_stat (s : State) : rd (dpTrain s) DPO_STAT = rd (dpDown s) DPO_STAT := rd_count_ne (dpDown s) (by decide)

/-- It is counted once. -/
theorem rd_dpTrain_cnt (s : State) : rd (dpTrain s) DPO_TRAIN_CNT = satInc (rd s DPO_TRAIN_CNT) := by
  rw [dpTrain, rd_emit, rd_count_self, sameElse_dpDown s DPO_TRAIN_CNT (by decide)]

theorem sameElse_dpLost (s : State) : sameElse s (dpLost s) [DPO_EVT.addr] := by
  unfold dpLost onlyIf
  split
  · exact sameElse_wr s DPO_EVT _
  · exact sameElse_of_regs_eq rfl _

/-- A link that was up and is lost sets LINK_LOST, beside the events already set. -/
theorem rdBit_dpLost_evt (h : rdBit s DPO_STAT 1 = true) : rdBit (dpLost s) DPO_EVT 3 = true := by
  rw [dpLost, h]
  exact rdBit_setEvt s DPO_EVT 3 (by decide)

theorem rdBit_dpLost_of_ne {i : Nat} (hi : i < 32) (h : i ≠ 3) : rdBit (dpLost s) DPO_EVT i = rdBit s DPO_EVT i := by
  unfold dpLost onlyIf
  split
  · exact rdBit_wrBit_ne s DPO_EVT true hi (by decide) h
  · rfl

/-! ### HPD_ASSERT and HPD_LOSS -/

/-- A monitor is connected, before any training. -/
def hpdShown (s : State) : State := setEvt (wrBit s DPO_STAT 0 true) DPO_EVT 0

theorem sameElse_hpdShown (s : State) : sameElse s (hpdShown s) ([DPO_STAT.addr] ++ [DPO_EVT.addr]) :=
  sameElse_trans (sameElse_wr s DPO_STAT _) (sameElse_wr _ DPO_EVT _)

theorem rdBit_hpdShown (s : State) : rdBit (hpdShown s) DPO_STAT 0 = true := by
  rw [hpdShown, setEvt, rdBit_congr (rd_wrBit_ne _ _ _ (by decide)), rdBit_wrBit_self _ _ _ _ (by decide)]

theorem rdBit_hpdShown_evt (s : State) : rdBit (hpdShown s) DPO_EVT 0 = true := rdBit_setEvt _ DPO_EVT 0 (by decide)

theorem exec_hpdAssert_connected (hr : runs s) (h : rdBit s DPO_STAT 0 = true) : exec .hpdAssert s = .next s := by
  show execHpdAssert s = _
  rw [execHpdAssert, act_run hr, if_pos h, keepStores_self]

theorem exec_hpdAssert (hr : runs s) (h : rdBit s DPO_STAT 0 = false) :
    exec .hpdAssert s = .next (keepStores s (if rdBit s DPO_CTL 0 then dpTrain (hpdShown s) else hpdShown s)) := by
  have hctl : rdBit (hpdShown s) DPO_CTL 0 = rdBit s DPO_CTL 0 := rdBit_congr (sameElse_hpdShown s DPO_CTL (by decide)) 0
  rw [← hctl]
  show execHpdAssert s = _
  rw [execHpdAssert, act_run hr, if_neg (by simp [h])]
  rfl

/-- HPD is shown, and with EN set a training starts and is counted. -/
theorem hpdAssert_shows (hr : runs s) (h : rdBit s DPO_STAT 0 = false) :
    ∃ t, exec .hpdAssert s = .next t ∧ rdBit t DPO_STAT 0 = true ∧ rdBit t DPO_EVT 0 = true ∧
      rd t DPO_TRAIN_CNT = (if rdBit s DPO_CTL 0 then satInc (rd s DPO_TRAIN_CNT) else rd s DPO_TRAIN_CNT) ∧
      sameElse s t [DPO_STAT.addr, DPO_EVT.addr, DPO_TRAIN_CNT.addr] ∧ keepsStores s t := by
  have hcnt : rd (hpdShown s) DPO_TRAIN_CNT = rd s DPO_TRAIN_CNT := sameElse_hpdShown s DPO_TRAIN_CNT (by decide)
  refine ⟨_, exec_hpdAssert hr h, ?_⟩
  by_cases hen : rdBit s DPO_CTL 0 = true
  · rw [if_pos hen, if_pos hen]
    refine ⟨?_, ?_, ?_, fun r hr' => ?_, keepsStores_keepStores ..⟩
    · rw [rdBit_keepStores, rdBit_congr (rd_dpTrain_stat _), rdBit_dpDown_hpd, rdBit_hpdShown]
    · rw [rdBit_keepStores, rdBit_congr (sameElse_dpTrain _ DPO_EVT (by decide)), rdBit_hpdShown_evt]
    · rw [rd_keepStores, rd_dpTrain_cnt, hcnt]
    · rw [rd_keepStores, sameElse_dpTrain _ r (by simp_all), sameElse_hpdShown s r (by simp_all)]
  · rw [if_neg hen, if_neg hen]
    exact ⟨rdBit_hpdShown s, rdBit_hpdShown_evt s, hcnt, fun r hr' => sameElse_hpdShown s r (by simp_all), keepsStores_keepStores ..⟩

theorem exec_hpdLoss_disconnected (hr : runs s) (h : rdBit s DPO_STAT 0 = false) : exec .hpdLoss s = .next s := by
  show execHpdLoss s = _
  rw [execHpdLoss, act_run hr, if_neg (by simp [h]), keepStores_self]

/-- The link is down and HPD no longer shown. -/
def hpdCleared (s : State) : State := dpDown (wrBit (dpLost s) DPO_STAT 0 false)

theorem sameElse_hpdCleared (s : State) : sameElse s (hpdCleared s) ([DPO_EVT.addr] ++ ([DPO_STAT.addr] ++ [DPO_STAT.addr])) :=
  sameElse_trans (sameElse_dpLost s) (sameElse_trans (sameElse_wr _ DPO_STAT _) (sameElse_dpDown _))

/-- HPD and the link's state read 0. -/
theorem rdFld_hpdCleared (s : State) : rdFld (hpdCleared s) DPO_STAT 6 0 = 0 := by
  have hdown := fld_eq_zero_iff.1 (rdFld_dpDown (wrBit (dpLost s) DPO_STAT 0 false))
  have hhpd : rdBit (hpdCleared s) DPO_STAT 0 = false := by
    rw [hpdCleared, rdBit_dpDown_hpd, rdBit_wrBit_self _ _ _ _ (by decide)]
  refine fld_eq_zero_iff.2 fun i _ hi => ?_
  rcases Nat.eq_zero_or_pos i with rfl | hpos
  · exact hhpd
  · exact hdown i hpos hi

theorem rdBit_hpdCleared_evt (s : State) (i : Nat) : rdBit (hpdCleared s) DPO_EVT i = rdBit (dpLost s) DPO_EVT i := by
  rw [hpdCleared, rdBit_congr (sameElse_dpDown _ DPO_EVT (by decide)), rdBit_congr (rd_wrBit_ne _ _ _ (by decide))]

theorem exec_hpdLoss (hr : runs s) (h : rdBit s DPO_STAT 0 = true) :
    exec .hpdLoss s = .next (keepStores s (setEvt (hpdCleared s) DPO_EVT 0)) := by
  show execHpdLoss s = _
  rw [execHpdLoss, act_run hr, if_pos h, hpdCleared]

/-- The link goes down with HPD; where it was up its loss is an event too. -/
theorem hpdLoss_clears (hr : runs s) (h : rdBit s DPO_STAT 0 = true) :
    ∃ t, exec .hpdLoss s = .next t ∧ rdFld t DPO_STAT 6 0 = 0 ∧ rdBit t DPO_EVT 0 = true ∧
      (rdBit s DPO_STAT 1 = true → rdBit t DPO_EVT 3 = true) ∧ sameElse s t [DPO_STAT.addr, DPO_EVT.addr] ∧ keepsStores s t := by
  have hevt : sameElse (hpdCleared s) (setEvt (hpdCleared s) DPO_EVT 0) [DPO_EVT.addr] := sameElse_wr _ DPO_EVT _
  refine ⟨_, exec_hpdLoss hr h, ?_, ?_, fun hup => ?_, fun r hr' => ?_, keepsStores_keepStores ..⟩
  · exact (rdFld_congr (hevt DPO_STAT (by decide)) 6 0).trans (rdFld_hpdCleared s)
  · exact rdBit_setEvt _ DPO_EVT 0 (by decide)
  · rw [rdBit_keepStores, setEvt, rdBit_wrBit_ne _ _ _ (by decide) (by decide) (by decide), rdBit_hpdCleared_evt, rdBit_dpLost_evt hup]
  · rw [rd_keepStores, hevt r (by simp_all), sameElse_hpdCleared s r (by simp_all)]

/-! ### IRQ_HPD -/

theorem exec_irqHpd_disconnected (hr : runs s) (h : rdBit s DPO_STAT 0 = false) (lost : Bool) : exec (.irqHpd lost) s = .next s := by
  show execIrqHpd lost s = _
  rw [execIrqHpd, act_run hr, if_neg (by simp [h]), keepStores_self]

theorem exec_irqHpd_linkKept (hr : runs s) (h : rdBit s DPO_STAT 0 = true) :
    exec (.irqHpd false) s = .next (keepStores s (setEvt s DPO_EVT 1)) := by
  show execIrqHpd false s = _
  rw [execIrqHpd, act_run hr, if_pos h]
  rfl

theorem exec_irqHpd_linkLost (hr : runs s) (h : rdBit s DPO_STAT 0 = true) (hen : rdBit s DPO_CTL 0 = true) :
    exec (.irqHpd true) s = .next (keepStores s (dpTrain (dpLost (setEvt s DPO_EVT 1)))) := by
  have hctl : rdBit (setEvt s DPO_EVT 1) DPO_CTL 0 = true := (rdBit_congr (rd_wrBit_ne s 1 true (by decide)) 0).trans hen
  show execIrqHpd true s = _
  rw [execIrqHpd, act_run hr, if_pos h]
  simp only [hctl, Bool.and_self, if_true]

/-- A lost link trains again. -/
theorem irqHpd_retrains (hr : runs s) (h : rdBit s DPO_STAT 0 = true) (hen : rdBit s DPO_CTL 0 = true) :
    ∃ t, exec (.irqHpd true) s = .next t ∧ rdBit t DPO_EVT 1 = true ∧ rdFld t DPO_STAT 6 1 = 0 ∧
      rd t DPO_TRAIN_CNT = satInc (rd s DPO_TRAIN_CNT) ∧ keepsStores s t := by
  refine ⟨_, exec_irqHpd_linkLost hr h hen, ?_, ?_, ?_, keepsStores_keepStores ..⟩
  · rw [rdBit_keepStores, rdBit_congr (sameElse_dpTrain _ DPO_EVT (by decide)), rdBit_dpLost_of_ne (by decide) (by decide),
      rdBit_setEvt _ _ _ (by decide)]
  · exact (rdFld_congr (rd_dpTrain_stat _) 6 1).trans (rdFld_dpDown _)
  · rw [rd_keepStores, rd_dpTrain_cnt, sameElse_dpLost _ DPO_TRAIN_CNT (by decide), setEvt, rd_wrBit_ne _ _ _ (by decide)]

/-! ### A training ends (R233, R234) -/

/-- Video goes at 10 bits: the rate carries the canvas and BPC8 does not ask for 8. -/
def dpTen (s : State) (rate : Nat) : Bool := dpCarries (rdFld s DPO_CANVAS 1 0) rate false && !rdBit s DPO_CTL 1

/-- Video goes at some depth. -/
def dpSends (s : State) (rate : Nat) : Bool := dpTen s rate || dpCarries (rdFld s DPO_CANVAS 1 0) rate true

theorem dpVideo_sends {rate : Nat} (h : dpSends s rate = true) :
    dpVideo s rate = emit (wrBit (wrBit s DPO_STAT 4 (!dpTen s rate)) DPO_STAT 6 true) (.dpVideo rate (!dpTen s rate)) := if_pos h

theorem dpVideo_short {rate : Nat} (h : dpSends s rate = false) (hshort : rate = 0 ∨ rdFld s DPO_CANVAS 1 0 ≠ 0) :
    dpVideo s rate = setEvt (wrBit s DPO_STAT 5 true) DPO_EVT 4 :=
  (if_neg (by rw [← dpTen, ← dpSends, h]; decide)).trans (if_pos (by simpa using hshort))

theorem dpVideo_noCanvas {rate : Nat} (h : dpSends s rate = false) (hshort : ¬(rate = 0 ∨ rdFld s DPO_CANVAS 1 0 ≠ 0)) :
    dpVideo s rate = s :=
  (if_neg (by rw [← dpTen, ← dpSends, h]; decide)).trans (if_neg (by simpa using hshort))

/-- Of the link's state video changes the depth, LINK_SHORT and whether it is sent. -/
theorem rdBit_dpVideo_below (s : State) (rate : Nat) {i : Nat} (hi : i < 4) :
    rdBit (dpVideo s rate) DPO_STAT i = rdBit s DPO_STAT i := by
  by_cases hsends : dpSends s rate = true
  · rw [dpVideo_sends hsends]
    refine (rdBit_wrBit_ne _ DPO_STAT _ (by omega) (by decide) (by omega)).trans ?_
    exact rdBit_wrBit_ne _ DPO_STAT _ (by omega) (by decide) (by omega)
  · replace hsends := Bool.eq_false_iff.2 hsends
    by_cases hshort : rate = 0 ∨ rdFld s DPO_CANVAS 1 0 ≠ 0
    · rw [dpVideo_short hsends hshort, setEvt, rdBit_congr (rd_wrBit_ne _ _ _ (by decide)),
        rdBit_wrBit_ne _ _ _ (by omega) (by decide) (by omega)]
    · rw [dpVideo_noCanvas hsends hshort]

theorem rdFld_dpVideo_rate (s : State) (rate : Nat) : rdFld (dpVideo s rate) DPO_STAT 3 2 = rdFld s DPO_STAT 3 2 :=
  fld_congr fun _ _ hi => rdBit_dpVideo_below s rate (by omega)

/-- On a link without video it is sent where the rate carries the canvas, and there alone. -/
theorem rdBit_dpVideo_sent {rate : Nat} (hoff : rdBit s DPO_STAT 6 = false) :
    rdBit (dpVideo s rate) DPO_STAT 6 = dpSends s rate := by
  by_cases hsends : dpSends s rate = true
  · rw [dpVideo_sends hsends, hsends]
    exact rdBit_wrBit_self _ DPO_STAT 6 true (by decide)
  · replace hsends := Bool.eq_false_iff.2 hsends
    rw [hsends]
    by_cases hshort : rate = 0 ∨ rdFld s DPO_CANVAS 1 0 ≠ 0
    · rw [dpVideo_short hsends hshort, setEvt, rdBit_congr (rd_wrBit_ne _ _ _ (by decide)),
        rdBit_wrBit_ne _ _ _ (by decide) (by decide) (by decide), hoff]
    · rw [dpVideo_noCanvas hsends hshort, hoff]

theorem dpVideo_depth {rate : Nat} (h : dpSends s rate = true) :
    rdBit (dpVideo s rate) DPO_STAT 4 = (!dpTen s rate) ∧ (dpVideo s rate).out = .dpVideo rate (!dpTen s rate) :: s.out := by
  rw [dpVideo_sends h]
  refine ⟨?_, rfl⟩
  refine (rdBit_wrBit_ne _ DPO_STAT true (by decide) (by decide) (by decide)).trans ?_
  exact rdBit_wrBit_self s DPO_STAT 4 _ (by decide)

theorem dpVideo_linkShort {rate : Nat} (h : dpSends s rate = false) (hshort : rate = 0 ∨ rdFld s DPO_CANVAS 1 0 ≠ 0) :
    rdBit (dpVideo s rate) DPO_STAT 5 = true ∧ rdBit (dpVideo s rate) DPO_EVT 4 = true := by
  rw [dpVideo_short h hshort]
  refine ⟨?_, rdBit_setEvt _ DPO_EVT 4 (by decide)⟩
  rw [setEvt, rdBit_congr (rd_wrBit_ne _ _ _ (by decide)), rdBit_wrBit_self _ _ _ _ (by decide)]

/-- A link trained at a rate, 0 for none, before video. -/
def linkTrained (s : State) (rate : Nat) : State :=
  if rate = 0 then s else setEvt (wrFld (wrBit s DPO_STAT 1 true) DPO_STAT 3 2 rate) DPO_EVT 2

theorem dpTrained_eq (s : State) (rate : Nat) : dpTrained s rate = dpVideo (linkTrained s rate) rate := rfl

theorem sameElse_linkTrained (s : State) (rate : Nat) :
    sameElse s (linkTrained s rate) ([DPO_STAT.addr] ++ ([DPO_STAT.addr] ++ [DPO_EVT.addr])) := by
  unfold linkTrained
  split
  · exact sameElse_of_regs_eq rfl _
  · exact sameElse_trans (sameElse_wr s DPO_STAT _) (sameElse_trans (sameElse_wr _ DPO_STAT _) (sameElse_wr _ DPO_EVT _))

theorem linkTrained_out (s : State) (rate : Nat) : (linkTrained s rate).out = s.out := by
  unfold linkTrained
  split <;> rfl

/-- What video goes does not depend on the link's state. -/
theorem dpTen_linkTrained (s : State) (rate : Nat) : dpTen (linkTrained s rate) rate = dpTen s rate := by
  rw [dpTen, dpTen, rdFld_congr (sameElse_linkTrained s rate DPO_CANVAS (by decide)),
    rdBit_congr (sameElse_linkTrained s rate DPO_CTL (by decide))]

theorem dpSends_linkTrained (s : State) (rate : Nat) : dpSends (linkTrained s rate) rate = dpSends s rate := by
  rw [dpSends, dpSends, dpTen_linkTrained, rdFld_congr (sameElse_linkTrained s rate DPO_CANVAS (by decide))]

/-- From a link that is down the rate is shown, the link is up at any rate but 0, and no video goes yet. -/
theorem linkTrained_shows {rate : Nat} (hdown : rdFld s DPO_STAT 6 1 = 0) (hrate : rate < 4) :
    rdFld (linkTrained s rate) DPO_STAT 3 2 = rate ∧ rdBit (linkTrained s rate) DPO_STAT 1 = (rate != 0) ∧
      rdBit (linkTrained s rate) DPO_STAT 6 = false := by
  have hbits := fld_eq_zero_iff.1 hdown
  by_cases h0 : rate = 0
  · rw [linkTrained, if_pos h0, h0]
    exact ⟨fld_eq_zero_iff.2 fun i _ _ => hbits i (by omega) (by omega), hbits 1 (by decide) (by decide), hbits 6 (by decide) (by decide)⟩
  · have hstat : rd (linkTrained s rate) DPO_STAT = rd (wrFld (wrBit s DPO_STAT 1 true) DPO_STAT 3 2 rate) DPO_STAT := by
      rw [linkTrained, if_neg h0, setEvt, rd_wrBit_ne _ _ _ (by decide)]
    rw [rdFld_congr hstat, rdBit_congr hstat, rdBit_congr hstat]
    refine ⟨rdFld_wrFld_self _ DPO_STAT (by decide) hrate, ?_, ?_⟩
    · rw [rdBit_wrFld_out _ _ (by decide) (by decide), rdBit_wrBit_self _ _ _ _ (by decide)]
      simp [h0]
    · rw [rdBit_wrFld_out _ _ (by decide) (by decide), rdBit_wrBit_ne _ _ _ (by decide) (by decide) (by decide)]
      exact hbits 6 (by decide) (by decide)

theorem exec_dpTrainingDone (hr : runs s) {r : Fin 4} (hhpd : rdBit s DPO_STAT 0 = true) (hen : rdBit s DPO_CTL 0 = true)
    (hdown : rdFld s DPO_STAT 6 1 = 0) (hmax : r.val ≤ dpMaxRate s) :
    exec (.dpTrainingDone r) s = .next (keepStores s (dpVideo (linkTrained s r) r)) := by
  show execDpTrainingDone r s = _
  rw [execDpTrainingDone, act_run hr]
  simp only [hhpd, hen, hdown, hmax, decide_true, Bool.and_self, if_true, dpTrained_eq]

/-! ### DPO_CTL_WRITE -/

/-- A write of CTL keeps EN, which lies in its writable bits. -/
theorem tbit_and_ctlMask (v : Word) : tbit (v &&& 0xF) 0 = tbit v 0 := by simp [tbit]

theorem exec_dpoCtlWrite_off (hr : runs s) {v : Word} (h : tbit v 0 = false) :
    exec (.dpoCtlWrite v) s = .next (keepStores s (dpDown (wr s DPO_CTL (v &&& 0xF)))) := by
  show execDpoCtlWrite v s = _
  rw [execDpoCtlWrite, act_run hr]
  simp only [tbit_and_ctlMask, h, Bool.not_false, if_true]

theorem exec_dpoCtlWrite_retrain (hr : runs s) {v : Word} (h : tbit v 0 = true) (hhpd : rdBit s DPO_STAT 0 = true)
    (hnew : rd s DPO_CTL ≠ v &&& 0xF) :
    exec (.dpoCtlWrite v) s = .next (keepStores s (dpTrain (wr s DPO_CTL (v &&& 0xF)))) := by
  have hhpd' : rdBit (wr s DPO_CTL (v &&& 0xF)) DPO_STAT 0 = true := (rdBit_congr (rd_wr_ne s _ (by decide)) 0).trans hhpd
  show execDpoCtlWrite v s = _
  rw [execDpoCtlWrite, act_run hr]
  simp only [tbit_and_ctlMask, h, Bool.not_true, Bool.false_eq_true, hhpd', hnew, ne_eq, not_false_eq_true, decide_true, Bool.and_self,
    if_true, if_false]

end Sys2Proof.Machine
end

section
/-!
SUPPORT. What a descriptor that finishes writes of its queue: ACTIVE is shown afresh from the queue's working state (R370, R390).
-/
namespace Sys2Proof.Machine

variable {s : State}

theorem queueSt_putQueue {x : QueueSt} {q : Nat} (h : x.qid = q) : queueSt (putQueue s x) q = x := by
  simp [queueSt, queueOf, putQueue, h]

theorem noteWritable_regs (s : State) (q : Nat) : (noteWritable s q).regs = s.regs := by
  unfold noteWritable
  dsimp only
  split <;> rfl

/-- ACTIVE reads 1 where the queue is enabled, drains or has descriptors outstanding, whatever it read before (R370). -/
theorem rdBit_showQueue_active (s : State) (q : Nat) :
    rdBit (showQueue s q) (Q_QSTAT q) 0 = (qEn s q || qDraining s q || (queueSt s q).outst.length != 0) := by
  unfold showQueue
  extract_lets o s1 s2 tot held
  have hen : qEn s1 q = qEn s q := congrArg (tbit · 0) (rd_wrFld_ne s 22 16 o (by simp only [Q_QSTAT, Q_QCTL]; omega))
  have hdrain : qDraining s1 q = qDraining s q := by
    rw [qDraining, rdBit, show s1 = wrFld s (Q_QSTAT q) 22 16 o from rfl, wrFld, rd_wr_self, tbit, setFld_getLsbD _ _ _ _ (by decide)]
    rfl
  rw [rdBit, rd_wrFld_ne _ _ _ _ (by simp only [Q_QSTAT, QUE_HELD]; omega),
    rd_wrFld_ne _ _ _ _ (by simp only [Q_QSTAT, QUE_OUTSTANDING]; omega)]
  exact (rdBit_wrBit_self s1 (Q_QSTAT q) 0 _ (by decide)).trans (by rw [hen, hdrain])

theorem queueSt_qid (s : State) (q : Nat) : (queueSt s q).qid = q := by
  unfold queueSt queueOf
  cases h : s.queues.find? (fun x => x.qid = q) with
  | none => rfl
  | some x => simpa using List.find?_some h

/-- A descriptor that finishes stays outstanding: its queue shows ACTIVE as before it, whatever QSTAT read. -/
theorem rdBit_finish_active (s : State) (q slot status : Nat) (result : List Byte) :
    rdBit (finish s q slot status result) (Q_QSTAT q) 0 = (qEn s q || qDraining s q || (queueSt s q).outst.length != 0) := by
  rw [finish, modOutst, rdBit_congr (rd_congr (noteWritable_regs ..) _), rdBit_showQueue_active, queueSt_putQueue, List.length_map]
  · rfl
  · exact queueSt_qid s q

/-- A disabled queue with nothing outstanding, whose QSTAT still shows ACTIVE, while channel 15 copies a plane for it into buffer 3 of
layer 7. -/
def staleActive : State :=
  wr (modChan State.reset 15 (fun c => { c with loading := [(7, 3, 2, 1, 32767, 0)] })) (Q_QSTAT 32767) 1

theorem exec_planeLoadDone_staleActive : exec (.planeLoadDone 15 7 3 none) staleActive =
    .next (keepStores staleActive (planeLoaded staleActive 15 7 3 2 1 32767 0 none)) := rfl

/-- The copy's end takes ACTIVE of the queue away. -/
theorem planeLoaded_staleActive : rdBit (planeLoaded staleActive 15 7 3 2 1 32767 0 none) (Q_QSTAT 32767) 0 = false :=
  (rdBit_finish_active ..).trans (by decide +kernel)

end Sys2Proof.Machine
end

section
/-!
The statements about composition and the monitor output (spec/08_composition_scaling.md).
-/
open Sys2Proof Sys2Proof.Machine

/-- Settles O29: where no layer covers a position every position is clear, and each plane is written from its own samples. -/
theorem compositionAndScaling : Obligations.CompositionAndScaling := by
  refine ⟨fun inp m0 mo ls hls hy hbw hbh hrw hrh hb hr => compose422_eq_self hls hy hbw hbh hrw hrh hb hr, fun inp m0 mo ls => rfl,
    fun m v => ?_, fun coef taps src p => clamp10_bounds _, fun S x hS => pos64_unit hS x⟩
  exact ⟨(clamp10_bounds _).1, (clamp10_bounds _).2, (clamp10_bounds _).1, (clamp10_bounds _).2, clamp10_bounds _⟩

/-- Refutes O30: over every running state, PLANE_LOAD_DONE is to change no register but the layer's STAT; but the descriptor that finishes
with it has QSTAT of its queue shown afresh, so a state whose QSTAT shows ACTIVE of a disabled queue with nothing outstanding loses that
bit. -/
theorem not_picturesComposedScaledAndShown : ¬ Obligations.PicturesComposedScaledAndShown := by
  rintro ⟨-, -, -, -, -, hdone, -⟩
  obtain ⟨⟨t, ht, -, -, -, hsame, -⟩, -⟩ :=
    hdone 15 7 3 2 1 32767 0 staleActive rfl (by decide) (by decide) (by decide) (by decide) (by decide) (by decide)
  have hstays : rdBit t (Q_QSTAT 32767) 0 = true :=
    (rdBit_congr (hsame (Q_QSTAT 32767) (by decide)) 0).trans (by rw [staleActive, rdBit, rd_wr_self]; decide)
  rw [exec_planeLoadDone_staleActive] at ht
  cases ht
  exact absurd (planeLoaded_staleActive.symm.trans hstays) (by decide)

/-- Settles O31: each command runs to its next state, whose STAT, EVT and CTL are read bit by bit. The readings of R234 and
R242 and the outcome of a training are the model's choices (log entries 47 and 62). -/
theorem monitorLink : Obligations.MonitorLink := by
  intro s hr
  refine ⟨exec_hpdAssert_connected hr, hpdAssert_shows hr,
    fun h => ⟨exec_hpdLoss_disconnected hr h, exec_irqHpd_disconnected hr h⟩,
    fun h => ⟨hpdLoss_clears hr h, ?_, irqHpd_retrains hr h, fun r hen hdown hmax => ?_⟩, fun v hv => ?_, fun v hv hhpd hnew => ?_⟩
  · exact ⟨_, exec_irqHpd_linkKept hr h, rdBit_setEvt s DPO_EVT 1 (by decide), sameElse_wr s DPO_EVT _, keepsStores_keepStores ..⟩
  · obtain ⟨hrate, hup, hoff⟩ := linkTrained_shows hdown r.isLt
    have hten := dpTen_linkTrained s r
    have hsends := dpSends_linkTrained s r
    refine ⟨_, exec_dpTrainingDone hr h hen hdown hmax, ?_, ?_, keepsStores_keepStores .., ?_, fun h' => ?_, fun h' hshort => ?_⟩
    · exact (rdFld_dpVideo_rate _ _).trans hrate
    · exact (rdBit_dpVideo_below _ _ (by decide)).trans hup
    · exact (rdBit_dpVideo_sent hoff).trans hsends
    · obtain ⟨hdepth, hout⟩ := dpVideo_depth (hsends.trans h')
      rw [hten] at hdepth hout
      rw [linkTrained_out] at hout
      exact ⟨hdepth, hout⟩
    · rw [← rdFld_congr (sameElse_linkTrained s r DPO_CANVAS (by decide))] at hshort
      exact dpVideo_linkShort (hsends.trans h') hshort
  · refine ⟨_, exec_dpoCtlWrite_off hr hv, ?_, rdFld_dpDown _, ?_, ?_, keepsStores_keepStores ..⟩
    · rw [rd_keepStores, sameElse_dpDown _ DPO_CTL (by decide), rd_wr_self]
    · rw [rdBit_keepStores, rdBit_dpDown_hpd, rdBit_congr (rd_wr_ne s _ (by decide))]
    · exact sameElse_keepStores (sameElse_trans (sameElse_wr s DPO_CTL _) (sameElse_dpDown _))
  · refine ⟨_, exec_dpoCtlWrite_retrain hr hv hhpd hnew, ?_, ?_, keepsStores_keepStores ..⟩
    · rw [rd_keepStores, sameElse_dpTrain _ DPO_CTL (by decide), rd_wr_self]
    · rw [rd_keepStores, rd_dpTrain_cnt, rd_wr_ne _ _ (by decide)]
end

section
/-!
SUPPORT. The descriptors of a queue: what handing one over and finishing one write, and what they leave as it is (R370, R372, R377).
-/
namespace Sys2Proof.Machine

variable {s t : State}

theorem noteWritable_eq (s : State) (q : Nat) : ∃ w, noteWritable s q = { s with writable := w } := by
  unfold noteWritable
  dsimp only
  split
  · exact ⟨_, rfl⟩
  · exact ⟨_, rfl⟩

theorem showQueue_eq (s : State) (q : Nat) : ∃ regs, showQueue s q = { s with regs := regs } := by
  unfold showQueue wrBit wrFld wr
  exact ⟨_, rfl⟩

/-- Of the state a change of a queue's descriptors writes registers, the queues' working states and the order of completions. -/
theorem modOutst_eq (s : State) (q : Nat) (f : List Outst → List Outst) :
    ∃ regs w, modOutst s q f =
      { putQueue s { queueSt s q with outst := f (queueSt s q).outst } with regs := regs, writable := w } := by
  obtain ⟨regs, hshow⟩ := showQueue_eq (putQueue s { queueSt s q with outst := f (queueSt s q).outst }) q
  rw [modOutst, hshow]
  obtain ⟨w, hnote⟩ := noteWritable_eq { putQueue s { queueSt s q with outst := f (queueSt s q).outst } with regs := regs } q
  exact ⟨regs, w, hnote⟩

theorem queueSt_congr (h : t.queues = s.queues) (q : Nat) : queueSt t q = queueSt s q := by
  rw [queueSt, queueSt, queueOf, queueOf, h]

section
variable (s : State) (q : Nat) (f : List Outst → List Outst)

@[simp] theorem modOutst_raw : (modOutst s q f).raw = s.raw := by obtain ⟨_, _, h⟩ := modOutst_eq s q f; rw [h]; rfl

@[simp] theorem modOutst_streams : (modOutst s q f).streams = s.streams := by obtain ⟨_, _, h⟩ := modOutst_eq s q f; rw [h]; rfl

@[simp] theorem modOutst_resends : (modOutst s q f).resends = s.resends := by obtain ⟨_, _, h⟩ := modOutst_eq s q f; rw [h]; rfl

@[simp] theorem modOutst_ports : (modOutst s q f).ports = s.ports := by obtain ⟨_, _, h⟩ := modOutst_eq s q f; rw [h]; rfl

@[simp] theorem modOutst_out : (modOutst s q f).out = s.out := by obtain ⟨_, _, h⟩ := modOutst_eq s q f; rw [h]; rfl

theorem sameElse_showQueue : sameElse s (showQueue s q) [(Q_QSTAT q).addr, QUE_OUTSTANDING.addr, QUE_HELD.addr] := by
  intro r hr
  simp only [List.mem_cons, List.not_mem_nil, or_false, not_or] at hr
  obtain ⟨hstat, hout, hheld⟩ := hr
  rw [showQueue, rd_wrFld_ne _ _ _ _ hheld, rd_wrFld_ne _ _ _ _ hout, rd_wrBit_ne _ _ _ hstat, rd_wrFld_ne _ _ _ _ hstat]

theorem sameElse_modOutst : sameElse s (modOutst s q f) [(Q_QSTAT q).addr, QUE_OUTSTANDING.addr, QUE_HELD.addr] := by
  intro r hr
  rw [modOutst, rd_congr (noteWritable_regs ..), sameElse_showQueue _ q r hr]
  rfl

theorem queueSt_modOutst : queueSt (modOutst s q f) q = { queueSt s q with outst := f (queueSt s q).outst } := by
  obtain ⟨_, _, h⟩ := modOutst_eq s q f
  rw [h]
  exact (queueSt_congr (s := putQueue s _) rfl q).trans (queueSt_putQueue (queueSt_qid s q))

end

section
variable (s : State) (q slot status : Nat) (result : List Byte)

@[simp] theorem finish_streams : (finish s q slot status result).streams = s.streams := modOutst_streams ..

@[simp] theorem finish_ports : (finish s q slot status result).ports = s.ports := modOutst_ports ..

@[simp] theorem finish_out : (finish s q slot status result).out = s.out := modOutst_out ..

theorem sameElse_finish :
    sameElse s (finish s q slot status result) [(Q_QSTAT q).addr, QUE_OUTSTANDING.addr, QUE_HELD.addr] :=
  sameElse_modOutst s q _

/-- A descriptor outstanding without a completion has one once it finishes. -/
theorem exists_done_of_finish {o : Outst} (ho : o ∈ (queueSt s q).outst) (hdone : o.done = none) :
    ∃ o' ∈ (queueSt (finish s q o.slot status result) q).outst,
      o'.slot = o.slot ∧ o'.done = some (BitVec.ofNat 8 status, padTo 24 result) := by
  rw [finish, queueSt_modOutst]
  refine ⟨_, List.mem_map_of_mem ho, ?_⟩
  simp only [hdone, decide_true, Option.isNone_none, Bool.and_self, if_true, and_self]

@[simp] theorem markHanded_raw : (markHanded s q slot).raw = s.raw := modOutst_raw ..

@[simp] theorem markHanded_streams : (markHanded s q slot).streams = s.streams := modOutst_streams ..

@[simp] theorem markHanded_resends : (markHanded s q slot).resends = s.resends := modOutst_resends ..

end

/-- The next descriptor to hand over is handed to the unit that its opcode names. -/
theorem onCommand_of {q op : Nat} {o : Outst} (h : nextUnhanded s q = some o) (hop : o.opcode = op)
    (f : Outst → List Byte → State → State) :
    onCommand s q op f = f o (o.payload.getD []) (markHanded s q o.slot) := by
  simp only [onCommand, h, hop, if_true]

end Sys2Proof.Machine
end

section
/-!
SUPPORT. What a frame's results lead to on the link of a pair, once they are complete, leaves the output streams and their registers
as they are (R446, R447, R459).
-/
namespace Sys2Proof.Machine

variable {s t u : State}

/-- The output streams and the registers of their block stay as they are (R291). -/
def leavesStreams (s t : State) : Prop :=
  t.streams = s.streams ∧ ∀ r : Reg, 0x910000 ≤ r.addr → r.addr < 0x920000 → rd t r = rd s r

theorem leavesStreams_refl (s : State) : leavesStreams s s := ⟨rfl, fun _ _ _ => rfl⟩

theorem leavesStreams_trans (h : leavesStreams s t) (h' : leavesStreams t u) : leavesStreams s u :=
  ⟨h'.1.trans h.1, fun r hlo hhi => (h'.2 r hlo hhi).trans (h.2 r hlo hhi)⟩

theorem leavesStreams_of_eq (hs : t.streams = s.streams) (hr : t.regs = s.regs) : leavesStreams s t := ⟨hs, fun r _ _ => rd_congr hr r⟩

/-- A write below the streams' block. -/
theorem leavesStreams_wr (s : State) {r : Reg} (v : Word) (h : r.addr < 0x910000) : leavesStreams s (wr s r v) :=
  ⟨wr_streams .., fun _ hlo _ => rd_wr_ne s v (by omega)⟩

theorem leavesStreams_setEvt (s : State) {r : Reg} (i : Nat) (h : r.addr < 0x910000) : leavesStreams s (setEvt s r i) :=
  leavesStreams_wr s _ h

theorem leavesStreams_enter (s : State) (kind unit : Nat) (chs : List Nat) (lasting : Bool) (time : Raw) (data : Word) :
    leavesStreams s (enter s kind unit chs lasting time data) := leavesStreams_of_eq rfl rfl

theorem leavesStreams_modPair (s : State) (f : PairSt → PairSt) : leavesStreams s (modPair s f) := leavesStreams_of_eq rfl rfl

theorem leavesStreams_emit (s : State) (o : Output) : leavesStreams s (emit s o) := leavesStreams_of_eq rfl rfl

theorem leavesStreams_onlyIf {f : State → State} (b : Bool) (s : State) (h : leavesStreams s (f s)) : leavesStreams s (onlyIf b s f) := by
  cases b
  · exact leavesStreams_refl s
  · exact h

theorem leavesStreams_forEach {α : Type} {f : α → State → State} (h : ∀ x s, leavesStreams s (f x s)) (xs : List α) (s : State) :
    leavesStreams s (forEach xs s f) := by
  induction xs generalizing s with
  | nil => exact leavesStreams_refl s
  | cons x xs ih => exact leavesStreams_trans (h x s) (ih (f x s))

/-! ### Check values of a message (R427) -/

theorem leavesStreams_ckOpen (s : State) {i : Nat} (hi : i < 8) : leavesStreams s (ckOpen s i) := by
  refine leavesStreams_trans (leavesStreams_trans (leavesStreams_trans (leavesStreams_onlyIf _ _ (leavesStreams_wr s _ ?_))
    (leavesStreams_of_eq rfl rfl)) (leavesStreams_wr _ _ ?_)) (leavesStreams_wr _ _ ?_)
  all_goals simp only [CK_STAT, CK_RUNNING, CK_BYTES]; omega

theorem leavesStreams_ckFeed (s : State) {i : Nat} (hi : i < 8) (bs : List Byte) : leavesStreams s (ckFeed s i bs) := by
  unfold ckFeed
  split
  · exact leavesStreams_trans (leavesStreams_wr _ _ (by simp only [CK_RUNNING]; omega))
      (leavesStreams_wr _ _ (by simp only [CK_BYTES]; omega))
  · exact leavesStreams_refl s

theorem leavesStreams_ckClose (s : State) {i : Nat} (hi : i < 8) : leavesStreams s (ckClose s i) := by
  have hstat : (CK_STAT i).addr < 0x910000 := by simp only [CK_STAT]; omega
  have hevt : (CK_EVT i).addr < 0x910000 := by simp only [CK_EVT]; omega
  have hcounted (s : State) (r : Reg) (k : Nat) (hr : r.addr < 0x910000) : leavesStreams s (setEvt (count s r) (CK_EVT i) k) :=
    leavesStreams_trans (leavesStreams_wr s _ hr) (leavesStreams_wr _ _ hevt)
  unfold ckClose
  extract_lets k p v res msk mis aliveOn a j s1 s2 s3 s4 s5 s6 s7 s8
  have h1 : leavesStreams s s1 := leavesStreams_of_eq rfl rfl
  have h2 : leavesStreams s1 s2 := leavesStreams_trans (leavesStreams_wr _ _ (by simp only [CK_RESULT]; omega))
    (leavesStreams_wr _ _ (by simp only [CK_MSG_CNT]; omega))
  have h3 : leavesStreams s2 s3 := leavesStreams_wr _ _ hevt
  have h4 : leavesStreams s3 s4 := leavesStreams_trans (leavesStreams_trans (leavesStreams_wr _ _ hstat) (leavesStreams_wr _ _ hstat))
    (leavesStreams_wr _ _ hstat)
  have h5 : leavesStreams s4 s5 := leavesStreams_onlyIf _ _ (hcounted _ _ _ (by simp only [CK_MISMATCH_CNT]; omega))
  have h6 : leavesStreams s5 s6 := leavesStreams_onlyIf _ _ (hcounted _ _ _ (by simp only [CK_REPEAT_CNT]; omega))
  have h7 : leavesStreams s6 s7 := leavesStreams_onlyIf _ _ (hcounted _ _ _ (by simp only [CK_JUMP_CNT]; omega))
  have h8 : leavesStreams s7 s8 := leavesStreams_onlyIf _ _ (leavesStreams_trans (leavesStreams_wr _ _ hstat) (leavesStreams_wr _ _ hstat))
  exact leavesStreams_trans h1 (leavesStreams_trans h2 (leavesStreams_trans h3 (leavesStreams_trans h4 (leavesStreams_trans h5
    (leavesStreams_trans h6 (leavesStreams_trans h7 (leavesStreams_trans h8 (leavesStreams_onlyIf _ _ (leavesStreams_enter ..)))))))))

/-! ### Messages of the link (R437 to R439) -/

theorem leavesStreams_transmit (s : State) (m : MuleMsg) : leavesStreams s (transmit s m) := by
  unfold transmit
  extract_lets alive covered s1 s2
  have h1 : leavesStreams s s1 := leavesStreams_wr s _ (by decide)
  have h2 : leavesStreams s1 s2 := leavesStreams_trans (leavesStreams_trans (leavesStreams_ckOpen _ (by decide))
    (leavesStreams_ckFeed _ (by decide) _)) (leavesStreams_ckClose _ (by decide))
  exact leavesStreams_trans h1 (leavesStreams_trans h2 (leavesStreams_trans (leavesStreams_modPair ..) (leavesStreams_emit ..)))

theorem leavesStreams_sendMule (s : State) (type ch : Byte) (body : List Byte) : leavesStreams s (sendMule s type ch body) := by
  unfold sendMule sendWhere
  split
  · extract_lets m s1
    have h1 : leavesStreams s s1 := leavesStreams_of_eq rfl rfl
    exact leavesStreams_trans h1 (leavesStreams_trans (leavesStreams_wr s1 (r := MULE_TX_MSG) _ (by decide))
      (leavesStreams_transmit _ m))
  · exact leavesStreams_refl s

theorem leavesStreams_sendHealth (s : State) : leavesStreams s (sendHealth s) :=
  leavesStreams_trans (leavesStreams_sendMule s 0x30 0xFF (healthBody s))
    (leavesStreams_trans (leavesStreams_onlyIf _ _ (leavesStreams_wr _ _ (by decide))) (leavesStreams_of_eq rfl rfl))

/-! ### Eligibility (R448, R461) -/

theorem leavesStreams_putElig (s : State) : leavesStreams s (putElig s) := leavesStreams_wr s _ (by decide)

theorem leavesStreams_putCause (s : State) (n c : Nat) : leavesStreams s (putCause s n c) := by
  unfold putCause
  split
  · exact leavesStreams_wr s _ (by decide)
  · exact leavesStreams_wr s _ (by decide)

/-- A channel's cause changes, which the ledger and the other device are told. -/
def causeTold (s : State) (n c kind evt : Nat) (data : Word) : State :=
  sendHealth (setEvt (enter (putElig (putCause s n c)) kind n [n] false (putElig (putCause s n c)).raw data) MULE_EVT evt)

theorem leavesStreams_causeShown (s : State) (n c : Nat) : leavesStreams s (putElig (putCause s n c)) :=
  leavesStreams_trans (leavesStreams_putCause s n c) (leavesStreams_putElig _)

theorem leavesStreams_causeTold (s : State) (n c kind evt : Nat) (data : Word) : leavesStreams s (causeTold s n c kind evt data) := by
  have hshown := leavesStreams_causeShown s n c
  unfold causeTold
  generalize putElig (putCause s n c) = u at hshown
  have hentered : leavesStreams s (setEvt (enter u kind n [n] false u.raw data) MULE_EVT evt) :=
    leavesStreams_trans (leavesStreams_trans hshown (leavesStreams_enter ..)) (leavesStreams_setEvt _ _ (by decide))
  exact leavesStreams_trans hentered (leavesStreams_sendHealth _)

theorem leavesStreams_diverge (s : State) (n c : Nat) : leavesStreams s (diverge s n c) := by
  unfold diverge
  split
  · split
    · exact leavesStreams_causeTold s n c 0x0502 4 (wordOf c)
    · exact leavesStreams_causeShown s n c
  · exact leavesStreams_refl s

theorem leavesStreams_becomeEligible (s : State) (n k : Nat) : leavesStreams s (becomeEligible s n k) := by
  unfold becomeEligible
  split
  · exact leavesStreams_causeTold s n 0 0x0503 5 (wordOf k)
  · exact leavesStreams_refl s

/-! ### STATE and FULL (R446, R447, R459) -/

theorem leavesStreams_adoptAp (s : State) {a : ApState} (h : a.id < 8) : leavesStreams s (adoptAp s a) := by
  refine leavesStreams_trans (leavesStreams_trans (leavesStreams_trans (leavesStreams_trans (leavesStreams_wr s _ ?_)
    (leavesStreams_wr _ _ ?_)) (leavesStreams_wr _ _ ?_)) (leavesStreams_wr _ _ ?_)) (leavesStreams_wr _ _ ?_)
  all_goals simp only [AP_STAT, AP_SLIP_DROP, AP_SLIP_REP, AP_RELOCK_CNT]; omega

theorem leavesStreams_compareState (s : State) (n : Nat) (f : FrameSt) (b : StateBody) : leavesStreams s (compareState s n f b) := by
  unfold compareState
  extract_lets own inOk outOk s1 s2 s3 s4 s5 s6 c s7
  have h1 : leavesStreams s s1 := leavesStreams_onlyIf _ _ (leavesStreams_diverge ..)
  have h2 : leavesStreams s1 s2 := leavesStreams_onlyIf _ _ (leavesStreams_diverge ..)
  have h3 : leavesStreams s2 s3 := leavesStreams_wr s2 _ (by decide)
  have h4 : leavesStreams s3 s4 := leavesStreams_forEach (fun a s => by
    split
    · next ha => exact leavesStreams_adoptAp s ha
    · exact leavesStreams_refl s) ..
  have h6 : leavesStreams s s6 := leavesStreams_trans (leavesStreams_trans h1 (leavesStreams_trans h2 (leavesStreams_trans h3 h4)))
    (leavesStreams_of_eq rfl rfl)
  split
  · have h7 : leavesStreams s s7 := leavesStreams_trans h6 (leavesStreams_of_eq rfl rfl)
    split
    · exact leavesStreams_trans h7 (leavesStreams_becomeEligible ..)
    · exact h7
  · exact h6

theorem leavesStreams_sendFull (s : State) (n : Nat) : leavesStreams s (sendFull s n) := by
  unfold sendFull
  split
  · exact leavesStreams_refl s
  · split
    · exact leavesStreams_trans (leavesStreams_sendMule ..) (leavesStreams_of_eq rfl rfl)
    · exact leavesStreams_refl s

theorem leavesStreams_closeResults (s : State) (n j : Nat) : leavesStreams s (closeResults s n j) := by
  unfold closeResults
  split
  · exact leavesStreams_refl s
  · next f _ =>
    split
    · split
      · exact leavesStreams_trans (leavesStreams_sendMule ..) (leavesStreams_sendFull ..)
      · split
        · split
          · next x _ => exact leavesStreams_compareState s n f x.2
          · exact leavesStreams_refl s
        · exact leavesStreams_refl s
    · exact leavesStreams_refl s

end Sys2Proof.Machine
end

section
/-!
SUPPORT. UNIT_PACKAGED: the unit that a stream's share takes beside what it holds, with its sequence, its numbers and its bytes (R270,
R274, R275, R279, R287).
-/
namespace Sys2Proof.Machine

variable {s t : State} {i : Nat} {st : StreamSt}

/-! ### A stream found by its number -/

theorem streamOf_congr (h : t.streams = s.streams) (i : Nat) : streamOf t i = streamOf s i := by rw [streamOf, streamOf, h]

theorem id_of_streamOf (h : streamOf s i = some st) : st.id = i := by simpa using List.find?_some h

/-- A change that keeps a stream's number changes the stream found under it. -/
theorem streamOf_modStream_self {f : StreamSt → StreamSt} (hf : ∀ x, (f x).id = x.id) (h : streamOf s i = some st) :
    streamOf (modStream s i f) i = some (f st) := by
  have hid : (fun x : StreamSt => decide (x.id = i)) ∘ (fun x => if x.id = i then f x else x) = fun x => decide (x.id = i) := by
    funext x
    by_cases hx : x.id = i <;> simp [hx, hf]
  rw [streamOf] at h
  rw [streamOf, modStream, List.find?_map, hid, h, Option.map_some, if_pos (id_of_streamOf h)]

theorem streamDef_congr (h : rd t (STR_CFG st.id) = rd s (STR_CFG st.id)) (legacy : Bool) :
    streamDef t st legacy = streamDef s st legacy := by
  unfold streamDef strForm strPort
  rw [rdFld_congr h, rdFld_congr h]

/-! ### Numbers of two registers -/

theorem rd64_congr {lo hi : Reg} (hlo : rd t lo = rd s lo) (hhi : rd t hi = rd s hi) : rd64 t lo hi = rd64 s lo hi := by
  rw [rd64, rd64, hlo, hhi]

theorem rd64_wr64_self (s : State) {lo hi : Reg} (h : lo.addr ≠ hi.addr) (v : Nat) : rd64 (wr64 s lo hi v) lo hi = v % 2 ^ 64 := by
  rw [rd64, wr64, rd_wr_self, rd_wr_ne _ _ h, rd_wr_self, wordOf, wordOf, BitVec.toNat_ofNat, BitVec.toNat_ofNat]
  omega

theorem sameElse_wr64 (s : State) (lo hi : Reg) (v : Nat) : sameElse s (wr64 s lo hi v) [lo.addr, hi.addr] :=
  sameElse_trans (sameElse_wr s lo _) (sameElse_wr _ hi _)

/-! ### The share of a stream (R287) -/

/-- The bytes of the units that a stream holds. -/
abbrev heldBytes (st : StreamSt) : Nat := st.held.foldl (fun a x => a + x.bytes.length) 0

theorem evict_of_fits {share len : Nat} {held : List RetUnit} (h : held.foldl (fun a x => a + x.bytes.length) 0 + len ≤ share) :
    evict share len held = ([], held) := by
  cases held with
  | nil => rfl
  | cons u us => rw [evict, if_pos h]

theorem len_le_of_fits {share len : Nat} {held : List RetUnit} (h : held.foldl (fun a x => a + x.bytes.length) 0 + len ≤ share) :
    ¬ share < len := by omega

theorem showHeld_streams (s : State) (i : Nat) : (showHeld s i).streams = s.streams := by
  unfold showHeld
  split
  · rfl
  · simp only [wr64, wr_streams]

theorem sameElse_showHeld (s : State) (i : Nat) :
    sameElse s (showHeld s i) ([(STR_RET_FIRST_LO i).addr, (STR_RET_FIRST_HI i).addr] ++ [(STR_RET_SPAN i).addr]) := by
  unfold showHeld
  split
  · exact sameElse_of_regs_eq rfl _
  · exact sameElse_trans (sameElse_wr64 s (STR_RET_FIRST_LO i) (STR_RET_FIRST_HI i) _) (sameElse_wr _ (STR_RET_SPAN i) _)

/-! ### A unit put into a share (R270, R287) -/

/-- The unit that a stream's present definition makes of what a packaged unit brings. -/
def unitPut (st : StreamSt) (d : OldStream) (seq : Nat) (m : UnitMade) : RetUnit :=
  let n := datagramCount d.form m.bytes.length m.init.length
  { seq := seq, frame := m.frame, ptime := m.ptime, launch := m.launch, span := m.span, bytes := m.bytes
    flags := BitVec.ofNat 16 m.flags
    seq0 := if !usesSeq d.form then 0 else if st.freshNext then d.seqNext
      else d.seqNext - BitVec.ofNat 16 (datagramsAfter st m.launch m.frame.isSome)
    rtpTs := m.rtpTs, init := m.init, net := m.net, nDgrams := n, sent := ackedOf st seq n, acked := 0, crc := crc32c m.bytes
    form := d.form, port := d.port, fresh := st.freshNext, dead := false }

/-- The RTP number of a stream after a unit. -/
def seqAfter (st : StreamSt) (d : OldStream) (seq : Nat) (m : UnitMade) : BitVec 16 :=
  if usesSeq d.form then d.seqNext + BitVec.ofNat 16 (unitPut st d seq m).nDgrams else d.seqNext

/-- A stream's counters and its RTP number move on. -/
def movedOn (next : BitVec 16) (m : UnitMade) (x : StreamSt) : StreamSt :=
  { x with cc := m.cc, psiG := m.psiG, seqNext := next, freshNext := false }

/-- A stream's units held and the number its next datagram leaves with. -/
def holding (held : List RetUnit) (out : StreamSt → BitVec 16) (x : StreamSt) : StreamSt := { x with held := held, outSeq := out x }

/-- The unit sequence and the RTP number shown of a stream. -/
def numbered (s : State) (i seq : Nat) (next : BitVec 16) : State :=
  wr (wr64 s (STR_UNIT_NEXT_LO i) (STR_UNIT_NEXT_HI i) (seq + 1)) (STR_SEQ_NEXT i) (wordOf next.toNat)

theorem numbered_streams (s : State) (i seq : Nat) (next : BitVec 16) : (numbered s i seq next).streams = s.streams := by
  simp only [numbered, wr64, wr_streams]

theorem rd64_numbered (s : State) (i seq : Nat) (next : BitVec 16) :
    rd64 (numbered s i seq next) (STR_UNIT_NEXT_LO i) (STR_UNIT_NEXT_HI i) = (seq + 1) % 2 ^ 64 := by
  rw [numbered, rd64_congr (rd_wr_ne _ _ ?_) (rd_wr_ne _ _ ?_), rd64_wr64_self _ ?_]
  all_goals simp only [STR_UNIT_NEXT_LO, STR_UNIT_NEXT_HI, STR_SEQ_NEXT]; omega

/-- A unit of the present definition that fits beside what its stream holds is appended. -/
theorem putUnit_eq (h : streamOf s i = some st) {m : UnitMade} (hfit : heldBytes st + m.bytes.length ≤ st.share) :
    let d := streamDef s st false
    let seq := rd64 s (STR_UNIT_NEXT_LO i) (STR_UNIT_NEXT_HI i)
    let next := seqAfter st d seq m
    ∃ out, putUnit s i false m = showHeld (modStream (modStream (numbered s i seq next) i (movedOn next m)) i
      (holding (st.held ++ [unitPut st d seq m]) out)) i := by
  simp only [putUnit, h, if_neg Bool.false_ne_true, if_neg (len_le_of_fits hfit), evict_of_fits hfit, List.any_nil, onlyIf, Bool.not_false,
    Bool.and_true]
  exact ⟨_, rfl⟩

/-- A stream with a unit appended. -/
def streamPut (st : StreamSt) (d : OldStream) (seq : Nat) (m : UnitMade) (out : StreamSt → BitVec 16) : StreamSt :=
  holding (st.held ++ [unitPut st d seq m]) out (movedOn (seqAfter st d seq m) m st)

theorem streamOf_putUnit (h : streamOf s i = some st) {m : UnitMade} (hfit : heldBytes st + m.bytes.length ≤ st.share) :
    let d := streamDef s st false
    let seq := rd64 s (STR_UNIT_NEXT_LO i) (STR_UNIT_NEXT_HI i)
    ∃ out, streamOf (putUnit s i false m) i = some (streamPut st d seq m out) := by
  obtain ⟨out, heq⟩ := putUnit_eq h hfit
  refine ⟨out, ?_⟩
  rw [heq, streamOf_congr (showHeld_streams ..)]
  refine streamOf_modStream_self (fun _ => rfl) (streamOf_modStream_self (fun _ => rfl) ?_)
  rw [streamOf_congr (numbered_streams ..), h]

theorem rd64_putUnit (h : streamOf s i = some st) {m : UnitMade} (hfit : heldBytes st + m.bytes.length ≤ st.share) :
    rd64 (putUnit s i false m) (STR_UNIT_NEXT_LO i) (STR_UNIT_NEXT_HI i) =
      (rd64 s (STR_UNIT_NEXT_LO i) (STR_UNIT_NEXT_HI i) + 1) % 2 ^ 64 := by
  obtain ⟨out, heq⟩ := putUnit_eq h hfit
  have hmod (u : State) (f g : StreamSt → StreamSt) : rd64 (modStream (modStream u i f) i g) (STR_UNIT_NEXT_LO i) (STR_UNIT_NEXT_HI i) =
      rd64 u (STR_UNIT_NEXT_LO i) (STR_UNIT_NEXT_HI i) := rfl
  rw [heq, rd64_congr (sameElse_showHeld _ i _ ?_) (sameElse_showHeld _ i _ ?_), hmod, rd64_numbered]
  all_goals
    simp only [STR_UNIT_NEXT_LO, STR_UNIT_NEXT_HI, STR_RET_FIRST_LO, STR_RET_FIRST_HI, STR_RET_SPAN, List.mem_append, List.mem_cons,
      List.not_mem_nil, or_false]
    omega

/-! ### Units that come too late (R279) -/

theorem countLate_streams (s : State) (i : Nat) : (countLate s i).streams = s.streams := by
  simp only [countLate, setEvt, wrBit, count, wr_streams]

theorem sameElse_countLate (s : State) (i : Nat) : sameElse s (countLate s i) ([(STR_LATE_PIC i).addr] ++ [(EGR_CH_EVT (i / 64)).addr]) :=
  sameElse_trans (sameElse_wr s (STR_LATE_PIC i) _) (sameElse_wr _ (EGR_CH_EVT (i / 64)) _)

/-- A late picture is counted for its stream and its channel. -/
def pictureLate (s : State) (i : Nat) : State := setEvt (count (countLate s i) (CH_LATE_CNT (i / 64))) (CH_EVT (i / 64)) 4

theorem pictureLate_streams (s : State) (i : Nat) : (pictureLate s i).streams = s.streams := by
  simp only [pictureLate, setEvt, wrBit, count, wr_streams, countLate_streams]

theorem sameElse_pictureLate (s : State) (i : Nat) : sameElse s (pictureLate s i)
    (([(STR_LATE_PIC i).addr] ++ [(EGR_CH_EVT (i / 64)).addr]) ++ ([(CH_LATE_CNT (i / 64)).addr] ++ [(CH_EVT (i / 64)).addr])) :=
  sameElse_trans (sameElse_countLate s i) (sameElse_trans (sameElse_wr _ (CH_LATE_CNT (i / 64)) _) (sameElse_wr _ (CH_EVT (i / 64)) _))

theorem sameElse_onlyIf {f : State → State} {l : List Nat} (b : Bool) (h : sameElse s (f s) l) : sameElse s (onlyIf b s f) l := by
  cases b
  · exact sameElse_of_regs_eq rfl l
  · exact h

theorem onlyIf_streams {f : State → State} (b : Bool) (h : (f s).streams = s.streams) : (onlyIf b s f).streams = s.streams := by
  cases b
  · rfl
  · exact h

/-- A unit is put into its share after what is noted of it where it is late. -/
theorem putUnit_noted {s1 : State} (h : streamOf s1 i = some st)
    (hregs : ∀ q : Reg, 0x910000 ≤ q.addr → q.addr ≠ (STR_LATE_PIC i).addr → rd s1 q = rd s q) {m : UnitMade}
    (hfit : heldBytes st + m.bytes.length ≤ st.share) :
    let d := streamDef s st false
    let seq := rd64 s (STR_UNIT_NEXT_LO i) (STR_UNIT_NEXT_HI i)
    (∃ out, streamOf (putUnit s1 i false m) i = some (streamPut st d seq m out)) ∧
      rd64 (putUnit s1 i false m) (STR_UNIT_NEXT_LO i) (STR_UNIT_NEXT_HI i) = (seq + 1) % 2 ^ 64 := by
  intro d seq
  have hdef : streamDef s1 st false = d := streamDef_congr (hregs _ (by simp only [STR_CFG]; omega)
    (by rw [id_of_streamOf h]; simp only [STR_CFG, STR_LATE_PIC]; omega)) false
  have hseq : rd64 s1 (STR_UNIT_NEXT_LO i) (STR_UNIT_NEXT_HI i) = seq :=
    rd64_congr (hregs _ (by simp only [STR_UNIT_NEXT_LO]; omega) (by simp only [STR_UNIT_NEXT_LO, STR_LATE_PIC]; omega))
      (hregs _ (by simp only [STR_UNIT_NEXT_HI]; omega) (by simp only [STR_UNIT_NEXT_HI, STR_LATE_PIC]; omega))
  have hput := streamOf_putUnit h hfit
  have hnext := rd64_putUnit h hfit
  rw [hseq] at hnext
  rw [hdef, hseq] at hput
  exact ⟨hput, hnext⟩

/-! ### A picture's unit (R270, R274, R275) -/

theorem packVideo_eq (h : streamOf s i = some st) (f : FrameSt) (r : RendPlan) (p : RendPic) :
    let d := streamDef s st (oldPicture s i f)
    let late := lateUnit s d.form f.launch
    let seq := rd64 s (STR_UNIT_NEXT_LO i) (STR_UNIT_NEXT_HI i)
    let m := videoMade s st d f r p seq
    packVideo s i f r p = closeResults (modPic (putUnit (onlyIf late s (pictureLate · i)) i (oldPicture s i f) m) (i / 64) f.j p.id
      (fun p => { p with packaged := true, late := late, unitCrc := crc32c m.bytes, unitSeq := seq })) (i / 64) f.j := by
  simp only [packVideo, h]
  rfl

theorem leavesStreams_modPic (s : State) (n j r : Nat) (g : RendPic → RendPic) : leavesStreams s (modPic s n j r g) :=
  leavesStreams_of_eq rfl rfl

theorem rd64_unitNext_of_leavesStreams (hi : i < 1024) (h : leavesStreams s t) :
    rd64 t (STR_UNIT_NEXT_LO i) (STR_UNIT_NEXT_HI i) = rd64 s (STR_UNIT_NEXT_LO i) (STR_UNIT_NEXT_HI i) := by
  refine rd64_congr (h.2 _ ?_ ?_) (h.2 _ ?_ ?_)
  all_goals simp only [STR_UNIT_NEXT_LO, STR_UNIT_NEXT_HI]; omega

/-- A picture of the present definition whose unit fits is appended to its stream. -/
theorem packVideo_fits (hi : i < 1024) (h : streamOf s i = some st) {f : FrameSt} {r : RendPlan} {p : RendPic}
    (hnew : oldPicture s i f = false) :
    let d := streamDef s st false
    let seq := rd64 s (STR_UNIT_NEXT_LO i) (STR_UNIT_NEXT_HI i)
    let m := videoMade s st d f r p seq
    heldBytes st + m.bytes.length ≤ st.share →
      (∃ out, streamOf (packVideo s i f r p) i = some (streamPut st d seq m out)) ∧
        rd64 (packVideo s i f r p) (STR_UNIT_NEXT_LO i) (STR_UNIT_NEXT_HI i) = (seq + 1) % 2 ^ 64 := by
  intro d seq m hfit
  have heq := packVideo_eq h f r p
  rw [hnew] at heq
  have hafter (u : State) (g : RendPic → RendPic) : leavesStreams u (closeResults (modPic u (i / 64) f.j p.id g) (i / 64) f.j) :=
    leavesStreams_trans (leavesStreams_modPic ..) (leavesStreams_closeResults ..)
  have hmarked := (streamOf_congr (onlyIf_streams (f := (pictureLate · i)) (lateUnit s d.form f.launch)
    (pictureLate_streams s i)) i).trans h
  have hput := putUnit_noted hmarked (fun q hlo hne => sameElse_onlyIf _ (sameElse_pictureLate s i) q (by
      simp only [List.mem_append, List.mem_cons, List.not_mem_nil, or_false, EGR_CH_EVT, CH_LATE_CNT, CH_EVT]
      omega)) hfit
  dsimp only at heq
  rw [heq, streamOf_congr (hafter _ _).1, rd64_unitNext_of_leavesStreams hi (hafter _ _)]
  exact hput

/-- Whether a form's units are TS packets. -/
theorem videoUnit_of_ts {d : OldStream} (hd : d.form = 1 ∨ d.form = 2) (f : FrameSt) (r : RendPlan) (p : RendPic) (seq : Nat) :
    (videoUnit st d f r p seq).1 = (numberTs d.cc (videoTs f r p (psiDue d.psiG f) (st.head f.sliceSeq).version)).1 ∧
      (videoUnit st d f r p seq).2.2 = if psiDue d.psiG f then some f.g else d.psiG := by
  rw [videoUnit, if_pos (by simpa using hd)]
  exact ⟨rfl, rfl⟩

theorem videoUnit_of_chunk {d : OldStream} (hd : ¬(d.form = 1 ∨ d.form = 2)) (f : FrameSt) (r : RendPlan) (p : RendPic) (seq : Nat) :
    (videoUnit st d f r p seq).1 = videoChunk f r p seq ∧ (videoUnit st d f r p seq).2.2 = d.psiG := by
  rw [videoUnit, if_neg (by simpa using hd)]
  exact ⟨rfl, rfl⟩

/-- A PCM packet leaves as one datagram. -/
theorem unitPut_pcm {d : OldStream} (hd : d.form = 5) (seq : Nat) (m : UnitMade) : (unitPut st d seq m).nDgrams = 1 := by
  show datagramCount d.form _ _ = 1
  rw [hd]
  rfl

section
variable (s : State) (st : StreamSt) (d : OldStream) (f : FrameSt) (r : RendPlan) (p : RendPic) (seq : Nat)

theorem videoMade_bytes : (videoMade s st d f r p seq).bytes =
    if d.form = 1 ∨ d.form = 2 then (numberTs d.cc (videoTs f r p (psiDue d.psiG f) (st.head f.sliceSeq).version)).1
    else videoChunk f r p seq := by
  by_cases hd : d.form = 1 ∨ d.form = 2
  · rw [if_pos hd]
    exact (videoUnit_of_ts hd f r p seq).1
  · rw [if_neg hd]
    exact (videoUnit_of_chunk hd f r p seq).1

theorem videoMade_psiG : (videoMade s st d f r p seq).psiG =
    if (d.form = 1 ∨ d.form = 2) ∧ psiDue d.psiG f then some f.g else d.psiG := by
  by_cases hd : d.form = 1 ∨ d.form = 2
  · simp only [hd, true_and]
    exact (videoUnit_of_ts hd f r p seq).2
  · simp only [hd, false_and, if_false]
    exact (videoUnit_of_chunk hd f r p seq).2

theorem videoMade_init_length : (videoMade s st d f r p seq).init.length =
    if d.form = 3 ∧ f.idr then (st.head f.sliceSeq).init.length else 0 := by
  have hor : (d.form = 3 ∧ f.idr = true) ↔ (decide (d.form = 3) && f.idr) = true := by simp
  simp only [hor]
  exact apply_ite List.length ..

end

/-! ### An audio unit (R258, R259) -/

/-- The audio unit at the head of a stream leaves the queue. -/
def soundTaken (x : StreamSt) : StreamSt := { x with audio := x.audio.drop 1, oldAudio := x.oldAudio - 1 }

theorem packAudio_eq (h : streamOf s i = some st) (x : AudioUnit) :
    let d := streamDef s st (oldSound s i)
    packAudio s i x = putUnit (modStream (onlyIf (lateUnit s d.form x.launch) s (countLate · i)) i soundTaken) i (oldSound s i)
      (audioMade s i st d x) := by
  simp only [packAudio, h]
  rfl

/-- The audio unit at the head of a stream of the present definition, where it fits, is appended. -/
theorem packAudio_fits (hi : i < 1024) (h : streamOf s i = some st) {x : AudioUnit} (hnew : oldSound s i = false) :
    let d := streamDef s st false
    let seq := rd64 s (STR_UNIT_NEXT_LO i) (STR_UNIT_NEXT_HI i)
    let m := audioMade s i st d x
    heldBytes st + m.bytes.length ≤ st.share →
      (∃ out, streamOf (packAudio s i x) i = some (streamPut (soundTaken st) d seq m out)) ∧
        rd64 (packAudio s i x) (STR_UNIT_NEXT_LO i) (STR_UNIT_NEXT_HI i) = (seq + 1) % 2 ^ 64 := by
  intro d seq m hfit
  have heq := packAudio_eq h x
  rw [hnew] at heq
  rw [heq]
  have hmarked := (streamOf_congr (onlyIf_streams (f := (countLate · i)) (lateUnit s d.form x.launch) (countLate_streams s i)) i).trans h
  exact putUnit_noted (st := soundTaken st) (streamOf_modStream_self (f := soundTaken) (fun _ => rfl) hmarked)
    (fun q hlo hne => sameElse_onlyIf _ (sameElse_countLate s i) q (by
      simp only [List.mem_append, List.mem_cons, List.not_mem_nil, or_false, EGR_CH_EVT]
      omega)) hfit

/-- A PCM packet is a unit of one datagram: its bytes as they are, its RTP timestamp the position of its first sample (R259). -/
theorem audioMade_pcm {d : OldStream} (hd : d.form = 5) (hi : 40 ≤ i % 64) (x : AudioUnit) :
    (audioMade s i st d x).bytes = x.bytes ∧ (audioMade s i st d x).rtpTs = some (wordOf x.pos) := by
  simp [audioMade, hd, hi]

/-! ### UNIT_PACKAGED -/

section
variable (hr : runs s) (hi : i < 1024) (h : streamOf s i = some st)
include hr hi h

theorem exec_unitPackaged_picture {f : FrameSt} {r : RendPlan} {p : RendPic} (hfirst : videoFirst s i = true)
    (hold : oldestPic s (i / 64) (i % 64) (fun p => !p.packaged) = some (f, r, p))
    (hready : p.sized = true ∧ noticeIn s (i / 64) f = true) :
    exec (.unitPackaged i) s = .next (keepStores s (packVideo s i f r p)) := by
  show execUnitPackaged i s = _
  rw [execUnitPackaged, act_of hi hr]
  simp only [h, hfirst, hold, hready, Bool.and_self, if_true]

theorem exec_unitPackaged_pictureWaits {f : FrameSt} {r : RendPlan} {p : RendPic} (hfirst : videoFirst s i = true)
    (hold : oldestPic s (i / 64) (i % 64) (fun p => !p.packaged) = some (f, r, p))
    (hwaits : p.sized = false ∨ noticeIn s (i / 64) f = false) :
    exec (.unitPackaged i) s = .next s := by
  have hnot : (p.sized && noticeIn s (i / 64) f) = false := Bool.and_eq_false_iff.2 hwaits
  show execUnitPackaged i s = _
  rw [execUnitPackaged, act_of hi hr]
  simp only [h, hfirst, hold, hnot, if_true, Bool.false_eq_true, if_false, keepStores_self]

theorem exec_unitPackaged_sound {x : AudioUnit} {rest : List AudioUnit} (hfirst : videoFirst s i = false) (haudio : st.audio = x :: rest)
    (hready : audioReady s i x.t = true) : exec (.unitPackaged i) s = .next (keepStores s (packAudio s i x)) := by
  show execUnitPackaged i s = _
  rw [execUnitPackaged, act_of hi hr]
  simp only [h, hfirst, haudio, hready, if_true, Bool.false_eq_true, if_false]

theorem exec_unitPackaged_none (hfirst : videoFirst s i = false) (haudio : st.audio = []) : exec (.unitPackaged i) s = .next s := by
  show execUnitPackaged i s = _
  rw [execUnitPackaged, act_of hi hr]
  simp only [h, hfirst, haudio, Bool.false_eq_true, if_false, keepStores_self]

end

end Sys2Proof.Machine
end

section
/-!
SUPPORT. DATAGRAM_LAUNCH and HOST_EGRESS_LAUNCH: what leaves a port and what is counted of it (R279 to R282, R289, R302, R434).
-/
namespace Sys2Proof.Machine

variable {s t : State} {p : Nat}

/-! ### The time now -/

theorem nowN_congr (hraw : t.raw = s.raw) (h : ∀ r : Reg, 0x40060 ≤ r.addr → r.addr < 0x40080 → rd t r = rd s r) :
    nowN t = nowN s := by
  have hset : timeSet t = timeSet s := by
    unfold timeSet
    rw [rd64_congr (h TIM_CUR_OFFSET_LO (by decide) (by decide)) (h TIM_CUR_OFFSET_HI (by decide) (by decide)),
      rd64_congr (h TIM_CUR_RES_LO (by decide) (by decide)) (h TIM_CUR_RES_HI (by decide) (by decide)),
      rd64_congr (h TIM_CUR_RATE_LO (by decide) (by decide)) (h TIM_CUR_RATE_HI (by decide) (by decide)),
      rdFld_congr (h TIM_CUR_ANCHOR_HI (by decide) (by decide)), rdFld_congr (h TIM_CUR_ANCHOR_HI (by decide) (by decide)),
      h TIM_CUR_ANCHOR_LO (by decide) (by decide)]
  rw [nowN, nowN, t16, t16, hset, hraw]

/-! ### What is counted of a live datagram (R279, R281) -/

/-- A datagram and its bytes are counted for its stream. -/
def bytesCounted (s : State) (d : Due) : State :=
  count64 (bump s (STR_DGRAMS d.stream)) (STR_BYTES_LO d.stream) (STR_BYTES_HI d.stream) (datagramBytes d.item d.item.sent)

/-- What the counters show of a live datagram: its stream's datagrams and bytes, its lateness, its port's frames. -/
def datagramCounted (s : State) (p : Nat) (d : Due) : State := bump (countPace (bytesCounted s d) d.stream d.at_) (P_TX_FRAMES p)

/-- The number with which a live datagram leaves. -/
def datagramNumber (s : State) (d : Due) : BitVec 16 :=
  ((streamOf s d.stream).map (fun x => if d.item.fresh && d.item.sent = 0 then d.item.seq0 else x.outSeq)).getD 0

/-- A stream after a datagram of a unit has left with a number. -/
def datagramSent (u : RetUnit) (num : BitVec 16) (x : StreamSt) : StreamSt :=
  { x with
    outSeq := if formRtp u.form then num + 1 else x.outSeq
    held := x.held.map (fun y => if y.seq = u.seq then { y with sent := y.sent + 1 } else y) }

/-- A live datagram as it leaves a port. -/
def datagramOut (s : State) (p : Nat) (d : Due) : Output :=
  let u := d.item
  .datagram p d.stream u.seq u.sent d.at_ (if formRtp u.form then some (datagramNumber s d) else none)
    (if formRtp u.form then some (datagramTs u u.sent) else none)
    (datagramWire u u.net u.sent u.nDgrams (datagramNumber s d) (datagramTs u u.sent))

/-- The Bellwether notes the datagram for its next ACK (R449). -/
def ackNoted (d : Due) (s : State) : State :=
  onlyIf (role s = 1) s (fun s => modPair s (fun x => { x with ackDue := noteAck x.ackDue d.stream d.item.sent d.item.seq }))

/-- The picture whose unit's first datagram leaves has launched (R96). -/
def pictureLaunched (d : Due) (s : State) : State :=
  match d.item.frame with
  | some (j, _) => if d.item.sent = 0 then modPic s (d.stream / 64) j (d.stream % 64) (fun x => { x with launched := true }) else s
  | none => s

theorem launchLive_eq (s : State) (p : Nat) (d : Due) : launchLive s p d =
    emit (pictureLaunched d (ackNoted d (datagramCounted (modStream s d.stream (datagramSent d.item (datagramNumber s d))) p d)))
      (datagramOut s p d) := rfl

theorem ackNoted_eq (d : Due) (s : State) : ∃ pair, ackNoted d s = { s with pair := pair } := by
  unfold ackNoted onlyIf
  split
  · exact ⟨_, rfl⟩
  · exact ⟨_, rfl⟩

theorem pictureLaunched_eq (d : Due) (s : State) : ∃ chans, pictureLaunched d s = { s with chans := chans } := by
  unfold pictureLaunched
  split
  · split
    · exact ⟨_, rfl⟩
    · exact ⟨_, rfl⟩
  · exact ⟨_, rfl⟩

section
variable (d : Due) (s : State)

theorem ackNoted_streams : (ackNoted d s).streams = s.streams := by obtain ⟨_, h⟩ := ackNoted_eq d s; rw [h]

theorem ackNoted_regs : (ackNoted d s).regs = s.regs := by obtain ⟨_, h⟩ := ackNoted_eq d s; rw [h]

theorem ackNoted_out : (ackNoted d s).out = s.out := by obtain ⟨_, h⟩ := ackNoted_eq d s; rw [h]

theorem pictureLaunched_streams : (pictureLaunched d s).streams = s.streams := by obtain ⟨_, h⟩ := pictureLaunched_eq d s; rw [h]

theorem pictureLaunched_regs : (pictureLaunched d s).regs = s.regs := by obtain ⟨_, h⟩ := pictureLaunched_eq d s; rw [h]

theorem pictureLaunched_out : (pictureLaunched d s).out = s.out := by obtain ⟨_, h⟩ := pictureLaunched_eq d s; rw [h]

end

/-! ### Lateness (R279, R281) -/

section
variable (s : State) (i : Nat) (at_ : Int)

/-- A datagram more than 2,000 ns behind its time is counted late and sets its channel's event. -/
theorem countPace_late (h : 2000 < nowN s - at_) : countPace s i at_ = setEvt (count (wr s (STR_MAX_LATE i)
    (wordOf (min (2 ^ 32 - 1) (max (rd s (STR_MAX_LATE i)).toNat (nowN s - at_).toNat)))) (STR_PACE_LATE i)) (EGR_CH_EVT (i / 64)) 1 := by
  simp only [countPace, h, decide_true, onlyIf, if_true]

theorem countPace_inTime (h : ¬ 2000 < nowN s - at_) : countPace s i at_ = wr s (STR_MAX_LATE i)
    (wordOf (min (2 ^ 32 - 1) (max (rd s (STR_MAX_LATE i)).toNat (nowN s - at_).toNat))) := by
  simp only [countPace, h, decide_false, onlyIf, Bool.false_eq_true, if_false]

theorem sameElse_countPace : sameElse s (countPace s i at_)
    ([(STR_MAX_LATE i).addr] ++ ([(STR_PACE_LATE i).addr] ++ [(EGR_CH_EVT (i / 64)).addr])) := by
  by_cases h : 2000 < nowN s - at_
  · rw [countPace_late s i at_ h]
    exact sameElse_trans (sameElse_wr s (STR_MAX_LATE i) _)
      (sameElse_trans (sameElse_wr _ (STR_PACE_LATE i) _) (sameElse_wr _ (EGR_CH_EVT (i / 64)) _))
  · rw [countPace_inTime s i at_ h]
    exact fun r hr => sameElse_wr s (STR_MAX_LATE i) _ r (fun hmem => hr (List.mem_append_left _ hmem))

theorem countPace_streams : (countPace s i at_).streams = s.streams := by
  by_cases h : 2000 < nowN s - at_
  · rw [countPace_late s i at_ h, setEvt, wrBit, wr_streams, count, wr_streams, wr_streams]
  · rw [countPace_inTime s i at_ h, wr_streams]

theorem countPace_out : (countPace s i at_).out = s.out := by
  by_cases h : 2000 < nowN s - at_
  · rw [countPace_late s i at_ h, setEvt, wrBit, wr_out, count, wr_out, wr_out]
  · rw [countPace_inTime s i at_ h, wr_out]

theorem rd_countPace_maxLate : (rd (countPace s i at_) (STR_MAX_LATE i)).toNat =
    min (2 ^ 32 - 1) (max (rd s (STR_MAX_LATE i)).toNat (nowN s - at_).toNat) := by
  have hword (n : Nat) : (wordOf (min (2 ^ 32 - 1) n)).toNat = min (2 ^ 32 - 1) n := by
    rw [wordOf, BitVec.toNat_ofNat]
    omega
  by_cases h : 2000 < nowN s - at_
  · rw [countPace_late s i at_ h, setEvt, rd_wrBit_ne _ _ _ (by simp only [STR_MAX_LATE, EGR_CH_EVT]; omega),
      rd_count_ne _ (by simp only [STR_MAX_LATE, STR_PACE_LATE]; omega), rd_wr_self, hword]
  · rw [countPace_inTime s i at_ h, rd_wr_self, hword]

theorem rd_countPace_paceLate : rd (countPace s i at_) (STR_PACE_LATE i) =
    if 2000 < nowN s - at_ then satInc (rd s (STR_PACE_LATE i)) else rd s (STR_PACE_LATE i) := by
  have hmax (v : Word) : rd (wr s (STR_MAX_LATE i) v) (STR_PACE_LATE i) = rd s (STR_PACE_LATE i) :=
    rd_wr_ne _ _ (by simp only [STR_MAX_LATE, STR_PACE_LATE]; omega)
  by_cases h : 2000 < nowN s - at_
  · rw [countPace_late s i at_ h, if_pos h, setEvt, rd_wrBit_ne _ _ _ (by simp only [STR_PACE_LATE, EGR_CH_EVT]; omega),
      rd_count_self, hmax]
  · rw [countPace_inTime s i at_ h, if_neg h, hmax]

theorem rdBit_countPace_evt (h : 2000 < nowN s - at_) : rdBit (countPace s i at_) (EGR_CH_EVT (i / 64)) 1 = true := by
  rw [countPace_late s i at_ h, rdBit_setEvt _ _ _ (by decide)]

end

/-! ### The counters of a live datagram -/

section
variable (s : State) (p : Nat) (d : Due)

theorem sameElse_bytesCounted : sameElse s (bytesCounted s d)
    ([(STR_DGRAMS d.stream).addr] ++ [(STR_BYTES_LO d.stream).addr, (STR_BYTES_HI d.stream).addr]) :=
  sameElse_trans (sameElse_wr s (STR_DGRAMS d.stream) _) (sameElse_count64 _ (STR_BYTES_LO d.stream) (STR_BYTES_HI d.stream) _)

theorem bytesCounted_streams : (bytesCounted s d).streams = s.streams := by
  rw [bytesCounted, count64, wr64, wr_streams, wr_streams, bump, wr_streams]

theorem bytesCounted_out : (bytesCounted s d).out = s.out := by rw [bytesCounted, count64, wr64, wr_out, wr_out, bump, wr_out]

theorem bytesCounted_raw : (bytesCounted s d).raw = s.raw := by rw [bytesCounted, count64, wr64, wr_raw, wr_raw, bump, wr_raw]

theorem nowN_bytesCounted : nowN (bytesCounted s d) = nowN s :=
  nowN_congr (bytesCounted_raw s d) fun r hlo hhi => sameElse_bytesCounted s d r (by
    simp only [STR_DGRAMS, STR_BYTES_LO, STR_BYTES_HI, List.mem_append, List.mem_cons, List.not_mem_nil, or_false]
    omega)

theorem sameElse_datagramCounted : sameElse s (datagramCounted s p d) (([(STR_DGRAMS d.stream).addr] ++
    [(STR_BYTES_LO d.stream).addr, (STR_BYTES_HI d.stream).addr]) ++ (([(STR_MAX_LATE d.stream).addr] ++
    ([(STR_PACE_LATE d.stream).addr] ++ [(EGR_CH_EVT (d.stream / 64)).addr])) ++ [(P_TX_FRAMES p).addr])) := by
  unfold datagramCounted bump
  exact sameElse_trans (sameElse_bytesCounted s d)
    (sameElse_trans (sameElse_countPace (bytesCounted s d) d.stream d.at_) (sameElse_wr _ (P_TX_FRAMES p) _))

theorem datagramCounted_streams : (datagramCounted s p d).streams = s.streams := by
  rw [datagramCounted, bump, wr_streams, countPace_streams, bytesCounted_streams]

theorem datagramCounted_out : (datagramCounted s p d).out = s.out := by
  rw [datagramCounted, bump, wr_out, countPace_out, bytesCounted_out]

end

section
variable (s : State) (p : Nat) (d : Due)

theorem rd_datagramCounted_dgrams : rd (datagramCounted s p d) (STR_DGRAMS d.stream) = rd s (STR_DGRAMS d.stream) + 1 := by
  rw [datagramCounted, bump, rd_wr_ne _ _ (by simp only [STR_DGRAMS, P_TX_FRAMES]; omega), sameElse_countPace _ _ _ _ (by
      simp only [STR_DGRAMS, STR_MAX_LATE, STR_PACE_LATE, EGR_CH_EVT, List.mem_append, List.mem_cons, List.not_mem_nil, or_false]
      omega), bytesCounted, sameElse_count64 _ _ _ _ _ (by
      simp only [STR_DGRAMS, STR_BYTES_LO, STR_BYTES_HI, List.mem_cons, List.not_mem_nil, or_false]
      omega), bump, rd_wr_self]

theorem rd_datagramCounted_txFrames (hp : p < 24) (hd : d.stream < 1024) :
    rd (datagramCounted s p d) (P_TX_FRAMES p) = rd s (P_TX_FRAMES p) + 1 := by
  rw [datagramCounted, bump, rd_wr_self, sameElse_countPace _ _ _ _ (by
      simp only [P_TX_FRAMES, STR_MAX_LATE, STR_PACE_LATE, EGR_CH_EVT, List.mem_append, List.mem_cons, List.not_mem_nil, or_false]
      omega), sameElse_bytesCounted _ _ _ (by
      simp only [P_TX_FRAMES, STR_DGRAMS, STR_BYTES_LO, STR_BYTES_HI, List.mem_append, List.mem_cons, List.not_mem_nil, or_false]
      omega)]

theorem rd_datagramCounted_maxLate : (rd (datagramCounted s p d) (STR_MAX_LATE d.stream)).toNat =
    min (2 ^ 32 - 1) (max (rd s (STR_MAX_LATE d.stream)).toNat (nowN s - d.at_).toNat) := by
  rw [datagramCounted, bump, rd_wr_ne _ _ (by simp only [STR_MAX_LATE, P_TX_FRAMES]; omega), rd_countPace_maxLate,
    nowN_bytesCounted, sameElse_bytesCounted _ _ _ (by
      simp only [STR_MAX_LATE, STR_DGRAMS, STR_BYTES_LO, STR_BYTES_HI, List.mem_append, List.mem_cons, List.not_mem_nil, or_false]
      omega)]

theorem rd_datagramCounted_paceLate (hp : p < 24) : rd (datagramCounted s p d) (STR_PACE_LATE d.stream) =
    if 2000 < nowN s - d.at_ then satInc (rd s (STR_PACE_LATE d.stream)) else rd s (STR_PACE_LATE d.stream) := by
  rw [datagramCounted, bump, rd_wr_ne _ _ (by simp only [STR_PACE_LATE, P_TX_FRAMES]; omega), rd_countPace_paceLate,
    nowN_bytesCounted, sameElse_bytesCounted _ _ _ (by
      simp only [STR_PACE_LATE, STR_DGRAMS, STR_BYTES_LO, STR_BYTES_HI, List.mem_append, List.mem_cons, List.not_mem_nil, or_false]
      omega)]

theorem rdBit_datagramCounted_evt (hp : p < 24) (h : 2000 < nowN s - d.at_) :
    rdBit (datagramCounted s p d) (EGR_CH_EVT (d.stream / 64)) 1 = true := by
  rw [datagramCounted, bump, rdBit_congr (rd_wr_ne _ _ (by simp only [EGR_CH_EVT, P_TX_FRAMES]; omega)),
    rdBit_countPace_evt _ _ _ (by rwa [nowN_bytesCounted])]

end

/-! ### A live datagram leaves (R270, R279, R280) -/

section
variable (s : State) (p : Nat) (d : Due)

theorem launchLive_regs : (launchLive s p d).regs =
    (datagramCounted (modStream s d.stream (datagramSent d.item (datagramNumber s d))) p d).regs := by
  rw [launchLive_eq, emit_regs, pictureLaunched_regs, ackNoted_regs]

theorem rd_launchLive (r : Reg) : rd (launchLive s p d) r =
    rd (datagramCounted (modStream s d.stream (datagramSent d.item (datagramNumber s d))) p d) r := rd_congr (launchLive_regs s p d) r

theorem launchLive_streams : (launchLive s p d).streams =
    (modStream s d.stream (datagramSent d.item (datagramNumber s d))).streams := by
  rw [launchLive_eq, emit_streams, pictureLaunched_streams, ackNoted_streams, datagramCounted_streams]

theorem launchLive_out : (launchLive s p d).out = datagramOut s p d :: s.out := by
  rw [launchLive_eq, emit, pictureLaunched_out, ackNoted_out, datagramCounted_out, modStream_out]

/-- A datagram of a unit that is not a stream's first after its RTP number was set leaves with the stream's number. -/
theorem datagramNumber_of {st : StreamSt} (h : streamOf s d.stream = some st) (hnew : (d.item.fresh && d.item.sent == 0) = false) :
    datagramNumber s d = st.outSeq := by
  have hnew' : (d.item.fresh && decide (d.item.sent = 0)) = false := hnew
  rw [datagramNumber, h, Option.map_some, hnew', Option.getD_some, if_neg Bool.false_ne_true]

end

/-! ### DATAGRAM_LAUNCH -/

section
variable (hr : runs s) (hp : p < 24)
include hr hp

/-- Of a pair the device that does not drive BW_HOLD launches nothing of class 0 or 2 (R434). -/
theorem exec_datagramLaunch_held (hpaired : isPaired s = true) (hdrive : holdDrive s = false) : exec (.datagramLaunch p) s = .next s := by
  have hmay : mayLaunch s = false := by rw [mayLaunch, hpaired, hdrive]; rfl
  have hlive : dueLive s p = none := by rw [dueLive, hmay, Bool.false_and, if_neg Bool.false_ne_true]
  have hresend : dueResend s p = none := by rw [dueResend, hmay, Bool.false_and, if_neg Bool.false_ne_true]
  show execDatagramLaunch p s = _
  rw [execDatagramLaunch, act_of hp hr]
  simp only [hlive, hresend, ite_self, keepStores_self]

theorem exec_datagramLaunch_live {d : Due} (hlive : dueLive s p = some d) :
    exec (.datagramLaunch p) s = .next (keepStores s (launchLive s p d)) := by
  show execDatagramLaunch p s = _
  rw [execDatagramLaunch, act_of hp hr]
  simp only [hlive]

theorem exec_datagramLaunch_resend {j : ResendJob} (hlive : dueLive s p = none) (hhost : dueHost s p = none)
    (hresend : dueResend s p = some j) : exec (.datagramLaunch p) s = .next (keepStores s (launchResend s p j)) := by
  show execDatagramLaunch p s = _
  rw [execDatagramLaunch, act_of hp hr]
  simp only [hlive, hhost, hresend, Option.isSome_none, Bool.false_eq_true, if_false]

end

/-! ### A re-sent datagram leaves (R289) -/

theorem endResend_streams (s : State) (j : ResendJob) (status : Nat) : (endResend s j status).streams = s.streams := by
  rw [endResend, finish_streams, wrFld, wr_streams]

theorem endResend_out (s : State) (j : ResendJob) (status : Nat) : (endResend s j status).out = s.out := by
  rw [endResend, finish_out, wrFld, wr_out]

theorem launchResend_gone {j : ResendJob} (h : resendUnit s j = none) : launchResend s p j = endResend s j 0x04 := by
  simp only [launchResend, h]

/-- A re-sent datagram of a unit as it leaves a port: with the command's addresses, number and SSRC. -/
def resendOut (p : Nat) (j : ResendJob) (u : RetUnit) : Output :=
  .resent p j.stream u.seq j.dgram j.seq (datagramWire u { resendNet u.net p j.dest j.udp with ssrc := j.ssrc } j.dgram
    (resendCount u) j.seq (datagramTs u j.dgram))

/-- A re-send in a list is replaced as it goes on. -/
def resendOnward (s : State) (j j' : ResendJob) : State :=
  { s with resends := s.resends.map (fun x => if x.q = j.q && x.slot = j.slot then j' else x) }

/-- The datagram leaves, and the re-send ends with it or goes on. -/
theorem launchResend_held {j : ResendJob} {u : RetUnit} (h : resendUnit s j = some u) :
    let sent := emit (bump (count s (STR_RESENT j.stream)) (P_TX_FRAMES p)) (resendOut p j u)
    ∃ j', launchResend s p j = endResend sent j' 0x00 ∨ launchResend s p j = resendOnward sent j j' := by
  intro sent
  simp only [launchResend, h]
  split
  · exact ⟨_, .inl rfl⟩
  · exact ⟨_, .inr rfl⟩

theorem launchResend_streams {j : ResendJob} {u : RetUnit} (h : resendUnit s j = some u) : (launchResend s p j).streams = s.streams := by
  have hsent (o : Output) : (emit (bump (count s (STR_RESENT j.stream)) (P_TX_FRAMES p)) o).streams = s.streams := by
    rw [emit_streams, bump, wr_streams, count, wr_streams]
  obtain ⟨j', hend | hon⟩ := launchResend_held (p := p) h
  · rw [hend, endResend_streams, hsent]
  · rw [hon]
    exact hsent (resendOut p j u)

theorem launchResend_out {j : ResendJob} {u : RetUnit} (h : resendUnit s j = some u) :
    (launchResend s p j).out = resendOut p j u :: s.out := by
  have hsent (o : Output) : (emit (bump (count s (STR_RESENT j.stream)) (P_TX_FRAMES p)) o).out = o :: s.out := by
    rw [emit, bump, wr_out, count, wr_out]
  obtain ⟨j', hend | hon⟩ := launchResend_held (p := p) h
  · rw [hend, endResend_out, hsent]
  · rw [hon]
    exact hsent (resendOut p j u)

/-! ### A host packet leaves (R280, R282, R302, R307) -/

theorem portOf_modPort_self (f : PortSt → PortSt) (h : p < s.ports.length) : portOf (modPort s p f) p = f (portOf s p) := by
  simp [portOf, modPort, h]

/-- A change of a port's state that leaves the packets waiting there. -/
theorem hostQ_modPort {f : PortSt → PortSt} (hf : ∀ x, (f x).hostQ = x.hostQ) (s : State) (p : Nat) :
    (portOf (modPort s p f) p).hostQ = (portOf s p).hostQ := by
  by_cases h : p < s.ports.length
  · rw [portOf_modPort_self f h, hf]
  · simp [portOf, modPort, h]

theorem portOf_congr (h : t.ports = s.ports) (p : Nat) : portOf t p = portOf s p := by rw [portOf, portOf, h]

/-- A transmit stamp is queued or discarded: nothing leaves, the packets at the port stay, and of the registers its own change. -/
theorem captureTxts_leaves (s : State) (p : Nat) (id : BitVec 16) :
    (captureTxts s p id).1.out = s.out ∧ (portOf (captureTxts s p id).1 p).hostQ = (portOf s p).hostQ ∧
      sameElse s (captureTxts s p id).1 [(TXP_TXTS_DROP p).addr, (TXP_TXTS_STAT p).addr, TIM_EVT.addr] := by
  unfold captureTxts
  extract_lets q s1 s2 at_ s3 f w0 ws s4 s5
  split
  · refine ⟨?_, ?_, fun r hr => ?_⟩
    · rw [modPort_out, setEvt, wrBit, wr_out]
      exact (wr_out ..).trans (wr_out ..)
    · refine (hostQ_modPort ?_ (setEvt s2 TIM_EVT 14) p).trans (congrArg PortSt.hostQ (portOf_congr ?_ p))
      · exact fun _ => rfl
      · exact (wr_ports ..).trans ((wr_ports ..).trans (wr_ports ..))
    · simp only [List.mem_cons, List.not_mem_nil, or_false, not_or] at hr
      obtain ⟨hdrop, hstat, hevt⟩ := hr
      rw [rd_congr (modPort_regs ..), setEvt, rd_wrBit_ne _ _ _ hevt, rd_wrBit_ne _ _ _ hstat, rd_count_ne _ hdrop]
  · have h4 : s4 = s3 ∨ s4 = setEvt s3 TIM_EVT 13 := by
      unfold s4
      split
      · exact .inr rfl
      · exact .inl rfl
    have hout : s4.out = s.out := by
      obtain h | h := h4
      · exact (congrArg State.out h).trans rfl
      · exact (congrArg State.out h).trans (wr_out s3 _ _)
    have hports : s4.ports = s.ports := by
      obtain h | h := h4
      · exact (congrArg State.ports h).trans rfl
      · exact (congrArg State.ports h).trans (wr_ports s3 _ _)
    refine ⟨?_, ?_, fun r hr => ?_⟩
    · rw [wrFld, wr_out, modPort_out, hout]
    · rw [wrFld, portOf_congr (wr_ports ..)]
      refine (hostQ_modPort ?_ s4 p).trans (congrArg PortSt.hostQ (portOf_congr hports p))
      exact fun _ => rfl
    · simp only [List.mem_cons, List.not_mem_nil, or_false, not_or] at hr
      obtain ⟨-, hstat, hevt⟩ := hr
      rw [rd_wrFld_ne _ _ _ _ hstat, rd_congr (modPort_regs ..)]
      obtain h | h := h4 <;> rw [h]
      · rfl
      · exact rd_wrBit_ne s3 _ _ hevt

/-- A host packet leaves its port's queue, counted where it is late. -/
def hostTaken (s : State) (p : Nat) (k : HostPkt) : State :=
  onlyIf ((!k.now && hostDiff s k < -2000) || k.past) (modPort s p (fun x => { x with hostQ := x.hostQ.erase k }))
    (fun s => count s (TXP_HQ_LATE p))

/-- The stamp of a host packet that asks for one, and whether it was discarded. -/
def hostStamped (s : State) (p : Nat) (k : HostPkt) : State × Bool := if k.ts then captureTxts s p k.id else (s, false)

/-- A host packet as it leaves a port, with its FCS. -/
def hostOut (p : Nat) (k : HostPkt) : Output := .hostPacket p k.q k.id (k.bytes ++ wordBytes (crcOf 0 k.bytes))

/-- A host packet has left its port, and its descriptor finishes. -/
def hostLaunched (s : State) (p : Nat) (k : HostPkt) : State :=
  let c := hostStamped (hostTaken s p k) p k
  finish (emit (bump c.1 (P_TX_FRAMES p)) (hostOut p k)) k.q k.slot 0x00 (leBytes 2 k.id.toNat ++
    leBytes 1 (b2n k.ts + 2 * b2n c.2 + 4 * b2n (!k.now && hostDiff s k < -2000) + 8 * b2n k.past))

section
variable (hr : runs s) (hp : p < 24)
include hr hp

theorem exec_hostEgressLaunch {k : HostPkt} (hlive : dueLive s p = none) (hhost : dueHost s p = some k) :
    exec (.hostEgressLaunch p) s = .next (keepStores s (hostLaunched s p k)) := by
  show execHostEgressLaunch p s = _
  rw [execHostEgressLaunch, act_of hp hr]
  simp only [hlive, hhost, Option.isSome_none, Bool.false_eq_true, if_false]
  rfl

theorem exec_hostEgressLaunch_live (hlive : dueLive s p ≠ none) : exec (.hostEgressLaunch p) s = .next s := by
  show execHostEgressLaunch p s = _
  rw [execHostEgressLaunch, act_of hp hr, if_pos (Option.isSome_iff_ne_none.2 hlive), keepStores_self]

end

section
variable (s : State) (p : Nat) (k : HostPkt)

theorem hostTaken_out : (hostTaken s p k).out = s.out := by
  unfold hostTaken onlyIf
  split
  · rfl
  · rfl

theorem hostTaken_ports : (hostTaken s p k).ports = (modPort s p (fun x => { x with hostQ := x.hostQ.erase k })).ports := by
  unfold hostTaken onlyIf
  split
  · rfl
  · rfl

theorem rd_hostTaken_ne {r : Reg} (h : r.addr ≠ (TXP_HQ_LATE p).addr) : rd (hostTaken s p k) r = rd s r := by
  unfold hostTaken onlyIf
  split
  · exact rd_count_ne _ h
  · rfl

theorem rd_hostTaken_late : rd (hostTaken s p k) (TXP_HQ_LATE p) =
    if k.past || (!k.now && decide (hostDiff s k < -2000)) then satInc (rd s (TXP_HQ_LATE p)) else rd s (TXP_HQ_LATE p) := by
  rw [Bool.or_comm]
  unfold hostTaken onlyIf
  split
  · exact rd_count_self _ _
  · rfl

/-- What a stamp leaves, taken or not. -/
theorem hostStamped_leaves : (hostStamped s p k).1.out = s.out ∧ (portOf (hostStamped s p k).1 p).hostQ = (portOf s p).hostQ ∧
    sameElse s (hostStamped s p k).1 [(TXP_TXTS_DROP p).addr, (TXP_TXTS_STAT p).addr, TIM_EVT.addr] := by
  unfold hostStamped
  split
  · exact captureTxts_leaves s p k.id
  · exact ⟨rfl, rfl, sameElse_of_regs_eq rfl _⟩

theorem hostLaunched_out : (hostLaunched s p k).out = hostOut p k :: s.out := by
  rw [hostLaunched, finish_out, emit, bump, wr_out, (hostStamped_leaves _ p k).1, hostTaken_out]

theorem hostLaunched_hostQ (h : p < s.ports.length) : (portOf (hostLaunched s p k) p).hostQ = (portOf s p).hostQ.erase k := by
  rw [hostLaunched, portOf_congr (finish_ports ..), portOf_congr (emit_ports ..), bump, portOf_congr (wr_ports ..),
    (hostStamped_leaves _ p k).2.1, portOf_congr (hostTaken_ports s p k), portOf_modPort_self _ h]

/-- A register that shows no descriptors reads after a host packet's launch as before its descriptor finished. -/
theorem rd_hostLaunched {r : Reg} (h : r.addr ∉ [(Q_QSTAT k.q).addr, QUE_OUTSTANDING.addr, QUE_HELD.addr]) :
    rd (hostLaunched s p k) r = rd (bump (hostStamped (hostTaken s p k) p k).1 (P_TX_FRAMES p)) r :=
  sameElse_finish _ k.q k.slot _ _ r h

theorem rd_hostLaunched_txFrames (hp : p < 24) : rd (hostLaunched s p k) (P_TX_FRAMES p) = rd s (P_TX_FRAMES p) + 1 := by
  obtain ⟨-, -, hstamp⟩ := hostStamped_leaves (hostTaken s p k) p k
  rw [rd_hostLaunched, bump, rd_wr_self, hstamp, rd_hostTaken_ne _ _ _ (by simp only [P_TX_FRAMES, TXP_HQ_LATE]; omega)]
  all_goals
    simp only [P_TX_FRAMES, Q_QSTAT, QUE_OUTSTANDING, QUE_HELD, TXP_TXTS_DROP, TXP_TXTS_STAT, TIM_EVT, List.mem_cons, List.not_mem_nil,
      or_false]
    omega

theorem rd_hostLaunched_late (hp : p < 24) : rd (hostLaunched s p k) (TXP_HQ_LATE p) =
    if k.past || (!k.now && decide (hostDiff s k < -2000)) then satInc (rd s (TXP_HQ_LATE p)) else rd s (TXP_HQ_LATE p) := by
  obtain ⟨-, -, hstamp⟩ := hostStamped_leaves (hostTaken s p k) p k
  rw [← rd_hostTaken_late, rd_hostLaunched, bump, rd_wr_ne, hstamp]
  all_goals
    simp only [P_TX_FRAMES, TXP_HQ_LATE, Q_QSTAT, QUE_OUTSTANDING, QUE_HELD, TXP_TXTS_DROP, TXP_TXTS_STAT, TIM_EVT, List.mem_cons,
      List.not_mem_nil, or_false]
    omega

end

end Sys2Proof.Machine
end

section
/-!
SUPPORT. RETENTION_FETCH, RETENTION_FETCH_DONE and RESEND: the units a fetch writes, how a fetch and a re-send start, and how they are
refused (R287 to R289, R375, R378).
-/
namespace Sys2Proof.Machine

variable {s t : State} {q : Nat}

/-! ### The units of a fetch (R287, R288) -/

/-- A fetch writes consecutive units that are held, in order and as many as were asked where no unit was missing or too long. -/
theorem fetchUnits_spec (held : List RetUnit) (index : Bool) (seq room cnt : Nat) :
    let r := fetchUnits held index seq room cnt
    r.1.length ≤ cnt ∧ (∀ k (h : k < r.1.length), (r.1[k]).seq = seq + k ∧ r.1[k] ∈ held) ∧
      (r.1.map (fun u => (fetchBytes index u).length)).sum ≤ room ∧ (r.2 = 0 ↔ r.1.length = cnt) := by
  induction cnt generalizing seq room with
  | zero => simp [fetchUnits]
  | succ cnt ih =>
    unfold fetchUnits
    split
    · simp
    · next u hfind =>
      have hseq : u.seq = seq := by simpa using List.find?_some hfind
      have hmem : u ∈ held := List.mem_of_find?_eq_some hfind
      dsimp only
      split
      · simp
      · next hroom =>
        obtain ⟨hlen, hunits, hsum, hdone⟩ := ih (seq + 1) (room - (fetchBytes index u).length)
        refine ⟨by simpa using hlen, fun k hk => ?_, ?_, ?_⟩
        · cases k with
          | zero => exact ⟨hseq, hmem⟩
          | succ k =>
            obtain ⟨hk1, hk2⟩ := hunits k (by simpa using hk)
            exact ⟨by simp only [List.getElem_cons_succ]; omega, hk2⟩
        · simp only [List.map_cons, List.sum_cons]
          omega
        · simpa using hdone

/-! ### RETENTION_FETCH (R288) -/

section
variable {o : Outst} (hr : runs s) (hq : q < 32768) (hnext : nextUnhanded s q = some o) (hop : o.opcode = 7)
include hr hq hnext hop

theorem exec_retentionFetch : exec (.retentionFetch q) s =
    let p := o.payload.getD []
    let h := markHanded s q o.slot
    .next (keepStores s (if !strDefined h (leAt p 0 2) then
        finish (count h EGR_FETCH_CNT) q o.slot 0x01 (fetchResult h (leAt p 0 2) 0 0)
      else if !unitHeld h (leAt p 0 2) (leAt p 8 8) then finish (count h EGR_FETCH_CNT) q o.slot 0x02 (fetchResult h (leAt p 0 2) 0 0)
      else h)) := by
  show execRetentionFetch q s = _
  rw [execRetentionFetch, act_of hq hr, onCommand_of hnext hop]

section
variable {p : List Byte} (hp : o.payload.getD [] = p) {h : State} (hh : markHanded s q o.slot = h)
include hp hh

theorem exec_retentionFetch_undefined (hdef : strDefined h (leAt p 0 2) = false) : exec (.retentionFetch q) s =
    .next (keepStores s (finish (count h EGR_FETCH_CNT) q o.slot 0x01 (fetchResult h (leAt p 0 2) 0 0))) := by
  rw [exec_retentionFetch hr hq hnext hop, hp, hh]
  simp only [hdef, Bool.not_false, if_true]

theorem exec_retentionFetch_gone (hdef : strDefined h (leAt p 0 2) = true) (hheld : unitHeld h (leAt p 0 2) (leAt p 8 8) = false) :
    exec (.retentionFetch q) s =
      .next (keepStores s (finish (count h EGR_FETCH_CNT) q o.slot 0x02 (fetchResult h (leAt p 0 2) 0 0))) := by
  rw [exec_retentionFetch hr hq hnext hop, hp, hh]
  simp only [hdef, hheld, Bool.not_true, Bool.not_false, Bool.false_eq_true, if_true, if_false]

theorem exec_retentionFetch_runs (hdef : strDefined h (leAt p 0 2) = true) (hheld : unitHeld h (leAt p 0 2) (leAt p 8 8) = true) :
    exec (.retentionFetch q) s = .next (keepStores s h) := by
  rw [exec_retentionFetch hr hq hnext hop, hp, hh]
  simp only [hdef, hheld, Bool.not_true, Bool.false_eq_true, if_false]

end

end

/-! ### RETENTION_FETCH_DONE (R288, R378) -/

theorem fetchResult_congr {i : Nat} (h : leavesStreams s t) (hi : i < 1024) (units bytes : Nat) :
    fetchResult t i units bytes = fetchResult s i units bytes := by
  have hlo := h.2 (STR_RET_FIRST_LO i) (by simp only [STR_RET_FIRST_LO]; omega) (by simp only [STR_RET_FIRST_LO]; omega)
  have hhi := h.2 (STR_RET_FIRST_HI i) (by simp only [STR_RET_FIRST_HI]; omega) (by simp only [STR_RET_FIRST_HI]; omega)
  rw [fetchResult, fetchResult, retFirst, retFirst, rd64_congr hlo hhi]

theorem sameElse_leaveL1 (s : State) : sameElse s (leaveL1 s) ([HOST_STAT.addr] ++ [HOST_L1_EXIT_CNT.addr]) := by
  unfold leaveL1
  split
  · exact sameElse_trans (sameElse_wr s HOST_STAT _) (sameElse_wr _ HOST_L1_EXIT_CNT _)
  · exact sameElse_of_regs_eq rfl _

theorem leaveL1_streams (s : State) : (leaveL1 s).streams = s.streams := by
  unfold leaveL1
  split <;> rfl

theorem leaveL1_queues (s : State) : (leaveL1 s).queues = s.queues := by
  unfold leaveL1
  split <;> rfl

/-- What a fetch writes to the host, where it writes anything and its command still counts. -/
def fetchWritten (s : State) (writes : Bool) (a : Nat) (bs : List Byte) : State :=
  onlyIf writes s (fun s => emit (leaveL1 s) (.hostWrite a bs))

section
variable (s : State) (writes : Bool) (a : Nat) (bs : List Byte)

theorem leavesStreams_fetchWritten : leavesStreams s (fetchWritten s writes a bs) :=
  leavesStreams_onlyIf _ _ ⟨leaveL1_streams s, fun r hlo _ => sameElse_leaveL1 s r (by
    simp only [HOST_STAT, HOST_L1_EXIT_CNT, List.mem_append, List.mem_cons, List.not_mem_nil, or_false]
    omega)⟩

theorem rd_fetchWritten_cnt : rd (fetchWritten s writes a bs) EGR_FETCH_CNT = rd s EGR_FETCH_CNT :=
  sameElse_onlyIf _ (f := fun s => emit (leaveL1 s) (.hostWrite a bs)) (sameElse_leaveL1 s) EGR_FETCH_CNT (by decide)

theorem fetchWritten_queues : (fetchWritten s writes a bs).queues = s.queues := by
  cases writes
  · rfl
  · exact leaveL1_queues s

end

/-- A fetch has ended: what it writes is written, it is counted, and its descriptor finishes. -/
def fetchFinished (s : State) (q : Nat) (o : Outst) (writes : Bool) (a : Nat) (bs : List Byte) (status : Nat) (result : List Byte) :
    State :=
  finish (count (fetchWritten s writes a bs) EGR_FETCH_CNT) q o.slot status result

section
variable (s : State) {q : Nat} {o : Outst} (writes : Bool) (a : Nat) (bs : List Byte) (status : Nat) (result : List Byte)

theorem rd_fetchFinished_cnt (hq : q < 32768) :
    rd (fetchFinished s q o writes a bs status result) EGR_FETCH_CNT = satInc (rd s EGR_FETCH_CNT) := by
  have hother : EGR_FETCH_CNT.addr ∉ [(Q_QSTAT q).addr, QUE_OUTSTANDING.addr, QUE_HELD.addr] := by
    simp only [EGR_FETCH_CNT, Q_QSTAT, QUE_OUTSTANDING, QUE_HELD, List.mem_cons, List.not_mem_nil, or_false]
    omega
  rw [fetchFinished, sameElse_finish _ _ _ _ _ _ hother, rd_count_self, rd_fetchWritten_cnt]

theorem fetchFinished_head (h : writes = true) :
    (fetchFinished s q o writes a bs status result).out.head? = some (.hostWrite a bs) := by
  rw [fetchFinished, finish_out, count, wr_out, h]
  rfl

theorem exists_done_of_fetchFinished (ho : o ∈ (queueSt s q).outst) (hdone : o.done = none) :
    ∃ o' ∈ (queueSt (fetchFinished s q o writes a bs status result) q).outst,
      o'.slot = o.slot ∧ o'.done = some (BitVec.ofNat 8 status, padTo 24 result) := by
  refine exists_done_of_finish _ q _ _ ?_ hdone
  rwa [count, queueSt_congr (wr_queues ..), queueSt_congr (fetchWritten_queues ..)]

end

/-- A running fetch is outstanding and has no completion yet. -/
theorem running_of_find {l : List Outst} {o : Outst} (h : l.find? (fun o => o.opcode = 7 && o.handed && o.done.isNone) = some o) :
    o ∈ l ∧ o.done = none := by
  refine ⟨List.mem_of_find?_eq_some h, ?_⟩
  have hrunning := List.find?_some h
  simp only [Bool.and_eq_true, Option.isNone_iff_eq_none] at hrunning
  exact hrunning.2

section
variable {o : Outst} (hr : runs s) (hq : q < 32768)
  (hrun : (queueSt s q).outst.find? (fun o => o.opcode = 7 && o.handed && o.done.isNone) = some o)
include hr hq hrun

/-- The oldest running fetch of a queue writes the units copied and finishes. -/
theorem exec_retentionFetchDone (copied : Nat) (dma : Bool) :
    let p := o.payload.getD []
    let index : Bool := leAt p 20 4 % 2 = 1
    let r := fetchUnits (((streamOf s (leAt p 0 2)).map (fun st => st.held)).getD []) index (leAt p 8 8) (leAt p 32 8) (leAt p 16 4)
    let us := if dma then r.1.take copied else r.1
    let bs := (us.map (fetchBytes index)).flatten
    let writes := !us.isEmpty && !o.dead
    exec (.retentionFetchDone q copied dma) s = .next (keepStores s (fetchFinished s q o writes (leAt p 24 8) bs
      (if dma then 0x05 else r.2) (fetchResult (fetchWritten s writes (leAt p 24 8) bs) (leAt p 0 2) us.length bs.length))) := by
  show execRetentionFetchDone q copied dma s = _
  rw [execRetentionFetchDone, act_of hq hr]
  simp only [hrun]
  rfl

end

/-! ### RESEND (R289) -/

/-- The re-send that a command starts. -/
def resendOf (s : State) (q : Nat) (o : Outst) : ResendJob :=
  let p := o.payload.getD []
  { q := q, slot := o.slot, stream := leAt p 0 2, port := leAt p 2 1, next := leAt p 8 8, left := leAt p 4 4, dgram := 0
    seq := BitVec.ofNat 16 (leAt p 34 2), ssrc := wordOf (leAt p 36 4), dest := (p.drop 16).take 16, udp := leAt p 32 2
    rate := leAt p 40 8, due := s.raw, sent := 0 }

/-- A re-send starts, and the number running is shown. -/
def resendStarted (s : State) (j : ResendJob) : State :=
  wrFld { s with resends := s.resends ++ [j] } EGR_RESEND_ACT 4 0 (s.resends.length + 1)

theorem exec_resend {o : Outst} (hr : runs s) (hq : q < 32768) (hnext : nextUnhanded s q = some o) (hop : o.opcode = 8) :
    exec (.resend q) s =
    let p := o.payload.getD []
    let h := markHanded s q o.slot
    .next (keepStores s (if !strDefined h (leAt p 0 2) then finish h q o.slot 0x01 (leBytes 4 0)
      else if !unitHeld h (leAt p 0 2) (leAt p 8 8) then finish h q o.slot 0x02 (leBytes 4 0)
      else if 16 ≤ h.resends.length then finish h q o.slot 0x06 (leBytes 4 0)
      else resendStarted h (resendOf h q o))) := by
  show execResend q s = _
  rw [execResend, act_of hq hr, onCommand_of hnext hop]
  rfl

section
variable {o : Outst} (hr : runs s) (hq : q < 32768) (hnext : nextUnhanded s q = some o) (hop : o.opcode = 8)
  {p : List Byte} (hp : o.payload.getD [] = p) {h : State} (hh : markHanded s q o.slot = h)
include hr hq hnext hop hp hh

theorem exec_resend_undefined (hdef : strDefined h (leAt p 0 2) = false) :
    exec (.resend q) s = .next (keepStores s (finish h q o.slot 0x01 (leBytes 4 0))) := by
  rw [exec_resend hr hq hnext hop, hp, hh]
  simp only [hdef, Bool.not_false, if_true]

theorem exec_resend_gone (hdef : strDefined h (leAt p 0 2) = true) (hheld : unitHeld h (leAt p 0 2) (leAt p 8 8) = false) :
    exec (.resend q) s = .next (keepStores s (finish h q o.slot 0x02 (leBytes 4 0))) := by
  rw [exec_resend hr hq hnext hop, hp, hh]
  simp only [hdef, hheld, Bool.not_true, Bool.not_false, Bool.false_eq_true, if_true, if_false]

theorem exec_resend_full (hdef : strDefined h (leAt p 0 2) = true) (hheld : unitHeld h (leAt p 0 2) (leAt p 8 8) = true)
    (hfull : 16 ≤ h.resends.length) : exec (.resend q) s = .next (keepStores s (finish h q o.slot 0x06 (leBytes 4 0))) := by
  rw [exec_resend hr hq hnext hop, hp, hh]
  simp only [hdef, hheld, hfull, Bool.not_true, Bool.false_eq_true, if_true, if_false]

theorem exec_resend_starts (hdef : strDefined h (leAt p 0 2) = true) (hheld : unitHeld h (leAt p 0 2) (leAt p 8 8) = true)
    (hroom : h.resends.length < 16) : exec (.resend q) s = .next (keepStores s (resendStarted h (resendOf h q o))) := by
  rw [exec_resend hr hq hnext hop, hp, hh]
  simp only [hdef, hheld, Nat.not_le.2 hroom, Bool.not_true, Bool.false_eq_true, if_false]

end

theorem resendStarted_resends (s : State) (j : ResendJob) : (resendStarted s j).resends = s.resends ++ [j] := by
  rw [resendStarted, wrFld, wr_resends]

theorem resendStarted_streams (s : State) (j : ResendJob) : (resendStarted s j).streams = s.streams := by
  rw [resendStarted, wrFld, wr_streams]

theorem rdFld_resendStarted (j : ResendJob) (h : s.resends.length < 16) :
    rdFld (resendStarted s j) EGR_RESEND_ACT 4 0 = s.resends.length + 1 :=
  rdFld_wrFld_self _ EGR_RESEND_ACT (by decide) (by omega)

end Sys2Proof.Machine
end

section
/-!
The statements about egress (spec/10_egress.md).
-/
open Sys2Proof Sys2Proof.Machine

/-- Settles O34: a unit that fits is put into its share by `putUnit_eq`, and what a complete frame leads to leaves the streams; a launch is
read through the counters it writes, a re-send and a host packet through what leaves with them; a fetch's units by induction on their
number. That a re-send whose unit is gone ends with 0x04, the packaging's details and that a launch before its time does nothing are the
model's choices (log entries 49, 18, 64, 66 and 4). -/
theorem egressUnitsAndLaunches : Obligations.EgressUnitsAndLaunches := by
  refine ⟨fun i s st hr hi h => ?_, fun p s hr hp => ?_, fun held index seq room cnt => fetchUnits_spec held index seq room cnt,
    fun q o s hr hq hnext hop => ?_, fun q copied dma o s hr hq hrun => ?_, fun q o s hr hq hnext hop => ?_⟩
  · intro old
    refine ⟨fun f r p hfirst hold hsized hnotice => ?_, fun x rest hfirst haudio hready => ?_,
      fun f r p hfirst hold hwaits => exec_unitPackaged_pictureWaits hr hi h hfirst hold hwaits,
      fun hfirst haudio => exec_unitPackaged_none hr hi h hfirst haudio⟩
    · have hexec := exec_unitPackaged_picture hr hi h hfirst hold ⟨hsized, hnotice⟩
      refine ⟨hexec, fun hnew hfit => ?_⟩
      rw [hnew] at hfit ⊢
      obtain ⟨⟨out, hput⟩, hnumber⟩ := packVideo_fits hi h hnew hfit
      refine ⟨_, _, _, hexec, hput, rfl, rfl, videoMade_bytes s st _ f r p old, rfl, rfl, rfl, rfl, rfl, rfl, rfl, rfl, ?_, hnumber, rfl,
        videoMade_psiG s st _ f r p old, rfl, keepsStores_keepStores ..⟩
      rw [← videoMade_init_length s st _ f r p old]
      rfl
    · have hexec := exec_unitPackaged_sound hr hi h hfirst haudio hready
      refine ⟨hexec, fun hnew hfit => ?_⟩
      rw [hnew] at hfit ⊢
      obtain ⟨⟨out, hput⟩, hnumber⟩ := packAudio_fits hi h hnew hfit
      refine ⟨_, _, _, hexec, hput, rfl, congrArg (List.drop 1) haudio, rfl, rfl, rfl, rfl, rfl, fun hform hpcm => ?_, hnumber,
        keepsStores_keepStores ..⟩
      have hd : (streamDef s st false).form = 5 := hform
      obtain ⟨hbytes, hts⟩ := audioMade_pcm (s := s) (st := st) hd hpcm x
      exact ⟨hbytes, hts, unitPut_pcm hd ..⟩
  · refine ⟨exec_datagramLaunch_held hr hp,
      fun d hlive hd => ⟨exec_datagramLaunch_live hr hp hlive, _, exec_datagramLaunch_live hr hp hlive, ?_⟩,
      fun j u hlive hhost hresend hunit => ?_, fun j hlive hhost hresend hunit => ?_, fun k hlive hhost _ hlen => ?_,
      exec_hostEgressLaunch_live hr hp⟩
    · simp only [rd_keepStores, rdBit_keepStores]
      refine ⟨?_, ?_, ?_, ?_, fun hlate => ?_, fun r hr' => ?_, keepsStores_keepStores .., fun st h hrtp hnew => ⟨?_, ?_⟩⟩
      · exact (rd_launchLive s p d _).trans (rd_datagramCounted_dgrams ..)
      · exact (rd_launchLive s p d _).trans (rd_datagramCounted_txFrames _ p d hp hd)
      · exact (congrArg BitVec.toNat (rd_launchLive s p d _)).trans (rd_datagramCounted_maxLate ..)
      · exact (rd_launchLive s p d _).trans (rd_datagramCounted_paceLate _ p d hp)
      · exact (rdBit_congr (rd_launchLive s p d _) 1).trans (rdBit_datagramCounted_evt _ p d hp hlate)
      · refine (rd_launchLive s p d r).trans (sameElse_datagramCounted _ p d r ?_)
        simp_all
      · rw [keepStores_out, launchLive_out, datagramOut, datagramNumber_of s d h hnew]
        simp only [hrtp, if_true]
      · refine ⟨_, ((streamOf_congr (launchLive_streams s p d) _).trans (streamOf_modStream_self (fun _ => rfl) h)), ?_⟩
        rw [← datagramNumber_of s d h hnew]
        simp only [datagramSent, hrtp, if_true]
    · have hexec := exec_datagramLaunch_resend hr hp hlive hhost hresend
      exact ⟨hexec, _, hexec, launchResend_streams hunit, keepsStores_keepStores .., launchResend_out hunit⟩
    · rw [exec_datagramLaunch_resend hr hp hlive hhost hresend, launchResend_gone hunit]
    · exact ⟨_, exec_hostEgressLaunch hr hp hlive hhost, hostLaunched_out s p k, hostLaunched_hostQ s p k hlen,
        rd_hostLaunched_txFrames s p k hp, rd_hostLaunched_late s p k hp, keepsStores_keepStores ..⟩
  · exact ⟨exec_retentionFetch_undefined hr hq hnext hop rfl rfl, exec_retentionFetch_gone hr hq hnext hop rfl rfl,
      exec_retentionFetch_runs hr hq hnext hop rfl rfl⟩
  · intro p i index r us bs hi
    refine ⟨_, exec_retentionFetchDone hr hq hrun copied dma, ?_, fun hus hdead => ?_, ?_, keepsStores_keepStores ..⟩
    · exact rd_fetchFinished_cnt s _ _ _ _ _ hq
    · have hwrites : (!us.isEmpty && !o.dead) = true := by simp [hus, hdead]
      exact fetchFinished_head s _ _ _ _ _ hwrites
    · obtain ⟨ho, hdone⟩ := running_of_find hrun
      rw [fetchResult_congr (leavesStreams_fetchWritten s _ _ _) hi]
      exact exists_done_of_fetchFinished s _ _ _ _ _ ho hdone
  · refine ⟨exec_resend_undefined hr hq hnext hop rfl rfl, exec_resend_gone hr hq hnext hop rfl rfl, fun hdef hheld hfull => ?_,
      fun hdef hheld hroom => ?_⟩
    · exact exec_resend_full hr hq hnext hop rfl rfl hdef hheld (by rwa [markHanded_resends])
    · have hroom' : (markHanded s q o.slot).resends.length < 16 := by rwa [markHanded_resends]
      refine ⟨_, resendOf (markHanded s q o.slot) q o, exec_resend_starts hr hq hnext hop rfl rfl hdef hheld hroom', ?_, ?_,
        rfl, rfl, rfl, markHanded_raw .., rfl, rfl, rfl, ?_, keepsStores_keepStores ..⟩
      · rw [keepStores_resends, resendStarted_resends, markHanded_resends]
      · exact (rdFld_resendStarted _ hroom').trans (by rw [markHanded_resends])
      · rw [keepStores_streams, resendStarted_streams, markHanded_streams]
end
